-- ==== Sys2Proof/Word.lean ====
section
/-! DEFINITION. Words, bytes, stamps and the plainest operations on them: bit fields, byte order, saturating counts, and the sparse maps the state is made of. -/

namespace Sys2Proof

/-- A 32-bit register value. -/
abbrev Word := BitVec 32

/-- A byte. -/
abbrev Byte := BitVec 8

/-- A string of bytes, first byte first. -/
abbrev Bytes := List Byte

/-- A SYSCNT value in nanoseconds (R151); the operations that form one keep it below 2^64. -/
abbrev Stamp := Nat

/-- The bits `lo` to `lo + w - 1` of a number. -/
def bits (v lo w : Nat) : Nat := v / 2 ^ lo % 2 ^ w

/-- The bit `i` of a number. -/
def bit (v i : Nat) : Bool := v / 2 ^ i % 2 == 1

/-- `v` with its bits `lo` to `lo + w - 1` replaced by the low bits of `x`. -/
def putBits (v lo w x : Nat) : Nat :=
  v % 2 ^ lo + (x % 2 ^ w) * 2 ^ lo + v / 2 ^ (lo + w) * 2 ^ (lo + w)

/-- 1 for true, 0 for false. -/
def b2n (b : Bool) : Nat := if b then 1 else 0

/-- Addition that stops at the largest value of `w` bits (the saturating counters of every register table). -/
def satAdd (w v n : Nat) : Nat := min (v + n) (2 ^ w - 1)

/-- The signed reading of the low `w` bits of a number (two's complement). -/
def toSigned (w v : Nat) : Int :=
  let x := v % 2 ^ w
  if x < 2 ^ (w - 1) then (x : Int) else (x : Int) - (2 ^ w : Nat)

/-- The `w`-bit two's complement coding of an integer. -/
def ofSigned (w : Nat) (i : Int) : Nat := (i % ((2 ^ w : Nat) : Int)).toNat

/-- An integer held between two limits. -/
def clampInt (lo hi i : Int) : Int := if i < lo then lo else if hi < i then hi else i

/-- The low byte of a number. -/
def byte (n : Nat) : Byte := BitVec.ofNat 8 n

/-- `n` bytes of a number, least significant first (R7: little-endian). -/
def le : Nat → Nat → Bytes
  | 0, _ => []
  | n + 1, v => byte v :: le n (v / 256)

/-- `n` bytes of a number, most significant first. -/
def be (n v : Nat) : Bytes := (le n v).reverse

/-- The number a little-endian byte string spells. -/
def leNat : Bytes → Nat
  | [] => 0
  | b :: r => b.toNat + 256 * leNat r

/-- The number a big-endian byte string spells. -/
def beNat (bs : Bytes) : Nat := leNat bs.reverse

/-- The `n` bytes of a string from offset `off` on; bytes the string does not have read 0. -/
def slice (bs : Bytes) (off n : Nat) : Bytes :=
  let p := (bs.drop off).take n
  p ++ List.replicate (n - p.length) 0

/-- The unsigned little-endian field of `n` bytes at offset `off`. -/
def fieldLE (bs : Bytes) (off n : Nat) : Nat := leNat (slice bs off n)

/-- The unsigned big-endian field of `n` bytes at offset `off`. -/
def fieldBE (bs : Bytes) (off n : Nat) : Nat := beNat (slice bs off n)

/-- A byte string written over another at an offset, never past its end. -/
def overlay (bs : Bytes) (off : Nat) (p : Bytes) : Bytes :=
  (bs.take off ++ p ++ bs.drop (off + p.length)).take bs.length

/-- A byte string cut or zero-padded to a length. -/
def padTo (n : Nat) (bs : Bytes) : Bytes := slice bs 0 n

/-- The division rounded up. -/
def ceilDiv (a b : Nat) : Nat := (a + b - 1) / b

/-- The entry of a list at an index, or a value of last resort. -/
def nth {α : Type} (l : List α) (i : Nat) (d : α) : α := (l[i]?).getD d

/-- A list with its entry at an index replaced. -/
def setNth {α : Type} (l : List α) (i : Nat) (x : α) : List α := l.set i x

/-- A list with its entry at an index changed by a function. -/
def updNth {α : Type} (l : List α) (i : Nat) (f : α → α) : List α :=
  match l[i]? with
  | some x => l.set i (f x)
  | none => l

/-- A sparse map: pairs of a key and a value, keys strictly rising. -/
abbrev KMap (α : Type) := List (Nat × α)

/-- The value of a key, if the map has one. -/
def KMap.get? {α : Type} : KMap α → Nat → Option α
  | [], _ => none
  | (a, v) :: r, k => if a = k then some v else KMap.get? r k

/-- The value of a key, or a value of last resort. -/
def KMap.getD {α : Type} (m : KMap α) (k : Nat) (d : α) : α := (KMap.get? m k).getD d

/-- The map with a key's value set, keys kept rising. -/
def KMap.put {α : Type} : KMap α → Nat → α → KMap α
  | [], k, v => [(k, v)]
  | (a, u) :: r, k, v =>
    if k < a then (k, v) :: (a, u) :: r
    else if a = k then (k, v) :: r
    else (a, u) :: KMap.put r k v

/-- The map without a key. -/
def KMap.del {α : Type} : KMap α → Nat → KMap α
  | [], _ => []
  | (a, u) :: r, k => if a = k then r else (a, u) :: KMap.del r k

/-- The keys of a map rise strictly, and each lies above `lo`. -/
def KMap.rising {α : Type} : Option Nat → KMap α → Bool
  | _, [] => true
  | lo, (a, _) :: r => (match lo with | none => true | some l => decide (l < a)) && KMap.rising (some a) r

end Sys2Proof
end

