-- ==== Sys2Proof/Syntax.lean ====
section
/-! DEFINITION. The commands the block takes from outside: one constructor per row of the command table, with what the command brings with it (log entry 1). -/

namespace Sys2Proof

/-- The origin of a register write or of a change (Table SCO-6). -/
inductive Origin
  | device | hostSpi | mp | sp | debug | imageLoad | faultReaction | repair | fs | updateMsg | netMgmt
deriving DecidableEq, Repr

/-- The code of an origin (Table SCO-6); 0 stands for the device itself, which Table JRN-13 uses where no origin applies. -/
def Origin.code : Origin → Nat
  | .device => 0
  | .hostSpi => 1
  | .mp => 2
  | .sp => 3
  | .debug => 4
  | .imageLoad => 5
  | .faultReaction => 6
  | .repair => 7
  | .fs => 8
  | .updateMsg => 9
  | .netMgmt => 10

/-- A transaction of the host port as the device receives it (Table HOST-1): SEQ, ARG, LEN and ADDR of its command words (OP is the command's own), the payload words, the CRC word, and the number of clocks while select was asserted. -/
structure Txn where
  seq : Nat
  arg : Nat
  len : Nat
  addr : Nat
  payload : List Word
  crc : Word
  clocks : Nat
deriving DecidableEq, Repr

/-- What the SP writes into an LME context it holds at a row's end (R553, R554): operands, or a row of Table CRY-1. -/
inductive LmeIssue
  | load (c b n ninv nb : Nat)
  | mul (c x k : Nat)
  | red (c k : Nat)
  | clear (c : Nat)
deriving DecidableEq, Repr

/-- The units that are built as two compared copies (R32, Tables FLT-1 and FLT-2). -/
inductive Pair
  | hostCollector | journal | budgetArbiter | keyStore | tamperMonitor | permitGenerator | fieldCollector
deriving DecidableEq, Repr

/-- How a service request reaches the SP (R566, R567): as the head of the service port's queue, or as a transaction of the host port. -/
inductive SvcPath
  | fabric
  | host (t : Txn)
deriving DecidableEq, Repr

/-- The commands: one constructor per row of the command table, in its order. -/
inductive Instr
  | /-- POWER_ON_RESET (R64): VSUP_H rises to 4.5 V or more from below 4.2 V, and the host die is reinitialised. -/
    powerOnReset (vio18 : Bool)
  | /-- PIN_RESET (R65): RESET_N is held low for 1 µs or longer, and a host-die reset is accepted. -/
    pinReset
  | /-- RESET (R67): The host RESET command (OP 0xA, ARG 0xA5) is accepted at the commit of its release of select and resets the host die. -/
    reset (t : Txn)
  | /-- SUPPLY_MONITOR_RESET (R64): An internal rail of the host die leaves its limits, and the host die resets with cause SUPMON. -/
    supplyMonitorReset
  | /-- CLOCK_MONITOR_RESET (R194): The 25 MHz reference is missing or outside its limits, and the host die resets with cause CLKMON. -/
    clockMonitorReset
  | /-- TEMPERATURE_MONITOR_RESET (R891): The host-die junction exceeds its limit, and the host die resets with cause TEMPMON. -/
    temperatureMonitorReset
  | /-- RESET_END (R67): A host-die reset ends, SYSCNT restarts from the keeper counter (or at 0) and the BUILD start follows. -/
    resetEnd
  | /-- VSUP_H_LOSS (R77): VSUP_H stays below 4.2 V for 10 µs: the hold line is asserted, SYSCNT[63:15] is stored and the device enters KEEP or No supply. -/
    vsupHLoss
  | /-- KEEPER_LOSS (R78): VKEEP falls below 1.8 V with VSUP_H absent, and the keeper domain contents are lost. -/
    keeperLoss
  | /-- FIELD_POWER_ON (R74): VSUP_F becomes valid, and the field die resets and enters WAIT. -/
    fieldPowerOn
  | /-- FIELD_MONITOR_RESET (R64): A supply, clock or temperature monitor of the field die trips, and the field die resets and enters WAIT. -/
    fieldMonitorReset
  | /-- FIELD_SUPPLY_LOSS (R79): VSUP_F is lost, and the PERMIT pins lose their drive. -/
    fieldSupplyLoss
  | /-- BUILD_START (R122): BUILD begins: headers are read, slots are ordered and a field start message is sent. -/
    buildStart
  | /-- BUILD_SLOT_FAIL (R128): The slot being tried fails a check, its staging is discarded, and the other slot is tried or BUILD ends. -/
    buildSlotFail
  | /-- BUILD_TIMEOUT (R128): BUILD reaches 500 ms, and the slot being tried reports TIMEOUT. -/
    buildTimeout
  | /-- BUILD_COMMIT (R123): All checks of a slot pass: host sections take effect at one instant and the field die is told to commit. -/
    buildCommit
  | /-- RUN_ENTRY (R75): After commit, the field die reports FRUN or 5 ms pass: the journal entry is written, RUN is entered and the MP starts at ENTRY. -/
    runEntry
  | /-- OTP_FUSE_PROGRAMMED (R120): Programming of one OTP fuse (floor, revoke or epoch) completes, and the leave is released. -/
    otpFuseProgrammed (root : Bool)
  | /-- SYS_CTRL_SLEEP (R62): A write of 1 to SYS.CTRL.SLEEP requests STANDBY and starts the entry steps. -/
    sysCtrlSleep (o : Origin)
  | /-- SLEEP (R62): The host SLEEP operation requests STANDBY as a write of SYS.CTRL.SLEEP by HOST_SPI. -/
    sleep (t : Txn)
  | /-- STANDBY_DRAIN_END (R62): The egress drain of STANDBY entry ends or reaches SYS.STBYCFG.DRAIN: remaining cells are purged, the Tahr link stops and islands power down. -/
    standbyDrainEnd
  | /-- WAKE_EVENT (R83): An enabled wake source fires in STANDBY and is recorded as a candidate with its stamp. -/
    wakeEvent (src : Nat) (stamp : Nat)
  | /-- WAKE_DECISION (R83): The horizon passes for a candidate: the primary source is committed, STANDBY to BUILD begins, and a WAKE_OUT pulse may start. -/
    wakeDecision
  | /-- WAKE_OUT_PULSE_END (R86): A WAKE_OUT pulse ends after SYS.STBYCFG.PULSE × 100 µs. -/
    wakeOutPulseEnd
  | /-- RESUME (R87): The host RESUME operation acts as wake source 0x00 and is answered ACCEPTED, WAKING or NOOP. -/
    resume (t : Txn)
  | /-- SYS_DEGCAUSE_CLEAR (R61): A write of 1 clears SYS.DEGCAUSE.REACT, and the device may return from DEGRADED to RUN. -/
    sysDegcauseClear (o : Origin)
  | /-- TICK_COMMIT (R163): At the start of each tick, every decision domain commits its pending events of tick k − 2 in key order. -/
    tickCommit (codes : List Int)
  | /-- TIM_RATE_WRITE (R177): A write of TIM.RATE takes effect at its commit and applies from the next beat. -/
    timRateWrite (o : Origin) (v : Word)
  | /-- TIM_PTPOFSL_WRITE (R176): A write of TIM.PTPOFSL is held until the next write of TIM.PTPOFSH. -/
    timPtpofslWrite (o : Origin) (v : Word)
  | /-- TIM_PTPOFSH_WRITE (R176): A write of TIM.PTPOFSH makes both halves of the vehicle-time offset take effect together. -/
    timPtpofshWrite (o : Origin) (v : Word)
  | /-- TIM_NOWL_READ (R158): A read of TIM.NOWL returns SYSCNT[31:0] and loads TIM.NOWH with SYSCNT[63:32] of the same stamp. -/
    timNowlRead (o : Origin)
  | /-- NOP (R201): The NOP operation clocks response words and has no effect. -/
    nop (t : Txn)
  | /-- WRITE (R207): The WRITE operation writes consecutive registers, all together or none. -/
    write (t : Txn)
  | /-- WRITEL (R207): The WRITEL operation writes address and value pairs in payload order, all together or none. -/
    writel (t : Txn)
  | /-- READ (R212): The READ operation reads up to 256 words into the response buffer, clearing RC fields and popping RP entries. -/
    read (t : Txn)
  | /-- FETCH (R215): The FETCH operation clocks out the response buffer with no side effect. -/
    fetch (t : Txn)
  | /-- SEND (R239): The SEND operation submits a message to fabric port 70, refused with QFULL where not admitted. -/
    send (t : Txn)
  | /-- RECV (R240): The RECV operation moves the head message of port 70's egress into the response buffer, or completes EMPTY. -/
    recv (t : Txn)
  | /-- BADOP (R201): A transaction with OP 0xB–0xF or a field out of range fails with status BADOP. -/
    badop (op : Nat) (t : Txn)
  | /-- DEFERRED_COMPLETE (R211): A deferred operation completes, the response buffer is replaced and HDR.RDY is set. -/
    deferredComplete
  | /-- SYS_UNLOCK_WRITE (R225): A write of the key to SYS.UNLOCK opens or restarts the writer's unlock window; any other value closes it. -/
    sysUnlockWrite (o : Origin) (v : Word)
  | /-- UNLOCK_WINDOW_EXPIRE (R226): An origin's unlock window ends after its instruction count or transaction. -/
    unlockWindowExpire (o : Origin) (field : Bool)
  | /-- REGISTER_WRITE (R138): A write to a register that has no row of its own is checked by mode, permission, hold, range, capacity and journal space, then takes effect. -/
    registerWrite (o : Origin) (a : Nat) (v : Word)
  | /-- FLASH_READ_PAGE (R234): SYS.FLCTL.CMD 1 starts a read of one flash page into SYS.FLDATA. -/
    flashReadPage (o : Origin)
  | /-- FLASH_PROGRAM_PAGE (R234): SYS.FLCTL.CMD 2 starts programming of one flash page from SYS.FLDATA. -/
    flashProgramPage (o : Origin)
  | /-- FLASH_ERASE_4K (R234): SYS.FLCTL.CMD 3 starts an erase of 4 KiB at SYS.FLADDR. -/
    flashErase4k (o : Origin)
  | /-- FLASH_ERASE_64K (R234): SYS.FLCTL.CMD 4 starts an erase of 64 KiB at SYS.FLADDR. -/
    flashErase64k (o : Origin)
  | /-- FLASH_OP_COMPLETE (R235): A register-started boot-flash operation ends and SYS.FLCTL.BUSY clears. -/
    flashOpComplete (ok : Bool)
  | /-- IMG_RELEASE (R142): A write of IMG.RELEASE ends the writer's expert hold on the named register. -/
    imgRelease (o : Origin) (v : Word)
  | /-- IMG_RELEASEREC (R142): A write of IMG.RELEASEREC ends the writer's expert hold on the named live-table record. -/
    imgReleaserec (o : Origin) (v : Word)
  | /-- JOURNAL_DRAIN (R254): BATCH unsent entries or MAXAGE reached: the journal submits a drain message at port 66. -/
    journalDrain
  | /-- JOURNAL_ACK (R256): An acknowledgement message at port 66 is checked and frees entries up to ACKSEQ. -/
    journalAck
  | /-- JOURNAL_REWIND (R257): An accepted acknowledgement with REWIND marks every later entry unsent. -/
    journalRewind
  | /-- GATEWAY_CLASSIFY (R277): A pipeline takes an event once its header is in and its tick committed, passes it through the stages and hands heads to the planes. -/
    gatewayClassify (p : Nat)
  | /-- HEAD_RELEASE (R287): An egress stage releases a head into its queue once every port in reach has progressed beyond its tick. -/
    headRelease (e : Nat)
  | /-- EXPRESS_MATCH (R293): Once per cell time the express matcher runs its grant and accept rounds. -/
    expressMatch
  | /-- EGRESS_SCHEDULE (R330): A transmitter or slot becomes free and the scheduler chooses the next frame by strict priority or deficit round robin. -/
    egressSchedule (e : Nat)
  | /-- PLANECTL_WRITE (R300): A write of FAB.PLANECTL raises a plane via a budget request or lowers it at the next horizon. -/
    planectlWrite (o : Origin) (v : Word)
  | /-- MODEL_DEPARTURE (R319): A port's model credit covers its head entry, and the ledger returns the entry's cells. -/
    modelDeparture (e : Nat)
  | /-- HOLD_LIMIT_PURGE (R327): A frame held at a blocked or out-of-service port passes HOLDMS and is purged. -/
    holdLimitPurge (e : Nat)
  | /-- LEDGER_DIVERGENCE (R323): Physical cells of a port exceed its ledger by FAB.PDIV.MAX, raising the divergence fault source. -/
    ledgerDivergence (e : Nat)
  | /-- BUFFER_PRESSURE (R323): Physical free cells fall below 1,024, ingress stages stop taking cells and the pressure fault source is raised. -/
    bufferPressure
  | /-- BUFFER_PRESSURE_END (R323): 2,048 cells are free again and ingress stages resume. -/
    bufferPressureEnd
  | /-- GATE_INTERVAL_END (R332): A gate-list interval ends and the next record's gates take effect. -/
    gateIntervalEnd (e : Nat)
  | /-- FAB_GBASEL_WRITE (R333): A write of FAB.GBASEL is held until the next write of FAB.GBASEH. -/
    fabGbaselWrite (o : Origin) (e : Nat) (v : Word)
  | /-- FAB_GBASEH_WRITE (R333): A write of FAB.GBASEH sets the gate cycle base, effective at the next cycle start. -/
    fabGbasehWrite (o : Origin) (e : Nat) (v : Word)
  | /-- VIRTUAL_PORT_CONSUME (R370): A virtual port consumes its next queued input in key order and emits per its role. -/
    virtualPortConsume (v : Nat)
  | /-- CONTAINER_PERIODIC_EMIT (R375): A periodic container's boundary is reached and the container is emitted. -/
    containerPeriodicEmit (v : Nat)
  | /-- ACF_TIMED_EMIT (R378): MAXWAIT after its first message, an open AVTPDU is emitted. -/
    acfTimedEmit (t : Nat)
  | /-- LT_WRITE (R380): GTW.LTCTL.OP 1 writes the origin's LTDATA into a live-table record. -/
    ltWrite (o : Origin)
  | /-- LT_DELETE (R380): GTW.LTCTL.OP 2 marks a live-table record absent. -/
    ltDelete (o : Origin)
  | /-- LT_STAGE (R380): GTW.LTCTL.OP 3 appends a write to the origin's staging list. -/
    ltStage (o : Origin)
  | /-- LT_STAGEDEL (R380): GTW.LTCTL.OP 4 appends a delete to the origin's staging list. -/
    ltStagedel (o : Origin)
  | /-- LT_COMMIT (R381): GTW.LTCTL.OP 5 performs the staging list as one atomic change. -/
    ltCommit (o : Origin)
  | /-- LT_DISCARD (R380): GTW.LTCTL.OP 6 empties the staging list. -/
    ltDiscard (o : Origin)
  | /-- LT_READ (R380): GTW.LTCTL.OP 7 loads a live-table record into the origin's LTDATA. -/
    ltRead (o : Origin)
  | /-- CAN_CTL_INIT_WRITE (R398): A write of CAN.CTL.INIT stops the controller or applies held timing and starts integration. -/
    canCtlInitWrite (o : Origin) (n : Nat) (v : Word)
  | /-- CAN_BUS_INTEGRATE (R399): After 11 recessive bits the controller integrates to the bus. -/
    canBusIntegrate (n : Nat)
  | /-- CAN_RECOVER (R407): A write of 1 to CAN.CTL.RECOVER starts bus-off recovery where BOREC is 1. -/
    canRecover (o : Origin) (n : Nat)
  | /-- BUS_OFF_RECOVERY_END (R407): After 128 occurrences of 11 recessive bits the controller becomes error-active and the port unblocks. -/
    busOffRecoveryEnd (n : Nat)
  | /-- CAN_TX_ATTEMPT (R412): At the end of intermission the controller offers the eligible slot with the lowest arbitration key. -/
    canTxAttempt (n : Nat) (measured : Nat)
  | /-- CAN_TX_COMPLETE (R414): A frame is transmitted without error, and its slot is freed. -/
    canTxComplete (n : Nat)
  | /-- CAN_TX_ATTEMPT_FAIL (R413): An attempt loses arbitration or ends in error, and the frame stays for another attempt. -/
    canTxAttemptFail (n : Nat) (code : Nat) (dataPhase : Bool) (noDominant : Bool) (stuffArb : Bool) (more : Nat)
  | /-- CAN_TXABORT (R415): A write of CAN.TXABORT removes the frames of the named slots. -/
    canTxabort (o : Origin) (n : Nat) (v : Word)
  | /-- CAN_TRANSMIT_STALL (R416): STALLMS passes since the reference with a slot occupied, and the port is blocked. -/
    canTransmitStall (n : Nat)
  | /-- CAN_RX_FRAME (R417): A CAN frame is received without error, stamped and handed to its pipeline, or lost to overflow. -/
    canRxFrame (n : Nat) (stamp : Nat) (body : List Byte)
  | /-- FCAN_STATUS_REPORT (R421): The field die sends an FCAN status record at a state change or each millisecond, updating the host mirrors. -/
    fcanStatusReport
  | /-- LISTENER_WAKE_FRAME (R424): A selective-wake listener decodes a matching wake frame and raises its wake source. -/
    listenerWakeFrame (l : Nat) (stamp : Nat) (ide : Bool) (ident : Nat) (dlc : Nat) (data : List Byte)
  | /-- LISTENER_FRAME_ERROR (R425): A listener decodes a frame with a stuff, form or CRC error and increments its counter. -/
    listenerFrameError (l : Nat)
  | /-- LISTENER_FEC_OVERFLOW (R425): A listener's frame error counter reaches 32 and it raises a wake event. -/
    listenerFecOverflow (l : Nat) (stamp : Nat)
  | /-- LIN_SLOT_START (R432): A master's schedule slot starts and it sends the header of the slot's frame. -/
    linSlotStart (c : Nat)
  | /-- LIN_HEADER_RX (R433): A slave receives a header and publishes its buffer, or enters sleep on a sleep frame. -/
    linHeaderRx (c : Nat) (pid : Nat) (sleep : Bool)
  | /-- LIN_RESPONSE_RX (R434): A response on a subscribed identifier arrives whole with a correct checksum and goes to the pipeline. -/
    linResponseRx (c : Nat) (stamp : Nat) (pid : Nat) (cksum : Nat) (data : List Byte) (bitErr : Bool)
  | /-- LIN_NO_RESPONSE (R434): A response is not complete within its time limit and is counted as missing. -/
    linNoResponse (c : Nat)
  | /-- LIN_SCHED_WRITE (R436): A write of LIN.CTL.SCHED changes the schedule table at the end of the current slot. -/
    linSchedWrite (o : Origin) (c : Nat) (v : Word)
  | /-- LIN_SLEEP (R436): A write of 1 to LIN.CTL.SLEEP makes a master send the sleep frame and enter sleep. -/
    linSleep (o : Origin) (c : Nat)
  | /-- LIN_WAKE (R437): A write of 1 to LIN.CTL.WAKE sends a 1 ms wake pulse and wakes the controller. -/
    linWake (o : Origin) (c : Nat)
  | /-- LIN_WAKE_PULSE (R437): A dominant pulse of 150 µs or longer wakes a sleeping LIN controller. -/
    linWakePulse (c : Nat)
  | /-- LIN_IDLE_SLEEP (R436): A slave sees 4 s without bus activity and enters sleep. -/
    linIdleSleep (c : Nat)
  | /-- LIN_SCHEDULE_RESUME (R437): WAKEDLY ms after a wake, a master starts its schedule. -/
    linScheduleResume (c : Nat)
  | /-- LIN_BUS_FAULT (R438): RX stays dominant or differs from TX, the port is blocked and the LIN bus-fault source is raised. -/
    linBusFault (c : Nat)
  | /-- LIN_BUS_FAULT_END (R438): 11 consecutive recessive bits end the LIN bus fault. -/
    linBusFaultEnd (c : Nat)
  | /-- ETH_RX_FRAME (R459): An Ethernet frame is received, stamped at its SFD and delivered to the pipeline or counted as erroneous. -/
    ethRxFrame (p : Nat) (stamp : Nat) (frame : List Byte) (fcsOk : Bool)
  | /-- ETH_LINK_CHANGE (R462): An Ethernet port's link goes up or down and the port is unblocked or blocked. -/
    ethLinkChange (p : Nat) (up : Bool) (sqi : Nat) (anDone : Bool)
  | /-- ETH_COLLISION (R469): A 10BASE-T1S collision ends a transmission for retry or discard after 16 attempts. -/
    ethCollision (p : Nat)
  | /-- ETH_PLCA_WRITE (R470): A write of ETH.PLCA or ETH.PLCA2 restarts PLCA once any frame in transmission has ended. -/
    ethPlcaWrite (o : Origin) (p : Nat) (second : Bool) (v : Word)
  | /-- TC10_SLEEP (R464): A write of 1 to ETH.T1CTL.SLEEP sends a sleep request and enters SLEEPREQ. -/
    tc10Sleep (o : Origin) (p : Nat)
  | /-- TC10_SLEEP_ACK (R464): The partner acknowledges the sleep request and the port enters SLEEP. -/
    tc10SleepAck (p : Nat)
  | /-- TC10_SLEEPREQ_TIMEOUT (R464): The partner rejects or 16 ms pass, and the port returns to NORMAL. -/
    tc10SleepreqTimeout (p : Nat)
  | /-- TC10_PARTNER_SLEEP (R464): A sleep request from the partner is accepted or rejected per SLEEPACK. -/
    tc10PartnerSleep (p : Nat)
  | /-- TC10_WAKE (R464): A write of 1 to ETH.T1CTL.WAKE sends a wake-up pulse and enters WAKING. -/
    tc10Wake (o : Origin) (p : Nat)
  | /-- TC10_WAKE_DETECT (R465): A wake-up pulse or request from the partner moves SLEEP to WAKING, or stamps a wake source in STANDBY. -/
    tc10WakeDetect (p : Nat) (stamp : Nat)
  | /-- ETH_TSTX0_POP (R475): A read of ETH.TSTX0 pops the head timestamp record and loads TSTX1 and TSTX2. -/
    ethTstx0Pop (o : Origin) (p : Nat)
  | /-- ETH_SAPNL_WRITE (R486): A write of an association's PNL is held until its PNH write. -/
    ethSapnlWrite (o : Origin) (p : Nat) (rx : Bool) (k : Nat) (v : Word)
  | /-- ETH_SAPNH_WRITE (R486): A write of an association's PNH sets NEXTPN or the lowest acceptable PN. -/
    ethSapnhWrite (o : Origin) (p : Nat) (rx : Bool) (k : Nat) (v : Word)
  | /-- MDIO_ADDRESS (R458): ETH.MDIOCMD.OP 0 starts a Clause 45 address frame. -/
    mdioAddress (o : Origin) (v : Word)
  | /-- MDIO_WRITE (R458): ETH.MDIOCMD.OP 1 starts an MDIO write frame. -/
    mdioWrite (o : Origin) (v : Word)
  | /-- MDIO_READ (R458): ETH.MDIOCMD.OP 2 starts an MDIO read frame. -/
    mdioRead (o : Origin) (v : Word)
  | /-- MDIO_READ_INCREMENT (R458): ETH.MDIOCMD.OP 3 starts a read and increment address frame. -/
    mdioReadIncrement (o : Origin) (v : Word)
  | /-- MDIO_COMPLETE (R458): An MDIO frame ends, read data appears in ETH.MDIODATA and BUSY clears. -/
    mdioComplete (data : Nat)
  | /-- NET_MGMT_REQUEST (R488): A network management request at port 65 is checked, executed with origin NET_MGMT and answered. -/
    netMgmtRequest
  | /-- TAMPER_DETECT (R508): The mesh or an armed enclosure input detects tamper, zeroing root, vault and slots. -/
    tamperDetect (src : Nat)
  | /-- UPDATE_INJECT (R533): An update message INJECT operation installs or replaces a vault key. -/
    updateInject
  | /-- UPDATE_DELETE (R533): An update message DELETE operation erases a vault entry and its grace keys. -/
    updateDelete
  | /-- UPDATE_ROOT (R536): A root message asks leave, blows the next epoch fuse and then restores the root. -/
    updateRoot
  | /-- UPDATE_REGWRITE (R532): An update message REGWRITE operation writes a register with origin UPDATE_MSG. -/
    updateRegwrite
  | /-- GRACE_EXPIRY (R541): The grace of a former committed key ends and it is erased. -/
    graceExpiry (h : Nat)
  | /-- RANDOM (R579): Service 0x01 returns N bytes from the DRBG. -/
    random (p : SvcPath)
  | /-- MACGEN (R570): Service 0x02 returns a truncated CMAC. -/
    macgen (p : SvcPath)
  | /-- MACVER (R587): Service 0x03 verifies a CMAC tag under committed, pending and grace keys. -/
    macver (p : SvcPath)
  | /-- GCMENC (R570): Service 0x04 encrypts with GCM and returns ciphertext and tag. -/
    gcmenc (p : SvcPath)
  | /-- GCMDEC (R570): Service 0x05 decrypts with GCM or answers AUTHFAIL. -/
    gcmdec (p : SvcPath)
  | /-- CTRENC (R570): Service 0x06 encrypts or decrypts in CTR mode. -/
    ctrenc (p : SvcPath)
  | /-- WRAP (R572): Service 0x07 wraps the key of a run-time handle per RFC 3394. -/
    wrap (p : SvcPath)
  | /-- UNWRAP (R571): Service 0x08 unwraps a key into a new or targeted run-time handle. -/
    unwrap (p : SvcPath)
  | /-- GENKEY (R571): Service 0x09 generates a new AES key into a run-time handle. -/
    genkey (p : SvcPath)
  | /-- ERASE (R570): Service 0x0A erases a handle in all roles. -/
    erase (p : SvcPath)
  | /-- CANCEL (R570): Service 0x0B discards the pending key of a handle. -/
    cancel (p : SvcPath)
  | /-- CONFIRM (R540): Service 0x0C compares a confirmation tag and answers MATCH or NOMATCH. -/
    confirm (p : SvcPath)
  | /-- KDF (R571): Service 0x0D derives a key from a DERIVE parent into a run-time handle. -/
    kdf (p : SvcPath)
  | /-- SIGN (R577): Service 0x0E signs with ECDSA and releases the signature only after internal verification. -/
    sign (p : SvcPath)
  | /-- VERIFY (R575): Service 0x0F verifies a signature under a loaded public-key buffer. -/
    verify (p : SvcPath)
  | /-- AGREE (R573): Service 0x10 performs one-pass ECDH and derives a run-time key. -/
    agree (p : SvcPath)
  | /-- MKADERIVE (R574): Service 0x11 derives the ICK and KEK from a CAK. -/
    mkaderive (p : SvcPath)
  | /-- PKLOAD (R575): Service 0x12 loads bytes into a public-key buffer. -/
    pkload (p : SvcPath)
  | /-- HASH (R570): Service 0x13 returns a SHA-2 digest. -/
    hash (p : SvcPath)
  | /-- SELFTEST (R593): Service 0x14 runs a self-test of an engine unit or the DRBG. -/
    selftest (p : SvcPath)
  | /-- SERVICE_BADMSG (R569): A body at port 65 that is too short or of another MSGTYPE is counted and not answered. -/
    serviceBadmsg
  | /-- SP_JOB_COMPLETE (R569): An SP job ends and its response is emitted at port 65 or loaded into the host response buffer. -/
    spJobComplete (id : Nat)
  | /-- LME_ROW_END (R557): An LME row ends and the engine runs the first runnable context, preempting where needed. -/
    lmeRowEnd (issues : List LmeIssue)
  | /-- SHA_BLOCK_END (R564): A SHA-2 block ends and the engine runs the first runnable context. -/
    shaBlockEnd (e : Nat)
  | /-- DRBG_RESEED (R579): After 65,536 generate requests the DRBG reseeds. -/
    drbgReseed
  | /-- ENTROPY_TEST_FAIL (R580): An SP 800-90B health test fails, DRBG services are refused and the entropy source is raised. -/
    entropyTestFail
  | /-- TAHR_FRAME_RX (R604): A Tahr frame arrives, is checked, acknowledged or NAKed, and its message is delivered when whole. -/
    tahrFrameRx (toField : Bool) (bytes : List Byte) (delimOk : Bool)
  | /-- TAHR_RETRAIN (R609): A third transmission is not acknowledged, and both dies retrain the link. -/
    tahrRetrain
  | /-- LANE_RETIRE (R601): A lane shows code violations or no transition, is retired and the lanes swap at a frame boundary. -/
    laneRetire (field : Bool) (l : Nat)
  | /-- TRAINING_COMPLETE (R603): Link training deskews the lanes and exchanges a time-sync pair. -/
    trainingComplete
  | /-- TRAINING_RETRY (R603): Training fails and is repeated after 100 µs. -/
    trainingRetry
  | /-- NULL_FRAME_SEND (R170): A direction idle for 128 ns sends a null frame carrying the remote horizon. -/
    nullFrameSend (field : Bool)
  | /-- HEARTBEAT_SEND (R611): Every 100 µs a die sends a heartbeat with its state, grant and image digest. -/
    heartbeatSend (field : Bool)
  | /-- HEARTBEAT_RX (R630): A heartbeat arrives, keeping the link up or bringing it up and updating the reported field state. -/
    heartbeatRx (field : Bool)
  | /-- LINK_DOWN (R628): 1 ms passes without heartbeat: the field die enters ALONE and withdraws permission; the host marks the link down. -/
    linkDown (field : Bool)
  | /-- TIMESYNC_REQUEST (R620): Every 100 µs the host die starts a TIMESYNC exchange. -/
    timesyncRequest
  | /-- TIMESYNC_RX (R620): A TIMESYNC frame arrives: the field replies or the host computes and reports the offset. -/
    timesyncRx (toField : Bool) (arr : Nat)
  | /-- REMOTE_READ (R617): A REMOTE read request is executed on the field die and answered. -/
    remoteRead
  | /-- REMOTE_WRITE (R617): A REMOTE write request is checked on both dies and executed in one field tick. -/
    remoteWrite
  | /-- FIELD_START (R98): An IMAGE START message resets the field die into FBUILD, or is dropped in FRUN or FHOLD with the hold line de-asserted. -/
    fieldStart
  | /-- IMAGE_ENTRY (R124): An IMAGE ENTRY message delivers a section table entry to the field die. -/
    imageEntry
  | /-- IMAGE_DATA (R124): An IMAGE DATA message delivers section bytes, checked against the HASH. -/
    imageData
  | /-- IMAGE_COMMIT (R124): An IMAGE COMMIT message makes the field sections take effect. -/
    imageCommit
  | /-- IMAGE_ABORT (R631): An IMAGE ABORT message abandons a field section transfer. -/
    imageAbort
  | /-- IMAGE_RESULT (R76): The field die reports a section transfer result to the host die. -/
    imageResult
  | /-- FIELD_FRUN_ENTRY (R74): Field sections are verified and SYSCNT aligned, and the field die enters FRUN and starts the FS. -/
    fieldFrunEntry
  | /-- FIELD_FAULT_REPORT (R779): The host die handles a field FAULT message at its presentation tick. -/
    fieldFaultReport
  | /-- FAULT_REPORT_SEND (R778): The field collector commits a queued fault report for sending under MININT. -/
    faultReportSend
  | /-- FIELD_JOURNAL_REPORT (R245): A JOURNAL message reports a field write, journalled at its presentation tick. -/
    fieldJournalReport
  | /-- PERMIT_MESSAGE (R623): A PERMIT message sets the host permit state seen by the field die. -/
    permitMessage
  | /-- TAHR_PERMCTL_WRITE (R623): A write of TAHR.PERMCTL.GRANT changes the host permit state and sends it. -/
    tahrPermctlWrite (o : Origin) (v : Word)
  | /-- FCAN_FRAME_TO_FIELD (R613): Port 40 + n sends a frame to the FCAN inbox using one credit. -/
    fcanFrameToField (n : Nat)
  | /-- TAHR_CATALOGUE_SEND (R614): An opaque body at port 69 is checked and sent as an image-defined message type. -/
    tahrCatalogueSend
  | /-- FSUP_TXCTL_SEND (R615): A write of FSUP.TXCTL.SEND sends TBUF as an image-defined message type. -/
    fsupTxctlSend (v : Word)
  | /-- FSUP_RXPOP (R615): A read of FSUP.RXPOP moves the head of the receive FIFO into RBUF. -/
    fsupRxpop
  | /-- MEAS_RECORD_SEND (R662): The head of the record queue is committed for sending at least 1,000 ticks after the previous one. -/
    measRecordSend
  | /-- HOLD_LINE_ASSERT (R622): 400 ns after the last edge of the hold-line wave the field die treats the line as asserted. -/
    holdLineAssert
  | /-- HOLD_LINE_DEASSERT (R622): After 1 µs of unbroken wave the field die treats the hold line as de-asserted. -/
    holdLineDeassert
  | /-- PERMIT_GRANT_START (R624): At the first rising instant after all conditions hold, PERMIT_A and PERMIT_B start to toggle. -/
    permitGrantStart
  | /-- PERMIT_READBACK_MISMATCH (R625): A PERMIT pin reads back a wrong level, permission is withdrawn and the readback source is raised. -/
    permitReadbackMismatch
  | /-- FSUP_PERMIT_WRITE (R627): An FS write of FSUP.PERMIT.GRANT sets the FS permit decision. -/
    fsupPermitWrite (v : Word)
  | /-- WATCHDOG_REFRESH (R597): A write of FSUP.WDT refreshes the field watchdog, or counts as missed with a wrong value. -/
    watchdogRefresh (v : Word)
  | /-- WATCHDOG_EXPIRY (R597): The field watchdog expires, permission is withdrawn and the FS watchdog source is raised. -/
    watchdogExpiry
  | /-- FILTER_OUTPUT (R656): A channel's sinc filter completes an output of L samples, added to accumulator and tracker unless excluded. -/
    filterOutput (host : Bool) (ch : Nat) (samples : List Int) (pairSamples : List Int)
  | /-- WINDOW_CLOSE (R661): A channel's window of WIN outputs closes and its measurement record is formed. -/
    windowClose (host : Bool) (ch : Nat)
  | /-- MEAS_CHCTL_WRITE (R679): A write of CHCTL.EN starts a channel or discards its open window. -/
    measChctlWrite (o : Origin) (host : Bool) (ch : Nat) (v : Word)
  | /-- MEAS_CHWIN_WRITE (R679): A write of CHWIN takes effect at the channel's next window boundary. -/
    measChwinWrite (o : Origin) (host : Bool) (ch : Nat) (v : Word)
  | /-- MEAS_CALCTL_REQ (R667): A write of MEAS.CALCTL.REQ requests calibration of a field converter duty. -/
    measCalctlReq (o : Origin) (v : Word)
  | /-- MEAS_SPARE_CALIBRATED (R667): Calibration of the spare converter completes, or fails with ERR 2. -/
    measSpareCalibrated (ok : Bool)
  | /-- CONVERTER_SWAP (R667): At the next cycle start the calibrated spare connects to the duty. -/
    converterSwap
  | /-- MEAS_CALIBRATION_DONE (R667): The freed converter finishes calibration, becomes the spare and the request ends. -/
    measCalibrationDone (ok : Bool)
  | /-- HSNS_CALCTL_REQ (R670): A write of HSNS.CALCTL.REQ stops the host sense converter for calibration. -/
    hsnsCalctlReq (o : Origin)
  | /-- HSNS_CALIBRATION_END (R670): Host sense calibration ends and the converter resumes at the next cycle start. -/
    hsnsCalibrationEnd (ok : Bool)
  | /-- TOUCH_READING (R672): A touch channel takes a reading and updates its baseline, state and events. -/
    touchReading (t : Nat)
  | /-- TOUCH_STUCK (R672): A touch lasts HOLDS seconds, the channel enters STUCK and raises its source. -/
    touchStuck (t : Nat)
  | /-- TOUCH_WAKE_SCAN (R673): In STANDBY a 20 Hz scan of a touch channel may fire wake source 0x0F. -/
    touchWakeScan (t : Nat) (r : Int) (stamp : Nat)
  | /-- TDM_FRAME (R697): A TDM frame's last bit clock passes and its receive words take effect in the ring. -/
    tdmFrame (n : Nat) (slots : List Word)
  | /-- TDM_FS_EDGE (R691): A slave port's FS active edge is stamped and the frame judged valid or not. -/
    tdmFsEdge (n : Nat) (stamp : Nat) (clocks : Nat)
  | /-- TDM_TDMBST0_POP (R694): A read of AUD.TDMBST0 pops the head block stamp and loads TDMBST1 and TDMBST2. -/
    tdmTdmbst0Pop (o : Origin) (n : Nat)
  | /-- TDM_ENABLE_WRITE (R690): A write of TDMCTL.EN starts the port at its next lattice frame or stops it at frame end. -/
    tdmEnableWrite (o : Origin) (n : Nat) (v : Word)
  | /-- BPT_CSCOMMIT (R701): A write of BPTCTL.CSCOMMIT makes channel-status bits take effect at the next block start. -/
    bptCscommit (o : Origin) (x : Nat)
  | /-- BPT_UCOMMIT (R701): A write of BPTCTL.UCOMMIT makes user bits take effect at the next block start. -/
    bptUcommit (o : Origin) (x : Nat)
  | /-- BPR_BLOCK_END (R703): An IEC 60958 receiver completes a block and loads channel status, user bits and rate. -/
    bprBlockEnd (r : Nat)
  | /-- AAF_TALKER_PDU (R709): After SPP samples a talker emits an AAF PDU at the ingress of its port. -/
    aafTalkerPdu (e : Nat)
  | /-- AAF_LISTENER_TAKE (R711): A listener takes a queued PDU and queues its samples or drops it. -/
    aafListenerTake (e : Nat)
  | /-- AAF_UNDERRUN (R713): No sample frame is presented within two periods and the listener outputs 0. -/
    aafUnderrun (e : Nat)
  | /-- AUD_RGAIN_WRITE (R729): A write of AUD.RGAINr starts a 256-sample gain ramp. -/
    audRgainWrite (o : Origin) (r : Nat) (v : Word)
  | /-- BIQUAD_COMMIT (R735): A write of 1 to a section's COMMIT makes its five coefficients take effect together. -/
    biquadCommit (o : Origin) (key : Nat)
  | /-- SPKCTL_WRITE (R738): A write of SPKCTL.EN starts or ends the speaker bridge sequence. -/
    spkctlWrite (o : Origin) (v : Word)
  | /-- DACCTL_WRITE (R738): A write of DACCTLn.EN starts or ends the line DAC sequence. -/
    dacctlWrite (o : Origin) (n : Nat) (v : Word)
  | /-- OUTPUT_PRECHARGE_END (R738): Precharge ends, the output enters ON and its gain ramps up. -/
    outputPrechargeEnd (n : Nat)
  | /-- OUTPUT_RAMPDOWN_END (R738): The ramp-down ends and the output enters DISCHARGE. -/
    outputRampdownEnd (n : Nat)
  | /-- OUTPUT_DISCHARGE_END (R738): Discharge ends, the output enters OFF and the speaker leave is released. -/
    outputDischargeEnd (n : Nat)
  | /-- OUTPUT_FAULT (R738): A short, overcurrent, over-temperature or low VSPK stops switching and raises the node's source. -/
    outputFault (n : Nat) (vspk : Bool)
  | /-- LIMITER_BLOCK (R739): At the end of each 48-sample block the limiter updates its thermal model and gain. -/
    limiterBlock
  | /-- INPUT_SETTLE_END (R737): 6 ms after enabling, an ADC channel, bias or PDM interface delivers samples. -/
    inputSettleEnd (key : Nat)
  | /-- DETECT_SPEAKER (R741): A write of 1 to AUD.DETCTL.SPK with the bridge OFF measures the speaker load. -/
    detectSpeaker (o : Origin)
  | /-- DETECT_LINE_OUT (R741): A write of 1 to AUD.DETCTL.LOUTn with the DAC OFF measures that output. -/
    detectLineOut (o : Origin) (n : Nat)
  | /-- DETECT_COMPLETE (R741): A load measurement ends and its class is reported, raising the load source if abnormal. -/
    detectComplete (n : Nat) (cls : Nat) (r : Nat)
  | /-- BAND_WINDOW_CLOSE (R745): A band analyser window closes and its band-energy record is published. -/
    bandWindowClose (a : Nat)
  | /-- AUDIO_CALREQ (R746): A write of AUD.CALREQ requests offset calibration, served, deferred, forced or refused. -/
    audioCalreq (o : Origin) (v : Word)
  | /-- AUDIO_CAL_HOLD_END (R746): A forced request has ramped down and held 2,400 samples and is then served. -/
    audioCalHoldEnd
  | /-- AUDIO_CALIBRATION_DONE (R747): An audio offset calibration ends, leave is released and RES reads DONE. -/
    audioCalibrationDone
  | /-- FLT_INJECT (R780): A write of FLT.INJECT produces one event of a host source without its built-in action. -/
    fltInject (o : Origin) (v : Word)
  | /-- FFLT_INJECT (R780): A write of FFLT.INJECT produces one event of a field source. -/
    ffltInject (o : Origin) (v : Word)
  | /-- FLT_SEV_CLEAR (R767): A write of 1 to FLT.STATUS.SEV empties the host first-source latch. -/
    fltSevClear (o : Origin)
  | /-- FFLT_SEV_CLEAR (R767): A write of 1 to FFLT.STATUS.SEV empties the field first-source latch. -/
    ffltSevClear (o : Origin)
  | /-- ISLAND_CHECK_FAIL (R797): A transfer or state check of an island fails, and the island replays from its checkpoint or its duty moves. -/
    islandCheckFail (code : Nat) (again : Bool)
  | /-- SRAM_CORRECTED (R811): ECC corrects an SRAM word, writes it back and raises the corrected-error source. -/
    sramCorrected (field : Bool) (arr : Nat) (row : Nat)
  | /-- SRAM_ROW_REPLACE (R812): A second corrected error in a row within 1 s replaces the row by a spare at the next horizon. -/
    sramRowReplace (field : Bool)
  | /-- SRAM_UNCORRECTABLE (R813): An uncorrectable SRAM word is poisoned and raises the uncorrectable source. -/
    sramUncorrectable (field : Bool) (consumer : Option Nat)
  | /-- SHED_VISIT_START (R814): INTERVAL ms after the last visit, the shed cycle starts a visit to the next duty. -/
    shedVisitStart (field : Bool)
  | /-- SHED_SHADOW_END (R815): A shadow of SHADOWN × 64 horizons ends without mismatch. -/
    shedShadowEnd (field : Bool)
  | /-- SHED_HANDOVER (R815): At a handover point the spare takes the duty and the freed island enters TEST. -/
    shedHandover (field : Bool)
  | /-- SHED_SELFTEST_DONE (R815): The freed island's self-test ends and it shadows the duty, or is marked DEFECTIVE. -/
    shedSelftestDone (field : Bool) (pass : Bool)
  | /-- SHED_HANDBACK (R815): The tested island takes the duty back and the spare becomes RESERVE. -/
    shedHandback (field : Bool)
  | /-- SHED_HANDOVER_TIMEOUT (R817): No handover point falls within WAITMS and the visit is deferred. -/
    shedHandoverTimeout (field : Bool)
  | /-- SHEDREQ_GO (R819): A write of REP.SHEDREQ.GO places a visit to a named duty first. -/
    shedreqGo (o : Origin) (v : Word)
  | /-- RETCTL_GO (R821): A write of REP.RETCTL.GO asks for the return of an OUT island. -/
    retctlGo (o : Origin) (v : Word)
  | /-- RETURN_COMPLETE (R821): A returned island takes its duty or becomes RESERVE and RETSTAT reports the result. -/
    returnComplete (field : Bool)
  | /-- AGECLR (R810): A write of REP.AGECLR by UPDATE_MSG empties an ageing map entry. -/
    ageclr (o : Origin) (v : Word)
  | /-- BUDGET_GRANT (R845): A waiting request fits under LIMIT at commit and is granted, letting its operation start. -/
    budgetGrant (field : Bool)
  | /-- BUDGET_TIMEOUT (R845): A request passes its TIMEOUT and is refused with the outcome of Table PWR-6. -/
    budgetTimeout (field : Bool)
  | /-- TAP_EXTEST (R860): EXTEST in a session with BSCAN drives boundary scan, asserts the hold line and drives SAFE_OUT high. -/
    tapExtest (pins : List Byte)
  | /-- EXTEST_EXIT (R860): The instruction register leaves EXTEST and the host die resets as HOSTCMD. -/
    extestExit (ir : Nat)
  | /-- TAP_IDCODE (R859): The IDCODE instruction returns 0x1825_6567. -/
    tapIdcode
  | /-- TAP_SAMPLE_PRELOAD (R859): The SAMPLE/PRELOAD instruction captures and loads the boundary scan register. -/
    tapSamplePreload (captured : List Byte) (loaded : List Byte)
  | /-- TAP_DTMCS (R859): The DTMCS instruction accesses the RISC-V dtmcs register. -/
    tapDtmcs
  | /-- TAP_DMI (R859): The DMI instruction performs a Debug Module access, in a session only. -/
    tapDmi (addr : Nat) (op : Nat) (data : Nat)
  | /-- TAP_DBGCHAL (R863): The DBGCHAL instruction returns the current challenge, state and last result. -/
    tapDbgchal
  | /-- TAP_DBGTOKEN (R864): An Update-DR of DBGTOKEN starts a token check, or ends the session with all bits 0. -/
    tapDbgtoken (token : List Byte)
  | /-- TAP_BYPASS (R859): BYPASS or any unlisted code selects the 1-bit bypass register. -/
    tapBypass (code : Nat)
  | /-- TOKEN_CHECK_COMPLETE (R864): A token check ends, opening a session or failing with a result code. -/
    tokenCheckComplete
  | /-- TOKEN_BLOCK_END (R865): 100 ms after a failed check, new token checks are accepted again. -/
    tokenBlockEnd
  | /-- SESSION_EXPIRY (R866): LIFE seconds pass and the debug session ends. -/
    sessionExpiry
  | /-- DBG_CTL_END (R866): A write of 1 to DBG.CTL.END by DEBUG ends the session. -/
    dbgCtlEnd
  | /-- DM_HALT (R869): A Debug Module halt request halts the MP or FS where granted. -/
    dmHalt (fs : Bool)
  | /-- DM_RESUME (R868): A Debug Module resume request resumes a halted hart. -/
    dmResume (fs : Bool)
  | /-- DM_NDMRESET (R869): ndmreset restarts its hart at ENTRY with its SRAM as BUILD loaded it. -/
    dmNdmreset (fs : Bool)
  | /-- DM_SINGLE_STEP (R877): A single step retires one instruction and advances the unlock window count. -/
    dmSingleStep (fs : Bool)
  | /-- DM_ABSTRACT_COMMAND (R871): An abstract command or program buffer run executes loads and stores as debug accesses. -/
    dmAbstractCommand (fs : Bool) (ops : List (Nat × Option Nat))
  | /-- SBA_READ (R872): A System Bus Access read peeks a register without side effect. -/
    sbaRead (fs : Bool) (a : Nat)
  | /-- SBA_WRITE (R874): A System Bus Access write is checked and journalled as a write of origin DEBUG. -/
    sbaWrite (fs : Bool) (a : Nat) (v : Word)
  | /-- KEEPER_SUPPLY_VALID (R58): VKEEP rises above 1.8 V while VSUP_H is absent, and the device moves from No supply to KEEP. -/
    keeperSupplyValid
  | /-- KEEPER_OSCILLATOR_TICK (R70): While SYSCNT stands, each tick of the keeper oscillator advances the keeper counter by one. -/
    keeperOscillatorTick
  | /-- TAMPER_CONDITION_END (R513): The mesh disturbance ends or an armed enclosure input reads closed on two samples, KEY.STATUS.TAMPACT returns to 0 and the input is re-armed for detection. -/
    tamperConditionEnd (src : Nat)
  | /-- FIELD_RESET_END (R67): A field monitor condition clears, the field reset ends 100 µs later and the field die enters WAIT. -/
    fieldResetEnd
  | /-- LOCKSTEP_MISMATCH (R33): The two cores of the MP or the FS lockstep pair disagree, raising source 0x05B or 0x111. -/
    lockstepMismatch (field : Bool)
  | /-- PAIR_MISMATCH (R32): The two copies of a compared unit disagree, raising that unit's pair-mismatch source on its die. -/
    pairMismatch (u : Pair)
  | /-- CAN_RX_ERROR (R406): A controller detects an error while receiving another node's frame, signals it, updates REC and LEC and may change its error state. -/
    canRxError (n : Nat) (code : Nat) (dataPhase : Bool) (flagBit : Bool) (firstDominant : Bool) (more : Nat)
  | /-- BPT_FRAME (R700): An IEC 60958 transmitter reaches a lattice frame: it sends the ring words and, at each block start, a B preamble with a block stamp and any committed channel-status and user bits. -/
    bptFrame (x : Nat)
  | /-- BPR_FRAME_RX (R702): An IEC 60958 receiver takes a frame: it gains lock after two B preambles, writes the words or repeats words on parity error, and loses lock on a preamble or code error. -/
    bprFrameRx (r : Nat) (stamp : Nat) (pre : Bool) (bad : Bool) (subA : Nat) (subB : Nat)
  | /-- MIC_BIAS_SAMPLE (R742): Every 1 ms while MICBIASn is on, the bias current is sampled and a class held for three samples is reported, raising the microphone load source where abnormal. -/
    micBiasSample (n : Nat) (cls : Nat)
  | /-- FAULT_CAUSE_CLEARED (R738): The short, overcurrent, over-temperature or low VSPK that held a speaker or DAC in FAULT clears, so the node can return to OFF and PWR.SUPSTAT.VSPKOK can return to 1. -/
    faultCauseCleared (n : Nat) (vspk : Bool)
deriving DecidableEq, Repr

end Sys2Proof
end

