-- ==== Sys2Proof/Decode.lean ====
section
/-! DEFINITION. The command a word spells by the command table's bits. No row of the table gives bits, so none is spelled. -/

namespace Sys2Proof

/-- The command that an instruction word spells: every row of the command table has no bit fields, so no word spells a command. -/
def decodeTableWord (_nbits _w : Nat) : Option Instr := none

end Sys2Proof
end

