-- ==== Sys2Proof/Config.lean ====
section
/-! DEFINITION. What the model leaves open: free values, and the cryptographic primitives of standards the spec names and does not restate. Each is an uninterpreted constant: no proof can see a value of it. -/

namespace Sys2Proof.Config

/-- A free value of the model, by the count of free values taken before it (log entry 2). -/
opaque freeValue : Nat → Nat

/-- The bytes the DRBG delivers (R579): every DRBG value is an input of the trace, so it is free, by a draw number (log entry 2). -/
opaque drbgByte : Nat → Byte

/-- CMAC (NIST SP 800-38B) of a message under an AES key: 16 bytes (log entry 4). -/
opaque cmac : Bytes → Bytes → Bytes

/-- AES key wrap (RFC 3394, default IV) of a key under a key-encryption key (log entry 4). -/
opaque aesWrap : Bytes → Bytes → Bytes

/-- AES key unwrap (RFC 3394); none where the integrity check fails (log entry 4). -/
opaque aesUnwrap : Bytes → Bytes → Option Bytes

/-- GCM encryption (SP 800-38D): key, IV, AAD, plaintext; the ciphertext followed by the 16-byte tag (log entry 4). -/
opaque gcmSeal : Bytes → Bytes → Bytes → Bytes → Bytes

/-- GCM decryption: key, IV, AAD, ciphertext followed by the tag; none where the tag does not verify (log entry 4). -/
opaque gcmOpen : Bytes → Bytes → Bytes → Bytes → Option Bytes

/-- CTR-mode encryption: key, initial counter block, data (log entry 4). -/
opaque ctr : Bytes → Bytes → Bytes → Bytes

/-- SHA-256 of a byte string (log entry 4). -/
opaque sha256 : Bytes → Bytes

/-- SHA-384 of a byte string (log entry 4). -/
opaque sha384 : Bytes → Bytes

/-- SHA-512 of a byte string (log entry 4). -/
opaque sha512 : Bytes → Bytes

/-- ECDSA verification (FIPS 186-5): 0 P-256 or 1 P-384, public key x then y, digest, signature r then s (log entry 4). -/
opaque ecdsaVerify : Nat → Bytes → Bytes → Bytes → Bool

/-- ECDSA signing (FIPS 186-5): curve, private key, digest, and the per-message secret (log entry 4). -/
opaque ecdsaSign : Nat → Nat → Bytes → Bytes → Bytes

/-- The public key of a private key: curve, private key; x then y (log entry 4). -/
opaque ecPublic : Nat → Nat → Bytes

/-- One-pass ECDH (SP 800-56A): curve, private key, peer public key; the shared x-coordinate, or none where public key validation fails (log entry 4). -/
opaque ecdh : Nat → Nat → Bytes → Option Bytes

/-- RSA verification: scheme (1 PKCS1-v1_5, 2 PSS), hash, modulus, exponent, digest, signature (log entry 4). -/
opaque rsaVerify : Nat → Nat → Bytes → Nat → Bytes → Bytes → Bool

/-- The AES-CMAC key derivation function of IEEE 802.1X-2020: CAK, label, context; a key of the CAK's length (log entry 4). -/
opaque mkaKdf : Bytes → Bytes → Bytes → Bytes

end Sys2Proof.Config
end

