-- ==== Sys2Proof/Machine/RegMap.lean ====
section
/-! DEFINITION. The register map: every register of Table REG-2 with its address, arrays, journalled flag, bank and fields, from the register tables of spec/ (R939, R9, R11, R12, R18). -/

namespace Sys2Proof.Machine

open Sys2Proof

/-- The access codes of Table SCO-3 (R9). -/
inductive Acc
  | rw | ro | wo | w1c | w1s | rc | rp | lk
deriving DecidableEq, Repr

/-- Where a field's value after BUILD comes from (R112): its Reset column, a REG_INIT record, or another section. -/
inductive Src
  | fixed | img | sec
deriving DecidableEq, Repr

/-- One field of a register: its place, access code, level (R11), reset value, the source of that value, and the range its table states (R18; the whole encoding where it states none). -/
structure Field where
  name : String
  lo : Nat
  width : Nat
  acc : Acc
  expert : Bool
  rst : Nat
  src : Src
  signed : Bool
  min : Int
  max : Int
deriving DecidableEq, Repr

/-- One register, or an array of registers of one layout. `ports` marks the FAB and GTW arrays over fabric ports, whose reserved pages 12–15 and 71–79 hold none (R938). Each of `dims` is a count and a stride. -/
structure RegDef where
  name : String
  base : Nat
  ports : Bool
  dims : List (Nat × Nat)
  jrn : Bool
  bank : Bool
  fields : List Field
deriving DecidableEq, Repr

/-- A field with its table's range, or the whole encoding. -/
def fld (name : String) (lo width : Nat) (acc : Acc) (expert : Bool) (rst : Nat) (src : Src) (min max : Nat) : Field :=
  ⟨name, lo, width, acc, expert, rst, src, false, min, max⟩

/-- A field whose table states it signed. -/
def sfld (name : String) (lo width : Nat) (acc : Acc) (expert : Bool) (src : Src) (min max : Int) : Field :=
  ⟨name, lo, width, acc, expert, 0, src, true, min, max⟩

/-- Registers of the SYS chapters' blocks. -/
def regsSys : List RegDef := [
  ⟨"SYS.ID", 0x0, false, [], false, false,
    [fld "PART" 16 16 .ro false 0 .fixed 0 65535, fld "REVMAJ" 8 8 .ro false 0 .fixed 0 255, fld "REVMIN" 0 8 .ro false 0 .fixed 0 255]⟩,
  ⟨"SYS.INV", 0x4, false, [(3, 0x4)], false, false,
    [fld "INV" 0 32 .ro false 0 .fixed 0 4294967295]⟩,
  ⟨"SYS.STATE", 0x10, false, [], false, false,
    [fld "MODE" 0 4 .ro false 0 .fixed 0 15, fld "FMODE" 4 4 .ro false 0 .fixed 0 15, fld "HOLDLN" 8 1 .ro false 0 .fixed 0 1, fld "SAFE" 9 1 .ro false 0 .fixed 0 1, fld "PERMIT" 10 1 .ro false 0 .fixed 0 1, fld "KEEPOK" 11 1 .ro false 0 .fixed 0 1]⟩,
  ⟨"SYS.CTRL", 0x14, false, [], true, false,
    [fld "SLEEP" 0 1 .wo false 0 .fixed 0 1]⟩,
  ⟨"SYS.RSTCAUSE", 0x18, false, [], false, false,
    [fld "CAUSE" 0 9 .ro false 0 .fixed 0 511]⟩,
  ⟨"SYS.DEGCAUSE", 0x1c, false, [], true, false,
    [fld "REACT" 0 1 .w1c false 0 .fixed 0 1, fld "NOSPARE" 1 1 .ro false 0 .fixed 0 1]⟩,
  ⟨"SYS.STBYCFG", 0x20, false, [], false, false,
    [fld "DRAIN" 0 8 .lk true 0 .img 0 255, fld "PULSE" 8 8 .lk true 0 .img 1 255]⟩,
  ⟨"SYS.WAKEEN", 0x24, false, [], true, false,
    [fld "WAKEIN" 0 1 .rw false 0 .img 0 1, fld "CANL" 1 8 .rw false 0 .img 0 255, fld "TC10" 9 4 .rw false 0 .img 0 15, fld "LIN" 13 1 .rw false 0 .img 0 1, fld "TOUCH" 14 1 .rw false 0 .img 0 1]⟩,
  ⟨"SYS.WAKESRC", 0x28, false, [], false, false,
    [fld "PRIMARY" 0 5 .ro false 0 .fixed 0 31, fld "SECOND" 8 5 .ro false 0 .fixed 0 31, fld "SEEN" 16 16 .ro false 0 .fixed 0 65535]⟩,
  ⟨"SYS.WAKET", 0x2c, false, [(4, 0x4)], false, false,
    [fld "STAMP" 0 32 .ro false 0 .fixed 0 4294967295]⟩,
  ⟨"SYS.UNLOCK", 0x40, false, [], false, false,
    [fld "KEY" 0 32 .wo false 0 .fixed 0 4294967295]⟩,
  ⟨"SYS.WREFUSE", 0x44, false, [], false, true,
    [fld "ADDR" 2 22 .ro false 0 .fixed 0 4194303, fld "STATUS" 24 8 .ro false 0 .fixed 0 255]⟩,
  ⟨"SYS.HPCNT", 0x48, false, [], false, false,
    [fld "DISC" 0 16 .rc false 0 .fixed 0 65535, fld "REFUSED" 16 16 .rc false 0 .fixed 0 65535]⟩,
  ⟨"SYS.INTSTAT", 0x4c, false, [], false, false,
    [fld "RDY" 0 1 .rc false 0 .fixed 0 1, fld "DISC" 1 1 .rc false 0 .fixed 0 1, fld "MSG" 2 1 .ro false 0 .fixed 0 1, fld "FLTSEV" 3 1 .rc false 0 .fixed 0 1, fld "FLTMIN" 4 1 .rc false 0 .fixed 0 1, fld "MODE" 5 1 .rc false 0 .fixed 0 1, fld "JRN" 6 1 .rc false 0 .fixed 0 1, fld "KEY" 7 1 .rc false 0 .fixed 0 1, fld "LINK" 8 1 .rc false 0 .fixed 0 1]⟩,
  ⟨"SYS.INTEN", 0x50, false, [], true, false,
    [fld "EN" 0 9 .rw false 0 .img 0 511]⟩,
  ⟨"SYS.INTMAP", 0x54, false, [], true, false,
    [fld "PIN" 0 9 .rw false 0 .img 0 511]⟩,
  ⟨"SYS.FLCTL", 0x60, false, [], true, false,
    [fld "CMD" 0 3 .wo true 0 .fixed 0 7, fld "BUSY" 8 1 .ro false 0 .fixed 0 1, fld "ERR" 12 4 .ro false 0 .fixed 0 15]⟩,
  ⟨"SYS.FLADDR", 0x64, false, [], true, false,
    [fld "ADDR" 0 26 .rw false 0 .fixed 0 67108863]⟩,
  ⟨"SYS.FLINFO", 0x68, false, [], false, false,
    [fld "DENS" 0 8 .ro false 0 .fixed 0 255, fld "ER4K" 8 1 .ro false 0 .fixed 0 1, fld "ER64K" 9 1 .ro false 0 .fixed 0 1, fld "DTR" 10 1 .ro false 0 .fixed 0 1]⟩,
  ⟨"SYS.FLDATA", 0x100, false, [(64, 0x4)], false, false,
    [fld "D" 0 32 .rw false 0 .fixed 0 4294967295]⟩]

/-- Registers of the JRN chapters' blocks. -/
def regsJrn : List RegDef := [
  ⟨"JRN.STATUS", 0x10000, false, [], false, false,
    [fld "FILL" 0 12 .ro false 0 .fixed 0 4095, fld "RSV" 12 1 .ro false 0 .fixed 0 1, fld "NOAUTH" 13 1 .ro false 0 .fixed 0 1]⟩,
  ⟨"JRN.LASTSEQ", 0x10004, false, [], false, false,
    [fld "SEQ" 0 32 .ro false 0 .fixed 0 4294967295]⟩,
  ⟨"JRN.ACKSEQ", 0x10008, false, [], false, false,
    [fld "SEQ" 0 32 .ro false 0 .fixed 0 4294967295]⟩,
  ⟨"JRN.SENTSEQ", 0x1000c, false, [], false, false,
    [fld "SEQ" 0 32 .ro false 0 .fixed 0 4294967295]⟩,
  ⟨"JRN.DRAINCFG", 0x10010, false, [], true, false,
    [fld "BATCH" 0 5 .rw true 0 .img 1 31, fld "MAXAGE" 8 8 .rw true 0 .img 1 255, fld "THRESH" 16 12 .rw false 0 .img 1 2048]⟩,
  ⟨"JRN.CNT", 0x10014, false, [], false, false,
    [fld "REFUSED" 0 16 .rc false 0 .fixed 0 65535, fld "BADACK" 16 16 .rc false 0 .fixed 0 65535]⟩,
  ⟨"JRN.LOST", 0x10018, false, [], false, false,
    [fld "CNT" 0 32 .ro false 0 .fixed 0 4294967295]⟩,
  ⟨"JRN.RSTACK", 0x1001c, false, [], false, false,
    [fld "SEQ" 0 32 .ro false 0 .fixed 0 4294967295]⟩]

/-- Registers of the PWR chapters' blocks. -/
def regsPwr : List RegDef := [
  ⟨"PWR.STATUS", 0x20000, false, [], false, false,
    [fld "INUSE" 0 10 .ro false 0 .fixed 0 1023, fld "WAIT" 16 8 .ro false 0 .fixed 0 255]⟩,
  ⟨"PWR.LIMIT", 0x20004, false, [], true, false,
    [fld "LIMIT" 0 10 .rw true 0 .sec 0 1023]⟩,
  ⟨"PWR.KIND", 0x20010, false, [(7, 0x4)], false, false,
    [fld "COST" 0 10 .ro false 0 .fixed 0 1023, fld "PRIO" 12 3 .ro false 0 .fixed 0 7, fld "TIMEOUT" 16 16 .ro false 0 .fixed 0 65535]⟩,
  ⟨"PWR.HELD", 0x20030, false, [], false, false,
    [fld "CNT" 4 28 .ro false 0 .fixed 0 268435455]⟩,
  ⟨"PWR.CNT", 0x20034, false, [], false, false,
    [fld "GRANTS" 0 16 .rc false 0 .fixed 0 65535, fld "TIMEOUTS" 16 16 .rc false 0 .fixed 0 65535]⟩,
  ⟨"PWR.PEAK", 0x20038, false, [], false, false,
    [fld "PEAK" 0 10 .rc false 0 .fixed 0 1023]⟩,
  ⟨"PWR.WAITMAX", 0x2003c, false, [], false, false,
    [fld "US" 0 32 .rc false 0 .fixed 0 4294967295]⟩,
  ⟨"PWR.SUPSTAT", 0x20040, false, [], false, false,
    [fld "VSPKOK" 0 1 .ro false 0 .fixed 0 1, fld "VIO18" 1 1 .ro false 0 .fixed 0 1]⟩,
  ⟨"PWR.MONSTAT", 0x20044, false, [], false, false,
    [fld "TJ" 0 8 .ro false 0 .fixed 0 255, fld "VSUPH" 8 8 .ro false 0 .fixed 0 255, fld "VKEEPOK" 16 1 .ro false 0 .fixed 0 1, fld "REFOK" 17 1 .ro false 0 .fixed 0 1]⟩]

/-- Registers of the TIM chapters' blocks. -/
def regsTim : List RegDef := [
  ⟨"TIM.NOWL", 0x30000, false, [], false, false,
    [fld "CNT" 0 32 .ro false 0 .fixed 0 4294967295]⟩,
  ⟨"TIM.NOWH", 0x30004, false, [], false, false,
    [fld "CNT" 0 32 .ro false 0 .fixed 0 4294967295]⟩,
  ⟨"TIM.RATE", 0x30008, false, [], true, false,
    [sfld "RATE" 0 32 .rw true .fixed (-85899345) 85899345]⟩,
  ⟨"TIM.PTPOFSL", 0x3000c, false, [], true, false,
    [fld "OFS" 0 32 .rw true 0 .fixed 0 4294967295]⟩,
  ⟨"TIM.PTPOFSH", 0x30010, false, [], true, false,
    [fld "OFS" 0 32 .rw true 0 .fixed 0 4294967295]⟩,
  ⟨"TIM.STATUS", 0x30014, false, [], false, false,
    [fld "FALIGNOK" 0 1 .ro false 0 .fixed 0 1, fld "FALIGN" 8 8 .ro false 0 .fixed 0 255]⟩,
  ⟨"TIM.XDELAY", 0x30018, false, [], false, false,
    [fld "TICKS" 0 12 .lk true 0 .img 64 2048]⟩,
  ⟨"TIM.RHLAG", 0x3001c, false, [], false, false,
    [fld "CUR" 0 16 .ro false 0 .fixed 0 65535, fld "SHORT" 16 16 .rc false 0 .fixed 0 65535]⟩,
  ⟨"TIM.LATE", 0x30020, false, [], false, false,
    [fld "STAMP" 0 16 .rc false 0 .fixed 0 65535, fld "XING" 16 16 .rc false 0 .fixed 0 65535]⟩,
  ⟨"TIM.TRACECTL", 0x30024, false, [], true, false,
    [fld "EN" 0 1 .rw true 0 .fixed 0 1, fld "PORT" 8 8 .rw true 80 .fixed 80 255]⟩,
  ⟨"TIM.TRACEDROP", 0x30028, false, [], false, false,
    [fld "CNT" 0 32 .rc false 0 .fixed 0 4294967295]⟩,
  ⟨"TIM.PTPCTL", 0x3002c, false, [], true, false,
    [fld "VALID" 0 1 .rw true 0 .fixed 0 1]⟩]

/-- Registers of the IMG chapters' blocks. -/
def regsImg : List RegDef := [
  ⟨"IMG.STATUS", 0x40000, false, [], false, false,
    [fld "SLOT" 0 1 .ro false 0 .fixed 0 1, fld "NOIMG" 1 1 .ro false 0 .fixed 0 1, fld "FLOORPEND" 2 1 .ro false 0 .fixed 0 1, fld "KEYSEL" 3 1 .ro false 0 .fixed 0 1, fld "REVOKED0" 4 1 .ro false 0 .fixed 0 1, fld "REVOKED1" 5 1 .ro false 0 .fixed 0 1, fld "SVN" 8 8 .ro false 0 .fixed 0 255, fld "FLOOR" 16 8 .ro false 0 .fixed 0 255]⟩,
  ⟨"IMG.BOOTSTAT", 0x40004, false, [], false, false,
    [fld "CODEA" 0 8 .ro false 0 .fixed 0 255, fld "CODEB" 8 8 .ro false 0 .fixed 0 255, fld "FIRSTB" 16 1 .ro false 0 .fixed 0 1, fld "BUILDMS" 20 12 .ro false 0 .fixed 0 4095]⟩,
  ⟨"IMG.GEN", 0x40008, false, [], false, false,
    [fld "GEN" 0 32 .ro false 0 .fixed 0 4294967295]⟩,
  ⟨"IMG.SIZE", 0x4000c, false, [], false, false,
    [fld "IMGLEN" 0 32 .ro false 0 .fixed 0 4294967295]⟩,
  ⟨"IMG.DIGEST", 0x40010, false, [(12, 0x4)], false, false,
    [fld "D" 0 32 .ro false 0 .fixed 0 4294967295]⟩,
  ⟨"IMG.RELEASE", 0x40040, false, [], true, false,
    [fld "ADDR" 2 22 .wo true 0 .fixed 0 4194303]⟩,
  ⟨"IMG.HELDQ", 0x40044, false, [], false, false,
    [fld "ADDR" 2 22 .rw false 0 .fixed 0 4194303, fld "HELD" 24 1 .ro false 0 .fixed 0 1, fld "ORIGIN" 28 4 .ro false 0 .fixed 0 15]⟩,
  ⟨"IMG.RELEASEREC", 0x40048, false, [], true, false,
    [fld "INST" 0 7 .wo true 0 .fixed 0 127, fld "INDEX" 16 16 .wo true 0 .fixed 0 65535]⟩,
  ⟨"IMG.HELDQR", 0x4004c, false, [], false, false,
    [fld "INST" 0 7 .rw false 0 .fixed 0 127, fld "HELD" 8 1 .ro false 0 .fixed 0 1, fld "ORIGIN" 12 4 .ro false 0 .fixed 0 15, fld "INDEX" 16 16 .rw false 0 .fixed 0 65535]⟩]

/-- Registers of the FLT chapters' blocks. -/
def regsFlt : List RegDef := [
  ⟨"FLT.STATUS", 0x50000, false, [], true, false,
    [fld "SEV" 0 1 .w1c false 0 .fixed 0 1, fld "OVF" 1 1 .ro false 0 .fixed 0 1, fld "FATAL" 2 1 .ro false 0 .fixed 0 1]⟩,
  ⟨"FLT.FIRST", 0x50004, false, [], false, false,
    [fld "SRC" 0 16 .ro false 0 .fixed 0 65535, fld "CLASS" 16 2 .ro false 0 .fixed 0 3, fld "REACT" 20 3 .ro false 0 .fixed 0 7, fld "DETAIL" 24 8 .ro false 0 .fixed 0 255]⟩,
  ⟨"FLT.FIRSTTL", 0x50008, false, [], false, false,
    [fld "STAMP" 0 32 .ro false 0 .fixed 0 4294967295]⟩,
  ⟨"FLT.FIRSTTH", 0x5000c, false, [], false, false,
    [fld "STAMP" 0 32 .ro false 0 .fixed 0 4294967295]⟩,
  ⟨"FLT.MINSTK", 0x50010, false, [(6, 0x4)], false, false,
    [fld "STK" 0 32 .rc false 0 .fixed 0 4294967295]⟩,
  ⟨"FLT.QSEL", 0x50030, false, [], false, true,
    [fld "SRC" 0 9 .rw false 0 .fixed 0 511]⟩,
  ⟨"FLT.QINFO", 0x50034, false, [], false, true,
    [fld "RING" 0 5 .ro false 0 .fixed 0 31, fld "ENABLE" 8 1 .ro false 0 .fixed 0 1, fld "REACT" 9 3 .ro false 0 .fixed 0 7, fld "CLASS" 12 2 .ro false 0 .fixed 0 3, fld "IMPL" 15 1 .ro false 0 .fixed 0 1]⟩,
  ⟨"FLT.QCNT", 0x50038, false, [], false, true,
    [fld "EVENTS" 0 16 .ro false 0 .fixed 0 65535, fld "CLASSIFIED" 16 16 .ro false 0 .fixed 0 65535]⟩,
  ⟨"FLT.INJECT", 0x50040, false, [], true, false,
    [fld "SRC" 0 9 .wo true 0 .fixed 0 511, fld "DETAIL" 8 8 .wo true 0 .fixed 0 255]⟩,
  ⟨"FLT.NSEQ", 0x50044, false, [], false, false,
    [fld "NEXT" 0 32 .ro false 0 .fixed 0 4294967295]⟩,
  ⟨"FFLT.STATUS", 0x810000, false, [], true, false,
    [fld "SEV" 0 1 .w1c false 0 .fixed 0 1, fld "OVF" 1 1 .ro false 0 .fixed 0 1, fld "FATAL" 2 1 .ro false 0 .fixed 0 1]⟩,
  ⟨"FFLT.FIRST", 0x810004, false, [], false, false,
    [fld "SRC" 0 16 .ro false 0 .fixed 0 65535, fld "CLASS" 16 2 .ro false 0 .fixed 0 3, fld "REACT" 20 3 .ro false 0 .fixed 0 7, fld "DETAIL" 24 8 .ro false 0 .fixed 0 255]⟩,
  ⟨"FFLT.FIRSTTL", 0x810008, false, [], false, false,
    [fld "STAMP" 0 32 .ro false 0 .fixed 0 4294967295]⟩,
  ⟨"FFLT.FIRSTTH", 0x81000c, false, [], false, false,
    [fld "STAMP" 0 32 .ro false 0 .fixed 0 4294967295]⟩,
  ⟨"FFLT.MINSTK", 0x810010, false, [(2, 0x4)], false, false,
    [fld "STK" 0 32 .rc false 0 .fixed 0 4294967295]⟩,
  ⟨"FFLT.QSEL", 0x810030, false, [], false, true,
    [fld "SRC" 0 9 .rw false 0 .fixed 0 511]⟩,
  ⟨"FFLT.QINFO", 0x810034, false, [], false, true,
    [fld "RING" 0 5 .ro false 0 .fixed 0 31, fld "ENABLE" 8 1 .ro false 0 .fixed 0 1, fld "REACT" 9 3 .ro false 0 .fixed 0 7, fld "CLASS" 12 2 .ro false 0 .fixed 0 3, fld "IMPL" 15 1 .ro false 0 .fixed 0 1]⟩,
  ⟨"FFLT.QCNT", 0x810038, false, [], false, true,
    [fld "EVENTS" 0 16 .ro false 0 .fixed 0 65535, fld "CLASSIFIED" 16 16 .ro false 0 .fixed 0 65535]⟩,
  ⟨"FFLT.INJECT", 0x810040, false, [], true, false,
    [fld "SRC" 0 9 .wo true 0 .fixed 0 511, fld "DETAIL" 8 8 .wo true 0 .fixed 0 255]⟩,
  ⟨"FFLT.RPT", 0x810048, false, [], false, false,
    [fld "LEVEL" 0 5 .ro false 0 .fixed 0 31, fld "DROP" 16 16 .rc false 0 .fixed 0 65535]⟩]

/-- Registers of the REP chapters' blocks. -/
def regsRep : List RegDef := [
  ⟨"REP.STATUS", 0x60000, false, [], false, false,
    [fld "DUTYOUT" 0 1 .ro false 0 .fixed 0 1, fld "SHEDBUSY" 1 1 .ro false 0 .fixed 0 1, fld "SHKIND" 8 8 .ro false 0 .fixed 0 255, fld "SHDUTY" 16 8 .ro false 0 .fixed 0 255, fld "SHSTEP" 24 3 .ro false 0 .fixed 0 7, fld "AGEUSED" 28 4 .ro false 0 .fixed 0 15]⟩,
  ⟨"REP.SHEDCFG", 0x60004, false, [], true, false,
    [fld "EN" 0 1 .rw true 0 .img 0 1, fld "INTERVAL" 4 12 .lk true 0 .img 1 4095, fld "WAITMS" 16 8 .lk true 0 .img 1 255, fld "SHADOWN" 24 8 .lk true 0 .img 1 255]⟩,
  ⟨"REP.SHEDREQ", 0x60008, false, [], true, false,
    [fld "KIND" 0 8 .rw true 0 .fixed 0 255, fld "DUTY" 8 8 .rw true 0 .fixed 0 255, fld "GO" 16 1 .wo true 0 .fixed 0 1]⟩,
  ⟨"REP.RETCTL", 0x6000c, false, [], true, false,
    [fld "KIND" 0 8 .rw true 0 .fixed 0 255, fld "INDEX" 8 8 .rw true 0 .fixed 0 255, fld "GO" 16 1 .wo true 0 .fixed 0 1]⟩,
  ⟨"REP.RETSTAT", 0x60010, false, [], false, false,
    [fld "RES" 0 3 .ro false 0 .fixed 0 7, fld "BUSY" 8 1 .ro false 0 .fixed 0 1]⟩,
  ⟨"REP.ISEL", 0x60014, false, [], false, true,
    [fld "CODE" 0 16 .rw false 0 .fixed 0 65535]⟩,
  ⟨"REP.IINFO", 0x60018, false, [], false, true,
    [fld "ROLE" 0 3 .ro false 0 .fixed 0 7, fld "DUTY" 8 8 .ro false 0 .fixed 0 255, fld "CAUSE" 16 8 .ro false 0 .fixed 0 255]⟩,
  ⟨"REP.CNT", 0x6001c, false, [], false, false,
    [fld "REPLAY" 0 16 .rc false 0 .fixed 0 65535, fld "SWAPS" 16 16 .rc false 0 .fixed 0 65535]⟩,
  ⟨"REP.CNT2", 0x60020, false, [], false, false,
    [fld "RESENT" 0 16 .rc false 0 .fixed 0 65535, fld "DEFER" 16 8 .rc false 0 .fixed 0 255, fld "AGEOVF" 24 8 .rc false 0 .fixed 0 255]⟩,
  ⟨"REP.INDROP", 0x60024, false, [], false, false,
    [fld "CNT" 0 32 .rc false 0 .fixed 0 4294967295]⟩,
  ⟨"REP.DSEL", 0x60030, false, [], false, true,
    [fld "INDEX" 0 8 .rw false 0 .fixed 0 191]⟩,
  ⟨"REP.DDATA", 0x60034, false, [(4, 0x4)], false, true,
    [fld "D" 0 32 .ro false 0 .fixed 0 4294967295]⟩,
  ⟨"REP.AGECLR", 0x60044, false, [], true, false,
    [fld "INDEX" 0 6 .wo true 0 .fixed 0 63]⟩,
  ⟨"REP.KSTAT", 0x60100, false, [(50, 0x4)], false, false,
    [fld "DUTIES" 0 8 .ro false 0 .fixed 0 255, fld "SPARES" 8 8 .ro false 0 .fixed 0 255, fld "OUT" 16 8 .ro false 0 .fixed 0 255, fld "DEFECT" 24 8 .ro false 0 .fixed 0 255]⟩]

/-- Registers of the KEY chapters' blocks. -/
def regsKey : List RegDef := [
  ⟨"KEY.STATUS", 0x70000, false, [], false, false,
    [fld "ROOT" 0 2 .ro false 0 .fixed 0 3, fld "EPOCH" 2 6 .ro false 0 .fixed 0 63, fld "VAULT" 8 5 .ro false 0 .fixed 0 31, fld "SLOTS" 16 7 .ro false 0 .fixed 0 127, fld "TAMPACT" 24 1 .ro false 0 .fixed 0 1]⟩,
  ⟨"KEY.UPDCNT", 0x70004, false, [], false, false,
    [fld "CNT" 0 32 .ro false 0 .fixed 0 4294967295]⟩,
  ⟨"KEY.TAMPARM", 0x70008, false, [], true, false,
    [fld "ENCA" 0 1 .rw true 0 .fixed 0 1, fld "ENCB" 1 1 .rw true 0 .fixed 0 1]⟩,
  ⟨"KEY.TAMPLOG", 0x7000c, false, [], false, false,
    [fld "SRC" 0 3 .ro false 0 .fixed 0 7, fld "COUNT" 8 8 .ro false 0 .fixed 0 255]⟩,
  ⟨"KEY.TAMPT", 0x70010, false, [(2, 0x4)], false, false,
    [fld "STAMP" 0 32 .ro false 0 .fixed 0 4294967295]⟩,
  ⟨"KEY.LOSTCFG", 0x70018, false, [], false, false,
    [fld "GWPASS" 0 1 .lk true 0 .img 0 1]⟩,
  ⟨"KEY.UPDSTAT", 0x7001c, false, [], false, false,
    [fld "STATUS" 0 8 .ro false 0 .fixed 0 255, fld "FAILIX" 8 8 .ro false 0 .fixed 0 255, fld "REJ" 16 4 .ro false 0 .fixed 0 15]⟩,
  ⟨"KEY.UPDCNTS", 0x70020, false, [], false, false,
    [fld "ACCEPTED" 0 16 .rc false 0 .fixed 0 65535, fld "REJECTED" 16 16 .rc false 0 .fixed 0 65535]⟩,
  ⟨"KEY.LOSTCNT", 0x70024, false, [], false, false,
    [fld "CNT" 0 32 .rc false 0 .fixed 0 4294967295]⟩,
  ⟨"KEY.HQ", 0x70028, false, [], false, true,
    [fld "HANDLE" 0 16 .rw false 0 .fixed 0 65535]⟩,
  ⟨"KEY.HINFO", 0x7002c, false, [], false, true,
    [fld "STATE" 0 3 .ro false 0 .fixed 0 7, fld "KIND" 3 2 .ro false 0 .fixed 0 3, fld "SLOT" 5 6 .ro false 0 .fixed 0 63, fld "RES" 11 1 .ro false 0 .fixed 0 1, fld "USAGE" 16 16 .ro false 0 .fixed 0 65535]⟩,
  ⟨"KEY.HGEN", 0x70030, false, [], false, true,
    [fld "GEN" 0 32 .ro false 0 .fixed 0 4294967295]⟩,
  ⟨"KEY.UID", 0x70040, false, [(4, 0x4)], false, false,
    [fld "UID" 0 32 .ro false 0 .fixed 0 4294967295]⟩,
  ⟨"LME.STATUS", 0x80000, false, [], false, false,
    [fld "CTXBUSY" 0 4 .ro false 0 .fixed 0 15, fld "RUN" 4 2 .ro false 0 .fixed 0 3, fld "RUNPRIO" 8 3 .ro false 0 .fixed 0 7, fld "QLEN" 16 8 .ro false 0 .fixed 0 255]⟩,
  ⟨"LME.CNT", 0x80004, false, [], false, false,
    [fld "JOBS" 0 12 .rc false 0 .fixed 0 4095, fld "PREEMPT" 12 12 .rc false 0 .fixed 0 4095, fld "RERUN" 24 8 .rc false 0 .fixed 0 255]⟩,
  ⟨"LME.WAITMAX", 0x80008, false, [], false, false,
    [fld "US" 0 32 .rc false 0 .fixed 0 4294967295]⟩,
  ⟨"SYM.AESSTAT", 0x90000, false, [], false, false,
    [fld "SPLANES" 0 14 .ro false 0 .fixed 0 16383, fld "QLEN" 16 8 .ro false 0 .fixed 0 255]⟩,
  ⟨"SYM.SHASTAT", 0x90004, false, [], false, false,
    [fld "CTX" 0 16 .ro false 0 .fixed 0 65535, fld "QLEN" 16 8 .ro false 0 .fixed 0 255]⟩,
  ⟨"SYM.SVCH0", 0x90008, false, [], false, false,
    [fld "MASK" 0 32 .lk true 0 .img 0 4294967295]⟩,
  ⟨"SYM.PRIOLIM", 0x90010, false, [], false, false,
    [fld "HOST" 0 3 .lk true 0 .img 0 7, fld "FAB" 4 3 .lk true 0 .img 0 7]⟩,
  ⟨"SYM.SVCCNT", 0x90014, false, [], false, false,
    [fld "DONE" 0 16 .rc false 0 .fixed 0 65535, fld "BADMSG" 16 16 .rc false 0 .fixed 0 65535]⟩,
  ⟨"SYM.DRBG", 0x90018, false, [], false, false,
    [fld "HEALTH" 0 1 .ro false 0 .fixed 0 1, fld "RESEEDS" 16 16 .rc false 0 .fixed 0 65535]⟩,
  ⟨"SYM.SELFCHK", 0x9001c, false, [], false, false,
    [fld "FAILS" 0 16 .rc false 0 .fixed 0 65535]⟩]

/-- Registers of the FAB chapters' blocks (part 0). -/
def regsFab0 : List RegDef := [
  ⟨"FAB.PCFG", 0x100000, true, [(256, 0x1000)], true, false,
    [fld "CTEN" 0 1 .rw false 0 .img 0 1, fld "EXPRESS" 8 1 .ro false 0 .fixed 0 1, fld "PRESENT" 9 1 .ro false 0 .fixed 0 1]⟩,
  ⟨"FAB.PNEED", 0x100004, true, [(256, 0x1000)], false, false,
    [fld "NEEDB" 0 8 .lk true 0 .img 0 255]⟩,
  ⟨"FAB.REACH", 0x100010, true, [(256, 0x1000), (8, 0x4)], false, false,
    [fld "MASK" 0 32 .lk true 0 .img 0 4294967295]⟩,
  ⟨"FAB.PCNT", 0x100040, true, [(256, 0x1000)], false, false,
    [fld "REACH" 0 16 .rc false 0 .fixed 0 65535, fld "PLANE" 16 16 .rc false 0 .fixed 0 65535]⟩,
  ⟨"FAB.PCNT2", 0x100044, true, [(256, 0x1000)], false, false,
    [fld "LONG" 0 16 .rc false 0 .fixed 0 65535, fld "STOMP" 16 16 .rc false 0 .fixed 0 65535]⟩,
  ⟨"FAB.PSTAT", 0x100080, true, [(256, 0x1000)], false, false,
    [fld "INSERV" 0 1 .ro false 0 .fixed 0 1, fld "BLOCKED" 1 1 .ro false 0 .fixed 0 1, fld "CONG" 2 1 .ro false 0 .fixed 0 1, fld "HELDFR" 16 16 .ro false 0 .fixed 0 65535]⟩,
  ⟨"FAB.PMODEL", 0x100084, true, [(256, 0x1000)], false, false,
    [fld "RATE" 0 24 .lk true 0 .img 0 16777215, fld "OVH" 24 8 .lk true 0 .img 0 255]⟩,
  ⟨"FAB.PHOLD", 0x100088, true, [(256, 0x1000)], false, false,
    [fld "HOLDMS" 0 16 .lk true 0 .sec 0 65535]⟩,
  ⟨"FAB.PCONG", 0x10008c, true, [(256, 0x1000)], true, false,
    [fld "TH" 0 17 .rw false 0 .img 1 98304]⟩,
  ⟨"FAB.PDIV", 0x100090, true, [(256, 0x1000)], false, false,
    [fld "MAX" 0 16 .lk true 0 .img 0 65535]⟩,
  ⟨"FAB.PSTALE", 0x100094, true, [(256, 0x1000)], false, false,
    [fld "CNT" 0 32 .rc false 0 .fixed 0 4294967295]⟩,
  ⟨"FAB.GBASEL", 0x100098, true, [(256, 0x1000)], true, false,
    [fld "BASE" 0 32 .rw true 0 .img 0 4294967295]⟩,
  ⟨"FAB.GBASEH", 0x10009c, true, [(256, 0x1000)], true, false,
    [fld "BASE" 0 32 .rw true 0 .img 0 4294967295]⟩,
  ⟨"FAB.GSTAT", 0x1000a0, true, [(256, 0x1000)], false, false,
    [fld "GATES" 0 8 .ro false 0 .fixed 0 255, fld "REC" 8 16 .ro false 0 .fixed 0 65535]⟩,
  ⟨"FAB.QOCC", 0x100100, true, [(256, 0x1000), (16, 0x10)], false, false,
    [fld "OCC" 0 17 .ro false 0 .fixed 0 131071]⟩,
  ⟨"FAB.QADM", 0x100104, true, [(256, 0x1000), (16, 0x10)], false, false,
    [fld "CNT" 0 32 .rc false 0 .fixed 0 4294967295]⟩,
  ⟨"FAB.QDROP", 0x100108, true, [(256, 0x1000), (16, 0x10)], false, false,
    [fld "CONG" 0 16 .rc false 0 .fixed 0 65535, fld "NOSVC" 16 16 .rc false 0 .fixed 0 65535]⟩,
  ⟨"FAB.QPURGE", 0x10010c, true, [(256, 0x1000), (16, 0x10)], false, false,
    [fld "HOLD" 0 32 .rc false 0 .fixed 0 4294967295]⟩,
  ⟨"FAB.QLIM", 0x100200, true, [(256, 0x1000), (16, 0x4)], true, false,
    [fld "MAXC" 0 17 .rw true 0 .sec 0 98304]⟩,
  ⟨"FAB.QWGT", 0x100240, true, [(256, 0x1000), (16, 0x4)], true, false,
    [fld "WEIGHT" 0 16 .rw false 0 .sec 1 65535]⟩,
  ⟨"FAB.PLANECTL", 0x10c000, false, [], true, false,
    [fld "OFULL" 0 1 .rw true 0 .img 0 1, fld "XFULL" 1 1 .rw true 0 .img 0 1, fld "OAT" 8 1 .ro false 0 .fixed 0 1, fld "XAT" 9 1 .ro false 0 .fixed 0 1]⟩,
  ⟨"FAB.XCFG", 0x10c004, false, [], false, false,
    [fld "ROUNDS" 0 3 .lk true 0 .img 1 4]⟩,
  ⟨"FAB.MIDOUT", 0x10c008, false, [], false, false,
    [fld "OUT" 0 16 .ro false 0 .fixed 0 65535]⟩,
  ⟨"FAB.BUFSTAT", 0x10c010, false, [], false, false,
    [fld "SHUSE" 0 17 .ro false 0 .fixed 0 131071]⟩]

/-- Registers of the FAB chapters' blocks (part 1). -/
def regsFab1 : List RegDef := [
  ⟨"FAB.BUFPEAK", 0x10c014, false, [], false, false,
    [fld "PEAK" 0 17 .rc false 0 .fixed 0 131071]⟩,
  ⟨"FAB.CONGMAP", 0x10c020, false, [(8, 0x4)], false, false,
    [fld "MAP" 0 32 .ro false 0 .fixed 0 4294967295]⟩]

/-- Registers of the GTW chapters' blocks. -/
def regsGtw : List RegDef := [
  ⟨"GTW.PCFG", 0x200000, true, [(256, 0x100)], true, false,
    [fld "DEFACT" 0 16 .rw true 0 .img 0 65535, fld "PVID" 16 12 .rw false 0 .img 0 4095, fld "PPCP" 28 3 .rw false 0 .img 0 7]⟩,
  ⟨"GTW.PCFG2", 0x200004, true, [(256, 0x100)], false, false,
    [fld "EXTOFF" 0 7 .lk true 0 .img 0 127, fld "BUSID" 8 5 .lk true 0 .img 0 31]⟩,
  ⟨"GTW.VCFG", 0x200008, true, [(256, 0x100)], false, false,
    [fld "ROLE" 0 3 .lk true 0 .img 0 7]⟩,
  ⟨"GTW.PDROP", 0x200010, true, [(256, 0x100), (6, 0x4)], false, false,
    [fld "LO" 0 16 .rc false 0 .fixed 0 65535, fld "HI" 16 16 .rc false 0 .fixed 0 65535]⟩,
  ⟨"GTW.LTSEL", 0x210000, false, [], false, true,
    [fld "INST" 0 7 .rw false 0 .fixed 0 127, fld "INDEX" 16 16 .rw false 0 .fixed 0 65535]⟩,
  ⟨"GTW.LTCTL", 0x210004, false, [], false, true,
    [fld "OP" 0 3 .wo false 0 .fixed 0 7, fld "STAGED" 8 7 .ro false 0 .fixed 0 127, fld "PRESENT" 16 1 .ro false 0 .fixed 0 1]⟩,
  ⟨"GTW.LTDATA", 0x210010, false, [(16, 0x4)], false, true,
    [fld "D" 0 32 .rw false 0 .fixed 0 4294967295]⟩,
  ⟨"GTW.GCNT", 0x210080, false, [], false, false,
    [fld "SIGSHORT" 0 16 .rc false 0 .fixed 0 65535, fld "ACFSKIP" 16 16 .rc false 0 .fixed 0 65535]⟩,
  ⟨"GTW.AHIT", 0x220000, false, [(4096, 0x4)], false, false,
    [fld "CNT" 0 32 .rc false 0 .fixed 0 4294967295]⟩,
  ⟨"GTW.BCNT", 0x224000, false, [(2048, 0x4)], false, false,
    [fld "CNT" 0 32 .rc false 0 .fixed 0 4294967295]⟩,
  ⟨"GTW.TCNT", 0x228000, false, [(64, 0x4)], false, false,
    [fld "GAP" 0 16 .rc false 0 .fixed 0 65535, fld "PDU" 16 16 .rc false 0 .fixed 0 65535]⟩]

/-- Registers of the CAN chapters' blocks (part 0). -/
def regsCan0 : List RegDef := [
  ⟨"CAN.CTL", 0x400000, false, [(32, 0x1000)], true, false,
    [fld "INIT" 0 1 .rw false 0 .img 0 1, fld "RECOVER" 1 1 .wo false 0 .fixed 0 1]⟩,
  ⟨"CAN.CFG", 0x400004, false, [(32, 0x1000)], true, false,
    [fld "FDOE" 0 1 .rw true 0 .img 0 1, fld "PEX" 1 1 .rw true 0 .img 0 1, fld "MON" 2 2 .rw true 0 .img 0 1, fld "BOREC" 4 1 .rw true 0 .img 0 1, fld "STALLMS" 8 8 .rw true 0 .img 1 255]⟩,
  ⟨"CAN.NBT", 0x400008, false, [(32, 0x1000)], true, false,
    [fld "BRP" 0 6 .rw true 0 .img 1 32, fld "TSEG1" 6 9 .rw true 0 .img 2 256, fld "TSEG2" 15 8 .rw true 0 .img 2 128, fld "SJW" 23 8 .rw true 0 .img 1 128]⟩,
  ⟨"CAN.DBT", 0x40000c, false, [(32, 0x1000)], true, false,
    [fld "BRP" 0 6 .rw true 0 .img 1 32, fld "TSEG1" 6 6 .rw true 0 .img 2 32, fld "TSEG2" 12 5 .rw true 0 .img 1 16, fld "SJW" 17 5 .rw true 0 .img 1 16]⟩,
  ⟨"CAN.TDC", 0x400010, false, [(32, 0x1000)], true, false,
    [fld "TDCO" 0 7 .rw true 0 .img 0 127, fld "TDCF" 8 7 .rw true 0 .img 0 127, fld "TDCEN" 16 1 .rw true 0 .img 0 1]⟩,
  ⟨"CAN.STAT", 0x400014, false, [(32, 0x1000)], false, false,
    [fld "STATE" 0 3 .ro false 0 .fixed 0 7, fld "BLOCKED" 3 1 .ro false 0 .fixed 0 1, fld "STALL" 4 1 .ro false 0 .fixed 0 1, fld "LEC" 8 3 .ro false 0 .fixed 0 7, fld "DLEC" 12 3 .ro false 0 .fixed 0 7, fld "TDCV" 16 7 .ro false 0 .fixed 0 127, fld "STALE" 31 1 .ro false 0 .fixed 0 1]⟩,
  ⟨"CAN.ECNT", 0x400018, false, [(32, 0x1000)], false, false,
    [fld "TEC" 0 9 .ro false 0 .fixed 0 511, fld "REC" 16 8 .ro false 0 .fixed 0 255]⟩,
  ⟨"CAN.TXSTAT", 0x40001c, false, [(32, 0x1000)], false, false,
    [fld "OCC" 0 8 .ro false 0 .fixed 0 255, fld "ACT" 8 8 .ro false 0 .fixed 0 255]⟩,
  ⟨"CAN.TXABORT", 0x400020, false, [(32, 0x1000)], true, false,
    [fld "SLOTS" 0 8 .wo false 0 .fixed 0 255]⟩,
  ⟨"CAN.TXCNT", 0x400024, false, [(32, 0x1000)], false, false,
    [fld "OK" 0 16 .rc false 0 .fixed 0 65535, fld "ABORT" 16 16 .rc false 0 .fixed 0 65535]⟩,
  ⟨"CAN.TXCNT2", 0x400028, false, [(32, 0x1000)], false, false,
    [fld "FMT" 0 16 .rc false 0 .fixed 0 65535, fld "DISC" 16 16 .rc false 0 .fixed 0 65535]⟩,
  ⟨"CAN.ERRCNT", 0x40002c, false, [(32, 0x1000)], false, false,
    [fld "ERR" 0 16 .rc false 0 .fixed 0 65535, fld "ALOST" 16 16 .rc false 0 .fixed 0 65535]⟩,
  ⟨"CAN.RXCNT", 0x400030, false, [(32, 0x1000)], false, false,
    [fld "OK" 0 16 .rc false 0 .fixed 0 65535, fld "OVR" 16 16 .rc false 0 .fixed 0 65535]⟩,
  ⟨"CAN.BOCNT", 0x400034, false, [(32, 0x1000)], false, false,
    [fld "BUSOFF" 0 16 .rc false 0 .fixed 0 65535, fld "TKO" 16 16 .rc false 0 .fixed 0 65535]⟩,
  ⟨"CAN.TXID", 0x400040, false, [(32, 0x1000), (8, 0x4)], false, false,
    [fld "IDW" 0 32 .ro false 0 .fixed 0 4294967295]⟩,
  ⟨"CAN.TXTRY", 0x400060, false, [(32, 0x1000), (8, 0x4)], false, false,
    [fld "CNT" 0 16 .ro false 0 .fixed 0 65535]⟩,
  ⟨"CAN.WLCFG", 0x400800, false, [(8, 0x1000)], true, false,
    [fld "CTRL" 0 5 .rw true 0 .img 0 23, fld "RATE" 8 2 .rw true 0 .img 0 3, fld "IDE" 12 1 .rw false 0 .img 0 1, fld "DLC" 16 4 .rw false 0 .img 0 8]⟩,
  ⟨"CAN.WLID", 0x400804, false, [(8, 0x1000)], true, false,
    [fld "ID" 0 29 .rw false 0 .img 0 536870911]⟩,
  ⟨"CAN.WLIDM", 0x400808, false, [(8, 0x1000)], true, false,
    [fld "MASK" 0 29 .rw false 0 .img 0 536870911]⟩,
  ⟨"CAN.WLDM", 0x40080c, false, [(8, 0x1000), (2, 0x4)], true, false,
    [fld "MASK" 0 32 .rw false 0 .img 0 4294967295]⟩,
  ⟨"CAN.WLSTAT", 0x400814, false, [(8, 0x1000)], false, false,
    [fld "FEC" 0 6 .ro false 0 .fixed 0 63, fld "FECOVF" 8 1 .ro false 0 .fixed 0 1]⟩,
  ⟨"LIN.CTL", 0x420000, false, [(8, 0x100)], true, false,
    [fld "SCHED" 0 4 .rw false 0 .img 0 15, fld "SLEEP" 8 1 .wo false 0 .fixed 0 1, fld "WAKE" 9 1 .wo false 0 .fixed 0 1]⟩,
  ⟨"LIN.CFG", 0x420004, false, [(8, 0x100)], true, false,
    [fld "ROLE" 0 1 .rw true 0 .img 0 1, fld "BAUD" 16 15 .rw true 0 .img 1000 20000, fld "WAKEDLY" 8 8 .rw true 0 .img 0 255]⟩,
  ⟨"LIN.STAT", 0x420008, false, [(8, 0x100)], false, false,
    [fld "STATE" 0 2 .ro false 0 .fixed 0 3, fld "CURTAB" 4 4 .ro false 0 .fixed 0 15, fld "CURREC" 16 10 .ro false 0 .fixed 0 1023]⟩]

/-- Registers of the CAN chapters' blocks (part 1). -/
def regsCan1 : List RegDef := [
  ⟨"LIN.CNT", 0x420010, false, [(8, 0x100)], false, false,
    [fld "RXOK" 0 16 .rc false 0 .fixed 0 65535, fld "NORESP" 16 16 .rc false 0 .fixed 0 65535]⟩,
  ⟨"LIN.CNT2", 0x420014, false, [(8, 0x100)], false, false,
    [fld "CKSUM" 0 16 .rc false 0 .fixed 0 65535, fld "BITERR" 16 16 .rc false 0 .fixed 0 65535]⟩,
  ⟨"LIN.CNT3", 0x420018, false, [(8, 0x100)], false, false,
    [fld "OVWR" 0 8 .rc false 0 .fixed 0 255, fld "FMT" 8 8 .rc false 0 .fixed 0 255, fld "COLL" 16 16 .rc false 0 .fixed 0 65535]⟩]

/-- Registers of the ETH chapters' blocks (part 0). -/
def regsEth0 : List RegDef := [
  ⟨"ETH.CTL", 0x440000, false, [(12, 0x10000)], true, false,
    [fld "EN" 0 1 .rw false 0 .img 0 1, fld "SPEED" 1 2 .rw false 0 .img 0 2, fld "AN" 3 1 .rw true 0 .img 0 1, fld "T1MS" 4 1 .rw true 0 .img 0 1, fld "MAXLEN" 16 14 .rw true 0 .img 1518 16000]⟩,
  ⟨"ETH.STAT", 0x440004, false, [(12, 0x10000)], false, false,
    [fld "LINK" 0 1 .ro false 0 .fixed 0 1, fld "SPEED" 1 2 .ro false 0 .fixed 0 3, fld "T1ST" 4 3 .ro false 0 .fixed 0 7, fld "PLCAOK" 7 1 .ro false 0 .fixed 0 1, fld "SQI" 8 3 .ro false 0 .fixed 0 7, fld "ANDONE" 11 1 .ro false 0 .fixed 0 1]⟩,
  ⟨"ETH.T1CTL", 0x4a0008, false, [(4, 0x10000)], true, false,
    [fld "SLEEP" 0 1 .wo false 0 .fixed 0 1, fld "WAKE" 1 1 .wo false 0 .fixed 0 1, fld "SLEEPACK" 2 1 .rw false 0 .img 0 1, fld "WFWD" 3 1 .rw false 0 .img 0 1]⟩,
  ⟨"ETH.PLCA", 0x4e000c, false, [(2, 0x10000)], true, false,
    [fld "NODEID" 0 8 .rw true 0 .img 0 254, fld "NODECNT" 8 8 .rw true 0 .img 1 255, fld "TOTMR" 16 8 .rw true 0 .img 1 255, fld "MAXBC" 24 8 .rw true 0 .img 0 255]⟩,
  ⟨"ETH.PLCA2", 0x4e0010, false, [(2, 0x10000)], true, false,
    [fld "BTMR" 0 8 .rw true 0 .img 0 255]⟩,
  ⟨"ETH.TSCTL", 0x440014, false, [(12, 0x10000)], true, false,
    [fld "EN" 0 1 .rw false 0 .img 0 1]⟩,
  ⟨"ETH.TSTX0", 0x440020, false, [(12, 0x10000)], false, false,
    [fld "STAMPL" 0 32 .rp false 0 .fixed 0 4294967295]⟩,
  ⟨"ETH.TSTX1", 0x440024, false, [(12, 0x10000)], false, false,
    [fld "STAMPH" 0 32 .ro false 0 .fixed 0 4294967295]⟩,
  ⟨"ETH.TSTX2", 0x440028, false, [(12, 0x10000)], false, false,
    [fld "SEQID" 0 16 .ro false 0 .fixed 0 65535, fld "MSGTYPE" 16 4 .ro false 0 .fixed 0 15, fld "VALID" 20 1 .ro false 0 .fixed 0 1, fld "DOMAIN" 24 8 .ro false 0 .fixed 0 255]⟩,
  ⟨"ETH.TSTX3", 0x44002c, false, [(12, 0x10000)], false, false,
    [fld "LEVEL" 0 5 .ro false 0 .fixed 0 31, fld "OVF" 16 16 .rc false 0 .fixed 0 65535]⟩,
  ⟨"ETH.RXCNT", 0x440040, false, [(12, 0x10000)], false, false,
    [fld "OK" 0 32 .rc false 0 .fixed 0 4294967295]⟩,
  ⟨"ETH.RXERR", 0x440044, false, [(12, 0x10000)], false, false,
    [fld "FCS" 0 16 .rc false 0 .fixed 0 65535, fld "LONG" 16 16 .rc false 0 .fixed 0 65535]⟩,
  ⟨"ETH.RXMISC", 0x440048, false, [(12, 0x10000)], false, false,
    [fld "MACCTL" 0 16 .rc false 0 .fixed 0 65535, fld "RUNT" 16 16 .rc false 0 .fixed 0 65535]⟩,
  ⟨"ETH.TXCNT", 0x44004c, false, [(12, 0x10000)], false, false,
    [fld "OK" 0 32 .rc false 0 .fixed 0 4294967295]⟩,
  ⟨"ETH.TXERR", 0x440050, false, [(12, 0x10000)], false, false,
    [fld "LINKCUT" 0 16 .rc false 0 .fixed 0 65535, fld "DISC" 16 16 .rc false 0 .fixed 0 65535]⟩,
  ⟨"ETH.T1CNT", 0x440054, false, [(12, 0x10000)], false, false,
    [fld "SLREJ" 0 16 .rc false 0 .fixed 0 65535, fld "WAKES" 16 16 .rc false 0 .fixed 0 65535]⟩,
  ⟨"ETH.CBS", 0x440100, false, [(12, 0x10000), (8, 0x4)], true, false,
    [fld "IDLESLOPE" 0 24 .rw true 0 .img 1 16777215, fld "EN" 31 1 .rw true 0 .img 0 1]⟩,
  ⟨"ETH.MSCTL", 0x440200, false, [(6, 0x10000)], true, false,
    [fld "ENABLE" 0 1 .rw true 0 .img 0 1, fld "VALIDATE" 1 2 .rw true 0 .img 0 2, fld "CIPHER" 3 2 .rw true 0 .img 0 3, fld "CONF" 5 1 .rw true 0 .img 0 1, fld "INCSCI" 6 1 .rw true 0 .img 0 1, fld "REPLAY" 7 1 .rw true 0 .img 0 1, fld "TXAN" 8 2 .rw true 0 .img 0 3]⟩,
  ⟨"ETH.MSRPW", 0x440204, false, [(6, 0x10000)], true, false,
    [fld "WINDOW" 0 32 .rw true 0 .img 0 4294967295]⟩,
  ⟨"ETH.MSTXSCI", 0x440208, false, [(6, 0x10000), (2, 0x4)], true, false,
    [fld "SCI" 0 32 .rw true 0 .img 0 4294967295]⟩,
  ⟨"ETH.MSCNT0", 0x440210, false, [(6, 0x10000)], false, false,
    [fld "RXOK" 0 32 .rc false 0 .fixed 0 4294967295]⟩,
  ⟨"ETH.MSCNT1", 0x440214, false, [(6, 0x10000)], false, false,
    [fld "RXNOSA" 0 16 .rc false 0 .fixed 0 65535, fld "RXBAD" 16 16 .rc false 0 .fixed 0 65535]⟩,
  ⟨"ETH.MSCNT2", 0x440218, false, [(6, 0x10000)], false, false,
    [fld "RXLATE" 0 16 .rc false 0 .fixed 0 65535, fld "RXUNT" 16 16 .rc false 0 .fixed 0 65535]⟩,
  ⟨"ETH.MSCNT3", 0x44021c, false, [(6, 0x10000)], false, false,
    [fld "TXNOSA" 0 16 .rc false 0 .fixed 0 65535, fld "BADTAG" 16 16 .rc false 0 .fixed 0 65535]⟩]

/-- Registers of the ETH chapters' blocks (part 1). -/
def regsEth1 : List RegDef := [
  ⟨"ETH.MSRXSCI", 0x440300, false, [(6, 0x10000), (4, 0x10), (2, 0x4)], true, false,
    [fld "SCI" 0 32 .rw true 0 .img 0 4294967295]⟩,
  ⟨"ETH.MSRXSCEN", 0x440308, false, [(6, 0x10000), (4, 0x10)], true, false,
    [fld "EN" 0 1 .rw true 0 .img 0 1]⟩,
  ⟨"ETH.TSAKEY", 0x440400, false, [(6, 0x10000), (4, 0x20)], true, false,
    [fld "KEYH" 0 16 .rw true 0 .img 0 65535, fld "INUSE" 16 1 .rw true 0 .img 0 1]⟩,
  ⟨"ETH.TSAPN", 0x440404, false, [(6, 0x10000), (4, 0x20), (2, 0x4)], true, false,
    [fld "PN" 0 32 .rw true 0 .fixed 0 4294967295]⟩,
  ⟨"ETH.TSASSCI", 0x44040c, false, [(6, 0x10000), (4, 0x20)], true, false,
    [fld "SSCI" 0 32 .rw true 0 .fixed 0 4294967295]⟩,
  ⟨"ETH.TSASALT", 0x440410, false, [(6, 0x10000), (4, 0x20), (3, 0x4)], true, false,
    [fld "SALT" 0 32 .rw true 0 .fixed 0 4294967295]⟩,
  ⟨"ETH.RSAKEY", 0x440500, false, [(6, 0x10000), (16, 0x20)], true, false,
    [fld "KEYH" 0 16 .rw true 0 .img 0 65535, fld "INUSE" 16 1 .rw true 0 .img 0 1]⟩,
  ⟨"ETH.RSAPN", 0x440504, false, [(6, 0x10000), (16, 0x20), (2, 0x4)], true, false,
    [fld "PN" 0 32 .rw true 0 .fixed 0 4294967295]⟩,
  ⟨"ETH.RSASSCI", 0x44050c, false, [(6, 0x10000), (16, 0x20)], true, false,
    [fld "SSCI" 0 32 .rw true 0 .fixed 0 4294967295]⟩,
  ⟨"ETH.RSASALT", 0x440510, false, [(6, 0x10000), (16, 0x20), (3, 0x4)], true, false,
    [fld "SALT" 0 32 .rw true 0 .fixed 0 4294967295]⟩,
  ⟨"ETH.MDIOCMD", 0x44f000, false, [], true, false,
    [fld "PHYAD" 0 5 .rw true 0 .fixed 0 31, fld "REG" 5 5 .rw true 0 .fixed 0 31, fld "CL45" 10 1 .rw true 0 .fixed 0 1, fld "OP" 11 2 .rw true 0 .fixed 0 3, fld "ERR" 30 1 .ro false 0 .fixed 0 1, fld "BUSY" 31 1 .ro false 0 .fixed 0 1]⟩,
  ⟨"ETH.MDIODATA", 0x44f004, false, [], true, false,
    [fld "DATA" 0 16 .rw true 0 .fixed 0 65535]⟩,
  ⟨"ETH.NMCTR", 0x44f010, false, [(2, 0x4)], false, false,
    [fld "CTR" 0 32 .ro false 0 .fixed 0 4294967295]⟩,
  ⟨"ETH.NMCNT", 0x44f018, false, [], false, false,
    [fld "ACCEPTED" 0 16 .rc false 0 .fixed 0 65535, fld "REJECTED" 16 16 .rc false 0 .fixed 0 65535]⟩,
  ⟨"ETH.NMREJ", 0x44f01c, false, [], false, false,
    [fld "REASON" 0 8 .ro false 0 .fixed 0 255]⟩]

/-- Registers of the AUD chapters' blocks (part 0). -/
def regsAud0 : List RegDef := [
  ⟨"AUD.TDMCTL", 0x500000, false, [(4, 0x100)], true, false,
    [fld "EN" 0 1 .rw false 0 .img 0 1, fld "MASTER" 1 1 .rw true 0 .img 0 1, fld "WS" 2 1 .rw true 0 .img 0 1, fld "STAMPED" 3 1 .rw false 0 .img 0 1, fld "BLKN" 4 4 .rw false 0 .img 0 8]⟩,
  ⟨"AUD.TDMFMT", 0x500004, false, [(4, 0x100)], true, false,
    [fld "SLOTS" 0 6 .rw true 0 .img 1 32, fld "WIDTH" 8 3 .rw true 0 .img 0 4, fld "OFFSET" 16 6 .rw true 0 .img 0 63, fld "FSPOL" 24 1 .rw true 0 .img 0 1, fld "BCKPOL" 25 1 .rw true 0 .img 0 1, fld "FSW" 26 1 .rw true 0 .img 0 1, fld "TRI" 27 1 .rw true 0 .img 0 1]⟩,
  ⟨"AUD.TDMFLEN", 0x500008, false, [(4, 0x100)], true, false,
    [fld "FLEN" 0 12 .rw true 0 .img 0 4095]⟩,
  ⟨"AUD.TDMFS", 0x50000c, false, [(4, 0x100)], true, false,
    [fld "FS" 0 18 .rw true 0 .img 0 262143]⟩,
  ⟨"AUD.TDMMASK", 0x500010, false, [(4, 0x100), (2, 0x4)], true, false,
    [fld "MASK" 0 32 .rw true 0 .img 0 4294967295]⟩,
  ⟨"AUD.TDMRING", 0x500018, false, [(4, 0x100)], true, false,
    [fld "FRAMES" 0 12 .rw true 0 .img 1 2048]⟩,
  ⟨"AUD.TDMSTART", 0x50001c, false, [(4, 0x100), (2, 0x4)], true, false,
    [fld "S" 0 32 .rw true 0 .img 0 4294967295]⟩,
  ⟨"AUD.TDMSTAT", 0x500024, false, [(4, 0x100)], false, false,
    [fld "RUN" 0 1 .ro false 0 .fixed 0 1, fld "LOCK" 1 1 .ro false 0 .fixed 0 1, fld "RXF" 16 12 .ro false 0 .fixed 0 4095]⟩,
  ⟨"AUD.TDMCNT", 0x500028, false, [(4, 0x100)], false, false,
    [fld "FSERR" 0 16 .rc false 0 .fixed 0 65535, fld "BSDROP" 16 16 .rc false 0 .fixed 0 65535]⟩,
  ⟨"AUD.TDMBST0", 0x500030, false, [(4, 0x100)], false, false,
    [fld "STAMPL" 0 32 .rp false 0 .fixed 0 4294967295]⟩,
  ⟨"AUD.TDMBST1", 0x500034, false, [(4, 0x100)], false, false,
    [fld "STAMPH" 0 32 .ro false 0 .fixed 0 4294967295]⟩,
  ⟨"AUD.TDMBST2", 0x500038, false, [(4, 0x100)], false, false,
    [fld "BLOCK" 0 24 .ro false 0 .fixed 0 16777215, fld "VALID" 24 1 .ro false 0 .fixed 0 1, fld "RESYNC" 25 1 .ro false 0 .fixed 0 1, fld "LEVEL" 28 4 .ro false 0 .fixed 0 15]⟩,
  ⟨"AUD.BPTCTL", 0x500400, false, [(2, 0x100)], true, false,
    [fld "EN" 0 1 .rw false 0 .img 0 1, fld "V" 1 1 .rw false 0 .img 0 1, fld "WL20" 2 1 .rw true 0 .img 0 1, fld "CSCOMMIT" 3 1 .wo false 0 .fixed 0 1, fld "UCOMMIT" 4 1 .wo false 0 .fixed 0 1]⟩,
  ⟨"AUD.BPTFS", 0x500404, false, [(2, 0x100)], true, false,
    [fld "FS" 0 18 .rw true 0 .img 32000 192000]⟩,
  ⟨"AUD.BPTSTART", 0x500408, false, [(2, 0x100), (2, 0x4)], true, false,
    [fld "S" 0 32 .rw true 0 .img 0 4294967295]⟩,
  ⟨"AUD.BPTCS", 0x500410, false, [(2, 0x100), (12, 0x4)], true, false,
    [fld "CS" 0 32 .rw false 0 .img 0 4294967295]⟩,
  ⟨"AUD.BPTUB", 0x500440, false, [(2, 0x100), (12, 0x4)], false, false,
    [fld "U" 0 32 .rw false 0 .fixed 0 4294967295]⟩,
  ⟨"AUD.BPTBST0", 0x500474, false, [(2, 0x100)], false, false,
    [fld "STAMPL" 0 32 .rp false 0 .fixed 0 4294967295]⟩,
  ⟨"AUD.BPTBST1", 0x500478, false, [(2, 0x100)], false, false,
    [fld "STAMPH" 0 32 .ro false 0 .fixed 0 4294967295]⟩,
  ⟨"AUD.BPTBST2", 0x50047c, false, [(2, 0x100)], false, false,
    [fld "BLOCK" 0 24 .ro false 0 .fixed 0 16777215, fld "VALID" 24 1 .ro false 0 .fixed 0 1, fld "RESYNC" 25 1 .ro false 0 .fixed 0 1, fld "LEVEL" 28 4 .ro false 0 .fixed 0 15]⟩,
  ⟨"AUD.BPRCTL", 0x500600, false, [(2, 0x100)], true, false,
    [fld "EN" 0 1 .rw false 0 .img 0 1, fld "MUTENA" 1 1 .rw false 0 .img 0 1]⟩,
  ⟨"AUD.BPRSTAT", 0x500604, false, [(2, 0x100)], false, false,
    [fld "LOCK" 0 1 .ro false 0 .fixed 0 1, fld "PRO" 1 1 .ro false 0 .fixed 0 1, fld "NONPCM" 2 1 .ro false 0 .fixed 0 1, fld "VSEEN" 3 1 .ro false 0 .fixed 0 1, fld "CSNEW" 4 1 .rc false 0 .fixed 0 1, fld "UNEW" 5 1 .rc false 0 .fixed 0 1, fld "RATE" 14 18 .ro false 0 .fixed 0 262143]⟩,
  ⟨"AUD.BPRCNT", 0x500608, false, [(2, 0x100)], false, false,
    [fld "PARITY" 0 16 .rc false 0 .fixed 0 65535, fld "PREERR" 16 16 .rc false 0 .fixed 0 65535]⟩,
  ⟨"AUD.BPRCS", 0x500610, false, [(2, 0x100), (24, 0x4)], false, false,
    [fld "D" 0 32 .ro false 0 .fixed 0 4294967295]⟩]

/-- Registers of the AUD chapters' blocks (part 1). -/
def regsAud1 : List RegDef := [
  ⟨"AUD.BPRBST0", 0x500674, false, [(2, 0x100)], false, false,
    [fld "STAMPL" 0 32 .rp false 0 .fixed 0 4294967295]⟩,
  ⟨"AUD.BPRBST1", 0x500678, false, [(2, 0x100)], false, false,
    [fld "STAMPH" 0 32 .ro false 0 .fixed 0 4294967295]⟩,
  ⟨"AUD.BPRBST2", 0x50067c, false, [(2, 0x100)], false, false,
    [fld "BLOCK" 0 24 .ro false 0 .fixed 0 16777215, fld "VALID" 24 1 .ro false 0 .fixed 0 1, fld "RESYNC" 25 1 .ro false 0 .fixed 0 1, fld "LEVEL" 28 4 .ro false 0 .fixed 0 15]⟩,
  ⟨"AUD.EPCTL", 0x500800, false, [(8, 0x80)], true, false,
    [fld "TALK" 0 1 .rw false 0 .img 0 1, fld "LISTEN" 1 1 .rw false 0 .img 0 1]⟩,
  ⟨"AUD.EPFMT", 0x500804, false, [(8, 0x80)], true, false,
    [fld "CH" 0 4 .rw true 0 .img 1 8, fld "FMT" 4 2 .rw true 0 .img 0 2, fld "NSR" 8 4 .rw true 0 .img 1 10, fld "SPP" 16 7 .rw true 0 .img 1 64]⟩,
  ⟨"AUD.EPTIME", 0x500808, false, [(8, 0x80)], true, false,
    [fld "MTT" 0 16 .rw true 0 .img 0 65535, fld "LAT" 16 16 .rw true 0 .img 0 65535]⟩,
  ⟨"AUD.EPID", 0x50080c, false, [(8, 0x80), (8, 0x4)], true, false,
    [fld "ID" 0 32 .rw true 0 .img 0 4294967295]⟩,
  ⟨"AUD.EPTAG", 0x50082c, false, [(8, 0x80)], true, false,
    [fld "VID" 0 12 .rw true 0 .img 0 4095, fld "PCP" 12 3 .rw true 0 .img 0 7, fld "TAGGED" 15 1 .rw true 0 .img 0 1]⟩,
  ⟨"AUD.EPSTAT", 0x500830, false, [(8, 0x80)], false, false,
    [fld "LEVEL" 16 11 .ro false 0 .fixed 0 2047]⟩,
  ⟨"AUD.EPCNT", 0x500834, false, [(8, 0x80), (4, 0x4)], false, false,
    [fld "LO" 0 16 .rc false 0 .fixed 0 65535, fld "HI" 16 16 .rc false 0 .fixed 0 65535]⟩,
  ⟨"AUD.ADCCTL", 0x500d00, false, [(4, 0x10)], true, false,
    [fld "EN" 0 1 .rw false 0 .img 0 1, fld "GAIN" 1 4 .rw false 0 .img 0 12, fld "BIAS" 8 1 .rw false 0 .img 0 1, fld "BIASV" 9 2 .rw true 0 .img 0 2]⟩,
  ⟨"AUD.PDMCTL", 0x500d80, false, [], true, false,
    [fld "EN" 0 2 .rw false 0 .img 0 3]⟩,
  ⟨"AUD.DACCTL", 0x500e00, false, [(2, 0x10)], true, false,
    [fld "EN" 0 1 .rw false 0 .img 0 1]⟩,
  ⟨"AUD.DACSTAT", 0x500e04, false, [(2, 0x10)], false, false,
    [fld "STATE" 0 3 .ro false 0 .fixed 0 7]⟩,
  ⟨"AUD.SPKCTL", 0x500e40, false, [], true, false,
    [fld "EN" 0 1 .rw false 0 .img 0 1]⟩,
  ⟨"AUD.SPKSTAT", 0x500e44, false, [], false, false,
    [fld "STATE" 0 3 .ro false 0 .fixed 0 7, fld "BUDGET" 3 1 .rc false 0 .fixed 0 1]⟩,
  ⟨"AUD.LIMKP", 0x500e80, false, [], true, false,
    [fld "KP" 0 32 .lk true 0 .img 0 4294967295]⟩,
  ⟨"AUD.LIMRTH", 0x500e84, false, [], true, false,
    [fld "RTC" 0 16 .lk true 0 .img 1 65535, fld "RTM" 16 16 .lk true 0 .img 1 65535]⟩,
  ⟨"AUD.LIMTAU", 0x500e88, false, [(2, 0x4)], true, false,
    [fld "TAU" 0 32 .lk true 0 .img 1 10000000]⟩,
  ⟨"AUD.LIMTRISE", 0x500e90, false, [], true, false,
    [fld "TRISE" 0 32 .rw true 0 .img 0 4294967295]⟩,
  ⟨"AUD.LIMTHR", 0x500e94, false, [], true, false,
    [fld "THYS" 0 16 .rw true 0 .img 0 65535, fld "GMIN" 16 16 .rw true 0 .img 0 4096]⟩,
  ⟨"AUD.LIMRATE", 0x500e98, false, [], true, false,
    [fld "ATK" 0 16 .rw true 0 .img 0 65535, fld "REL" 16 16 .rw true 0 .img 0 65535]⟩,
  ⟨"AUD.LIMSTAT", 0x500e9c, false, [], false, false,
    [fld "ACTIVE" 0 1 .ro false 0 .fixed 0 1, fld "G" 16 13 .ro false 0 .fixed 0 8191]⟩,
  ⟨"AUD.LIMTC", 0x500ea0, false, [], true, false,
    [fld "TC" 0 32 .ro false 0 .fixed 0 4294967295]⟩]

/-- Registers of the AUD chapters' blocks (part 2). -/
def regsAud2 : List RegDef := [
  ⟨"AUD.DETCTL", 0x500f00, false, [], true, false,
    [fld "SPK" 0 1 .wo false 0 .fixed 0 1, fld "LOUT" 1 2 .wo false 0 .fixed 0 3]⟩,
  ⟨"AUD.DETSTAT", 0x500f04, false, [], false, false,
    [fld "SPK" 0 3 .ro false 0 .fixed 0 7, fld "LOUT0" 4 3 .ro false 0 .fixed 0 7, fld "LOUT1" 8 3 .ro false 0 .fixed 0 7, fld "MIC0" 12 3 .ro false 0 .fixed 0 7, fld "MIC1" 16 3 .ro false 0 .fixed 0 7, fld "MIC2" 20 3 .ro false 0 .fixed 0 7, fld "MIC3" 24 3 .ro false 0 .fixed 0 7]⟩,
  ⟨"AUD.SPKRES", 0x500f08, false, [], false, false,
    [fld "R" 0 16 .ro false 0 .fixed 0 65535]⟩,
  ⟨"AUD.DETLIM", 0x500f0c, false, [], false, false,
    [fld "RMIN" 0 16 .lk true 0 .img 0 65535, fld "RMAX" 16 16 .lk true 0 .img 0 65535]⟩,
  ⟨"AUD.DETMIC", 0x500f10, false, [], false, false,
    [fld "IOPEN" 0 16 .lk true 0 .img 0 65535, fld "ISHORT" 16 16 .lk true 0 .img 0 65535]⟩,
  ⟨"AUD.CALREQ", 0x500f40, false, [], true, false,
    [fld "NODE" 0 3 .wo false 0 .fixed 0 6, fld "MODE" 8 1 .wo false 0 .fixed 0 1]⟩,
  ⟨"AUD.CALSTAT", 0x500f44, false, [], false, false,
    [fld "RES" 0 3 .ro false 0 .fixed 0 7, fld "BUSY" 8 1 .ro false 0 .fixed 0 1]⟩,
  ⟨"AUD.BARSEL", 0x500f80, false, [], false, true,
    [fld "A" 0 3 .rw false 0 .fixed 0 7]⟩,
  ⟨"AUD.BADATA", 0x500f84, false, [(26, 0x4)], false, true,
    [fld "D" 0 32 .ro false 0 .fixed 0 4294967295]⟩,
  ⟨"AUD.ASRCCFG", 0x501000, false, [(8, 0x20)], true, false,
    [fld "DIR" 0 1 .lk true 0 .img 0 1, fld "DOMKIND" 1 2 .lk true 0 .img 0 3, fld "DOMIDX" 3 3 .lk true 0 .img 0 7, fld "NCH" 6 4 .lk true 0 .img 1 8, fld "DELAY" 16 13 .lk true 0 .img 50 5000]⟩,
  ⟨"AUD.ASRCCNT", 0x501004, false, [(8, 0x20)], false, false,
    [fld "UNDER" 0 16 .rc false 0 .fixed 0 65535, fld "UNLOCK" 16 16 .rc false 0 .fixed 0 65535]⟩,
  ⟨"AUD.CHCTL", 0x501800, false, [(16, 0x4)], true, false,
    [fld "NS" 0 4 .rw true 0 .img 0 8]⟩,
  ⟨"AUD.RGAIN", 0x502000, false, [(1024, 0x4)], true, false,
    [fld "GAIN" 0 16 .rw false 0 .sec 0 65535]⟩,
  ⟨"AUD.BQCOEF", 0x503000, false, [(16, 0x100), (8, 0x20), (5, 0x4)], true, false,
    [fld "C" 0 32 .rw true 0 .img 0 4294967295]⟩,
  ⟨"AUD.BQCOMMIT", 0x503014, false, [(16, 0x100), (8, 0x20)], true, false,
    [fld "COMMIT" 0 1 .wo true 0 .fixed 0 1]⟩,
  ⟨"AUD.BACFG", 0x504000, false, [(8, 0x400)], true, false,
    [fld "EN" 0 1 .rw false 0 .img 0 1, fld "NB" 1 3 .rw true 0 .img 0 7, fld "WIN" 8 24 .rw true 0 .img 0 16777215]⟩,
  ⟨"AUD.BABQ", 0x504040, false, [(8, 0x400), (8, 0x40), (2, 0x20), (5, 0x4)], true, false,
    [fld "C" 0 32 .rw true 0 .img 0 4294967295]⟩,
  ⟨"AUD.BABQCOMMIT", 0x504054, false, [(8, 0x400), (8, 0x40), (2, 0x20)], true, false,
    [fld "COMMIT" 0 1 .wo true 0 .fixed 0 1]⟩,
  ⟨"AUD.RXRING", 0x508000, false, [(4, 0x4000), (2048, 0x4)], false, false,
    [fld "W" 0 32 .ro false 0 .fixed 0 4294967295]⟩,
  ⟨"AUD.TXRING", 0x50a000, false, [(4, 0x4000), (2048, 0x4)], false, false,
    [fld "W" 0 32 .rw false 0 .fixed 0 4294967295]⟩,
  ⟨"AUD.PLAYRING", 0x518000, false, [(4, 0x1000), (1024, 0x4)], false, false,
    [fld "W" 0 32 .rw false 0 .fixed 0 4294967295]⟩,
  ⟨"AUD.CAPRING", 0x51c000, false, [(4, 0x1000), (1024, 0x4)], false, false,
    [fld "W" 0 32 .ro false 0 .fixed 0 4294967295]⟩,
  ⟨"AUD.BPTRING", 0x520000, false, [(2, 0x2000), (2048, 0x4)], false, false,
    [fld "W" 0 32 .rw false 0 .fixed 0 4294967295]⟩,
  ⟨"AUD.BPRRING", 0x524000, false, [(2, 0x2000), (2048, 0x4)], false, false,
    [fld "W" 0 32 .ro false 0 .fixed 0 4294967295]⟩]

/-- Registers of the HSNS chapters' blocks. -/
def regsHsns : List RegDef := [
  ⟨"HSNS.CONVCFG", 0x580000, false, [], false, false,
    [fld "PER" 0 16 .lk true 0 .img 1000 65535]⟩,
  ⟨"HSNS.CALCTL", 0x580004, false, [], true, false,
    [fld "REQ" 0 1 .w1s false 0 .fixed 0 1]⟩,
  ⟨"HSNS.CALSTAT", 0x580008, false, [], false, false,
    [fld "ERR" 0 4 .ro false 0 .fixed 0 15, fld "DONE" 16 16 .rc false 0 .fixed 0 65535]⟩,
  ⟨"HSNS.RSEL", 0x580010, false, [], false, true,
    [fld "CH" 0 4 .rw false 0 .fixed 0 15, fld "VALID" 8 1 .ro false 0 .fixed 0 1]⟩,
  ⟨"HSNS.RDATA", 0x580040, false, [(26, 0x4)], false, true,
    [fld "D" 0 32 .ro false 0 .fixed 0 4294967295]⟩,
  ⟨"HSNS.PUBSEQ", 0x580100, false, [], false, false,
    [fld "NEXT" 0 32 .ro false 0 .fixed 0 4294967295]⟩,
  ⟨"HSNS.PUBCNT", 0x580104, false, [], false, false,
    [fld "WITHHELD" 0 32 .rc false 0 .fixed 0 4294967295]⟩,
  ⟨"HSNS.CHCTL", 0x580200, false, [(16, 0x4)], true, false,
    [fld "EN" 0 1 .rw false 0 .sec 0 1]⟩,
  ⟨"HSNS.CHWIN", 0x580240, false, [(16, 0x4)], true, false,
    [fld "WIN" 0 32 .rw true 0 .sec 16 4294967295]⟩,
  ⟨"HSNS.TCFG", 0x580300, false, [(4, 0x10)], false, false,
    [fld "TH" 0 16 .lk true 0 .img 0 65535, fld "HYS" 16 16 .lk true 0 .img 0 65535]⟩,
  ⟨"HSNS.TCFG2", 0x580304, false, [(4, 0x10)], false, false,
    [fld "DEB" 0 4 .lk true 0 .img 1 15, fld "EN" 7 1 .lk true 0 .img 0 1, fld "TRACKDIV" 8 8 .lk true 0 .img 1 255, fld "STEP" 16 16 .lk true 0 .img 0 65535]⟩,
  ⟨"HSNS.TCFG3", 0x580308, false, [(4, 0x10)], false, false,
    [fld "HOLDS" 0 8 .lk true 0 .img 1 255, fld "TCH" 8 4 .lk true 0 .img 0 15, fld "WAKETH" 16 16 .lk true 0 .img 0 65535]⟩,
  ⟨"HSNS.TBASE", 0x58030c, false, [(4, 0x10)], false, false,
    [fld "INIT" 0 32 .lk true 0 .img 0 4294967295]⟩,
  ⟨"HSNS.TSTAT", 0x580340, false, [], false, false,
    [fld "STATE" 0 12 .ro false 0 .fixed 0 4095]⟩,
  ⟨"HSNS.TPRESS", 0x580344, false, [], false, false,
    [fld "CNT" 0 32 .rc false 0 .fixed 0 4294967295]⟩]

/-- Registers of the TAHR chapters' blocks (part 0). -/
def regsTahr0 : List RegDef := [
  ⟨"TAHR.STATUS", 0x600000, false, [], false, false,
    [fld "LINK" 0 1 .ro false 0 .fixed 0 1, fld "TRAIN" 1 1 .ro false 0 .fixed 0 1, fld "NLTX" 2 3 .ro false 0 .fixed 0 7, fld "NLRX" 5 3 .ro false 0 .fixed 0 7, fld "RETTX" 8 6 .ro false 0 .fixed 0 63, fld "RETRX" 16 6 .ro false 0 .fixed 0 63]⟩,
  ⟨"TAHR.PERMCTL", 0x600004, false, [], true, false,
    [fld "GRANT" 0 1 .rw true 0 .fixed 0 1]⟩,
  ⟨"TAHR.CNT", 0x600008, false, [], false, false,
    [fld "RETX" 0 16 .rc false 0 .fixed 0 65535, fld "RETRAIN" 16 8 .rc false 0 .fixed 0 255, fld "LANEFAIL" 24 8 .rc false 0 .fixed 0 255]⟩,
  ⟨"TAHR.XDROP0", 0x60000c, false, [], false, false,
    [fld "TYPE" 0 16 .rc false 0 .fixed 0 65535, fld "LEN" 16 16 .rc false 0 .fixed 0 65535]⟩,
  ⟨"TAHR.XDROP1", 0x600010, false, [], false, false,
    [fld "ORIGIN" 0 16 .rc false 0 .fixed 0 65535, fld "MININT" 16 16 .rc false 0 .fixed 0 65535]⟩,
  ⟨"TAHR.TXREF", 0x600014, false, [], false, false,
    [fld "CNT" 0 16 .rc false 0 .fixed 0 65535]⟩,
  ⟨"FSUP.UNLOCK", 0x820000, false, [], false, false,
    [fld "KEY" 0 32 .wo false 0 .fixed 0 4294967295]⟩,
  ⟨"FSUP.PERMIT", 0x820004, false, [], true, false,
    [fld "GRANT" 0 1 .rw true 0 .fixed 0 1]⟩,
  ⟨"FSUP.PSTAT", 0x820008, false, [], false, false,
    [fld "PERMIT" 0 1 .ro false 0 .fixed 0 1, fld "HOLDLN" 1 1 .ro false 0 .fixed 0 1, fld "HOSTGRANT" 2 1 .ro false 0 .fixed 0 1, fld "RBERR" 3 1 .ro false 0 .fixed 0 1, fld "CAUSE" 4 4 .ro false 0 .fixed 0 15]⟩,
  ⟨"FSUP.WDT", 0x82000c, false, [], false, false,
    [fld "KEY" 0 32 .wo false 0 .fixed 0 4294967295]⟩,
  ⟨"FSUP.WDCFG", 0x820010, false, [], false, false,
    [fld "MS" 0 7 .lk true 0 .img 1 100]⟩,
  ⟨"FSUP.HOLDCFG", 0x820014, false, [], true, false,
    [fld "FCAN" 0 1 .rw false 0 .img 0 1, fld "MEAS" 1 1 .rw false 0 .img 0 1, fld "FAULT" 2 1 .rw false 0 .img 0 1, fld "IMG" 3 1 .rw false 0 .img 0 1]⟩,
  ⟨"FSUP.HELD", 0x820018, false, [], false, false,
    [fld "LEVEL" 0 10 .ro false 0 .fixed 0 1023, fld "DROP" 16 16 .rc false 0 .fixed 0 65535]⟩,
  ⟨"FSUP.TXCTL", 0x820020, false, [], false, false,
    [fld "TYPE" 0 6 .rw false 0 .fixed 0 63, fld "LEN" 8 11 .rw false 0 .fixed 0 2047, fld "SEND" 24 1 .wo false 0 .fixed 0 1, fld "ERR" 28 4 .ro false 0 .fixed 0 15]⟩,
  ⟨"FSUP.RXPOP", 0x820024, false, [], false, false,
    [fld "TYPE" 0 6 .rp false 0 .fixed 0 63, fld "LEN" 8 11 .rp false 0 .fixed 0 2047, fld "LEFT" 20 4 .rp false 0 .fixed 0 15, fld "ORIGIN" 24 8 .rp false 0 .fixed 0 255]⟩,
  ⟨"FSUP.XDROP0", 0x82002c, false, [], false, false,
    [fld "TYPE" 0 16 .rc false 0 .fixed 0 65535, fld "LEN" 16 16 .rc false 0 .fixed 0 65535]⟩,
  ⟨"FSUP.XDROP1", 0x820030, false, [], false, false,
    [fld "FULL" 0 16 .rc false 0 .fixed 0 65535, fld "MININT" 16 16 .rc false 0 .fixed 0 65535]⟩,
  ⟨"FSUP.XDROP2", 0x820034, false, [], false, false,
    [fld "ORIGIN" 0 16 .rc false 0 .fixed 0 65535]⟩,
  ⟨"FSUP.WREFUSE", 0x820038, false, [], false, true,
    [fld "ADDR" 2 22 .ro false 0 .fixed 0 4194303, fld "STATUS" 24 8 .ro false 0 .fixed 0 255]⟩,
  ⟨"FSUP.TBUF", 0x820400, false, [(256, 0x4)], false, false,
    [fld "D" 0 32 .rw false 0 .fixed 0 4294967295]⟩,
  ⟨"FSUP.RBUF", 0x820800, false, [(256, 0x4)], false, false,
    [fld "D" 0 32 .ro false 0 .fixed 0 4294967295]⟩,
  ⟨"FSUP.FBUDLIM", 0x820c00, false, [], false, false,
    [fld "LIMIT" 0 10 .lk true 0 .img 1 1000, fld "INUSE" 16 10 .ro false 0 .fixed 0 1023]⟩,
  ⟨"FSUP.FBUD", 0x820c04, false, [(2, 0x4)], false, false,
    [fld "COST" 0 10 .lk true 0 .img 1 1000, fld "PRIO" 12 3 .lk true 0 .img 0 7, fld "TIMEOUT" 16 16 .lk true 0 .img 0 65535]⟩,
  ⟨"FSUP.FBUDCNT", 0x820c0c, false, [], false, false,
    [fld "GRANTS" 0 16 .rc false 0 .fixed 0 65535, fld "TIMEOUTS" 16 16 .rc false 0 .fixed 0 65535]⟩]

/-- Registers of the TAHR chapters' blocks (part 1). -/
def regsTahr1 : List RegDef := [
  ⟨"FSUP.FMON", 0x820c10, false, [], false, false,
    [fld "TJ" 0 8 .ro false 0 .fixed 0 255, fld "VSUPF" 8 8 .ro false 0 .fixed 0 255, fld "REFOK" 16 1 .ro false 0 .fixed 0 1]⟩]

/-- Registers of the MEAS chapters' blocks. -/
def regsMeas : List RegDef := [
  ⟨"MEAS.CONVCFG", 0x800000, false, [(3, 0x4)], false, false,
    [fld "PER" 0 16 .lk true 0 .img 500 65535]⟩,
  ⟨"MEAS.CONVSTAT", 0x80000c, false, [], false, false,
    [fld "PHYS" 0 6 .ro false 0 .fixed 0 63, fld "SPARE" 6 2 .ro false 0 .fixed 0 3, fld "NOSPARE" 8 1 .ro false 0 .fixed 0 1, fld "CALBUSY" 9 1 .ro false 0 .fixed 0 1]⟩,
  ⟨"MEAS.CALCTL", 0x800010, false, [], true, false,
    [fld "REQ" 0 3 .w1s false 0 .fixed 0 7]⟩,
  ⟨"MEAS.CALSTAT", 0x800014, false, [], false, false,
    [fld "ERR" 0 4 .ro false 0 .fixed 0 15, fld "DONE" 16 16 .rc false 0 .fixed 0 65535]⟩,
  ⟨"MEAS.MAINSCFG", 0x800018, false, [], false, false,
    [fld "REFCH" 0 7 .lk true 0 .img 0 127, fld "NCYC" 8 4 .lk true 0 .img 1 15, fld "MCYC" 12 4 .lk true 0 .img 1 15, fld "HYS" 16 16 .lk true 0 .img 1 65535]⟩,
  ⟨"MEAS.MAINSPER", 0x80001c, false, [], false, false,
    [fld "PMIN" 0 16 .lk true 0 .img 0 65535, fld "PMAX" 16 16 .lk true 0 .img 0 65535]⟩,
  ⟨"MEAS.MAINSSTAT", 0x800020, false, [], false, false,
    [fld "LOCK" 0 1 .ro false 0 .fixed 0 1, fld "LCUR" 8 17 .ro false 0 .fixed 0 131071]⟩,
  ⟨"MEAS.RCNT", 0x800024, false, [], false, false,
    [fld "SENT" 0 16 .rc false 0 .fixed 0 65535, fld "DROP" 16 8 .rc false 0 .fixed 0 255, fld "LINK" 24 8 .rc false 0 .fixed 0 255]⟩,
  ⟨"MEAS.RSEL", 0x800030, false, [], false, true,
    [fld "CH" 0 7 .rw false 0 .fixed 0 127, fld "VALID" 8 1 .ro false 0 .fixed 0 1]⟩,
  ⟨"MEAS.RDATA", 0x800040, false, [(26, 0x4)], false, true,
    [fld "D" 0 32 .ro false 0 .fixed 0 4294967295]⟩,
  ⟨"MEAS.CHCTL", 0x800200, false, [(128, 0x4)], true, false,
    [fld "EN" 0 1 .rw false 0 .sec 0 1]⟩,
  ⟨"MEAS.CHWIN", 0x800400, false, [(128, 0x4)], true, false,
    [fld "WIN" 0 32 .rw true 0 .sec 16 4294967295]⟩]

/-- Registers of the DBG chapters' blocks. -/
def regsDbg : List RegDef := [
  ⟨"DBG.STATUS", 0xf00000, false, [], false, false,
    [fld "STATE" 0 2 .ro false 0 .fixed 0 3, fld "RESULT" 8 8 .ro false 0 .fixed 0 255, fld "GRANT" 16 5 .ro false 0 .fixed 0 31, fld "HALTMP" 24 1 .ro false 0 .fixed 0 1, fld "HALTFS" 25 1 .ro false 0 .fixed 0 1]⟩,
  ⟨"DBG.CTL", 0xf00004, false, [], true, false,
    [fld "END" 0 1 .wo false 0 .fixed 0 1]⟩,
  ⟨"DBG.LIFE", 0xf00008, false, [], false, false,
    [fld "LEFT" 0 17 .ro false 0 .fixed 0 131071]⟩,
  ⟨"DBG.CNT", 0xf0000c, false, [], false, false,
    [fld "OPENED" 0 16 .rc false 0 .fixed 0 65535, fld "FAILED" 16 16 .rc false 0 .fixed 0 65535]⟩]

/-- Every register of the device (Table REG-2). -/
def regTable : List RegDef :=
  regsSys ++ regsJrn ++ regsPwr ++ regsTim ++ regsImg ++ regsFlt ++ regsRep ++ regsKey ++ regsFab0 ++ regsFab1 ++ regsGtw ++ regsCan0 ++ regsCan1 ++ regsEth0 ++ regsEth1 ++ regsAud0 ++ regsAud1 ++ regsAud2 ++ regsHsns ++ regsTahr0 ++ regsTahr1 ++ regsMeas ++ regsDbg

/-- Whether an offset from a register's base names one of its elements: the outermost dimension first. -/
def inDims : List (Nat × Nat) → Nat → Bool
  | [], off => off == 0
  | (n, st) :: r, off => decide (off / st < n) && inDims r (off % st)

/-- The ports that Table QUE-1 reserves have no pages (R938). -/
def reservedPort (p : Nat) : Bool := (decide (12 ≤ p) && decide (p ≤ 15)) || (decide (71 ≤ p) && decide (p ≤ 79))

/-- The island kinds that Table REP-1 names, each with a KSTAT register. -/
def namedKind (k : Nat) : Bool := decide (k ≤ 0x11) || (decide (0x20 ≤ k) && decide (k ≤ 0x22)) || k == 0x30 || k == 0x31

/-- Whether a register definition covers an address (R938, R939). -/
def RegDef.covers (d : RegDef) (a : Nat) : Bool :=
  decide (d.base ≤ a) && inDims d.dims (a - d.base) &&
  (!d.ports || !reservedPort ((a - d.base) / (match d.dims with | (_, st) :: _ => st | [] => 1))) &&
  (d.base != 0x60100 || namedKind ((a - d.base) / 4))

/-- The register at an address, if any (R209: an address in no register is refused with NOADDR). -/
def regAt (a : Nat) : Option RegDef := regTable.find? (fun d => d.covers a)

/-- The BLOCK code that governs an address: the base code of its block (R115). -/
def blockOf (a : Nat) : Nat :=
  let c := a / 0x10000
  if c < 0x10 then c
  else if c < 0x20 then 0x10
  else if c < 0x40 then 0x20
  else if c < 0x42 then 0x40
  else if c < 0x44 then 0x42
  else if c < 0x50 then 0x44
  else if c < 0x58 then 0x50
  else c

/-- The remote blocks MEAS, FFLT and FSUP (R27). -/
def isRemote (a : Nat) : Bool := decide (0x800000 ≤ a) && decide (a < 0x830000)

/-- A register is protected where it is journalled and holds a Level E field (R223). -/
def RegDef.protected (d : RegDef) : Bool := d.jrn && d.fields.any (fun f => f.expert)

end Sys2Proof.Machine
end

