-- ==== Sys2Proof/Machine/State.lean ====
section
/-! DEFINITION. The machine's state: everything the spec gives the block (plain data), the queue of waiting commands, the reasons a command stops, and the state after reset. -/

namespace Sys2Proof.Machine

open Sys2Proof

/-- The reasons a command stops with a fault. The block has none of its own: every condition the spec describes is a fault source, a status or a count, and changes the state. -/
inductive Fault
  | /-- Raised by no meaning: the spec gives the block no condition that stops it (safe). -/
    never
deriving DecidableEq, Repr

/-- The reasons a command has no meaning. -/
inductive Refusal
  | /-- Raised by an arm of exec whose command has no meaning yet (safe: a claim may become unprovable). -/
    notModelled (mnemonic : String)
deriving DecidableEq, Repr

/-- The host die's mode (R54, R78): the six modes of Table MOD-1, and No supply. -/
inductive Mode
  | noSupply | keep | standby | build | run | degraded | hold
deriving DecidableEq, Repr

/-- The encoding of SYS.STATE.MODE (R54); No supply is no mode and reads 0. -/
def Mode.code : Mode → Nat
  | .noSupply => 0
  | .keep => 1
  | .standby => 2
  | .build => 3
  | .run => 4
  | .degraded => 5
  | .hold => 6

/-- The field die's own state: unpowered (R79), in a field reset that has not ended (R67), and Table MOD-4. -/
inductive FState
  | off | inReset | wait | fbuild | frun | alone | fhold
deriving DecidableEq, Repr

/-- The code a field die announces for its state (Table MOD-4). -/
def FState.code : FState → Nat
  | .off => 0
  | .inReset => 0
  | .wait => 1
  | .fbuild => 2
  | .frun => 3
  | .alone => 4
  | .fhold => 5

/-- What the SAFE_OUT, MISO and similar pins of Table MOD-7 can show. -/
inductive Drive
  | hiZ | low | high
deriving DecidableEq, Repr

/-- The wake arbiter's record (R83, R88). -/
structure Wake where
  recording : Bool
  armed : Bool
  decided : Bool
  cands : List (Nat × Stamp)
  primary : Nat
  second : Nat
  seen : Nat
  t1 : Stamp
  t2 : Stamp
  pulse : Option Stamp
  out : Bool
deriving DecidableEq, Repr

/-- Modes, resets, pins and supplies of the host die (chapters 02 and 20). `degOrigin` is the origin that Table JRN-13 gives the next change between RUN and DEGRADED. -/
structure Sys where
  mode : Mode
  entering : Bool
  inReset : Option Nat
  holdLine : Bool
  safeOut : Drive
  rstCause : Nat
  keepOk : Bool
  noImg : Bool
  vsupH : Bool
  vkeep : Bool
  vsupF : Bool
  vspkOk : Bool
  vio18 : Bool
  refOk : Bool
  wake : Wake
  int0 : Bool
  int1 : Bool
  buildAt : Stamp
  drainAt : Stamp
  degOrigin : Nat
deriving DecidableEq, Repr

/-- The timebase (R151, R177): the count of the last reference edge in units of 2^-32 ns, the stamp of the events being committed, one tick behind SYSCNT (R163, log entry 5), the rate in force and the rate that waits for the next beat. -/
structure Time where
  edge : Nat
  now : Stamp
  running : Bool
  rate : Int
  rateNext : Option Int
  nowh : Nat
  ptpofs : Nat
  ofslHeld : Option Nat
  falign : Int
  fbad : Nat
  fgood : Nat
  rhorizon : Nat
deriving DecidableEq, Repr

/-- One entry of the change journal (Table JRN-2), with its drain state: whether it is unsent, whether an admitted drain message carried it before, and the tick at which it became unsent. -/
structure JEntry where
  stamp : Stamp
  seq : Nat
  origin : Nat
  kind : Nat
  grp : Nat
  code : Nat
  data : Bytes
  mac : Bytes
  unsent : Bool
  carried : Bool
  since : Stamp
deriving DecidableEq, Repr

/-- The change journal's ring and its drain (chapter 06). `entries` holds the unacknowledged entries in SEQ order; `awaiting` is the first SEQ and the number of entries of the one drain message that awaits admission. -/
structure Journal where
  entries : List JEntry
  lastSeq : Nat
  ackSeq : Nat
  sentSeq : Nat
  rstAck : Nat
  lastMac : Bytes
  lost : Nat
  awaiting : Option (Nat × Nat)
  loaded : Bool
deriving DecidableEq, Repr

/-- A deferred operation of the host port (R210): its transaction's SEQ and OP, and its result where it is known. -/
structure Deferred where
  seq : Nat
  op : Nat
  status : Nat
  stamp : Stamp
  data : List Word
  ready : Bool
deriving DecidableEq, Repr

/-- The host port (chapter 05): the previous transaction's SEQ and status, the response buffer, the deferred operation, the unlock windows by origin, the flash operation under way (command and address), and the words the port drove in the last transaction. -/
structure HostPort where
  prevSeq : Nat
  presult : Nat
  prevDeferred : Bool
  discnt : Nat
  rdy : Bool
  resp : List Word
  deferred : Option Deferred
  windows : KMap Nat
  flash : Option (Nat × Nat)
  miso : List Word
deriving DecidableEq, Repr

/-- A section of an image (Tables IMG-2 to IMG-4): for FIRMWARE, `recs` holds the code as one string, `cap` LOADADDR and `origins` ENTRY. -/
structure Sect where
  typ : Nat
  inst : Nat
  die : Nat
  recsize : Nat
  cap : Nat
  kind : Nat
  level : Nat
  origins : Nat
  recs : List Bytes
deriving DecidableEq, Repr

/-- An image: the header fields BUILD uses (Table IMG-1), its digest (R117) and its sections. -/
structure Image where
  slot : Nat
  gen : Nat
  svn : Nat
  flags : Nat
  keysel : Nat
  len : Nat
  digest : Bytes
  sects : List Sect
deriving DecidableEq, Repr

/-- BUILD and the image in force (chapter 03): the image in force, the slots still to be tried, the slot being tried, slot codes, and the fuses RUN entry still has to blow. -/
structure Img where
  image : Option Image
  trying : Option Nat
  rest : List Nat
  codeA : Nat
  codeB : Nat
  firstB : Bool
  buildMs : Nat
  committed : Bool
  fieldAnswer : Bool
  fieldCode : Nat
  fieldOk : Nat
  floorPend : Bool
  revokePend : Bool
  loaded : Bool
  live : KMap Bytes
  holds : KMap Nat
  recHolds : KMap Nat
deriving DecidableEq, Repr

/-- One-time programmable content: the version floor, revoked image keys, image key hashes, the root epoch fuses, the device UID, the factory defect map, the update authority key hash (which debug tokens use too, R864) and the transport seed (chapters 03, 12, 19, 21). -/
structure Otp where
  floor : Nat
  revoked0 : Bool
  revoked1 : Bool
  keyHash0 : Bytes
  keyHash1 : Bytes
  epoch : Nat
  uid : Bytes
  defects : List Bytes
  updHash : Bytes
  seed : Bytes
deriving DecidableEq, Repr

/-- The boot flash the device reads (R100, R231): its size in MiB, what its SFDP declares, and every byte that is not erased. -/
structure Flash where
  valid : Bool
  dens : Nat
  er4k : Bool
  er64k : Bool
  dtr : Bool
  mem : List Host.Cell
deriving DecidableEq, Repr

/-- An event in a gateway pipeline's port (R157, R159, R169): its ingress port, presentation stamp, event stamp, sequence number, its source kind of Table TIM-5, the body kind of Table GTW-2 (5 stands for the device's own signal update message, R373), the bytes it carries, and whether it ended in error. `mark` tells an internal submission apart (1 drain message, 2 SEND, 3 trace record). -/
structure Event where
  port : Nat
  pres : Stamp
  stamp : Stamp
  seq : Nat
  src : Nat
  kk : Nat
  body : Bytes
  err : Bool
  mark : Nat
deriving DecidableEq, Repr

/-- A frame in the fabric or in a queue: the fields of its cell header (Table FAB-1), its bytes, and the marks the gateway put on it. `id` is the model's own number of the frame; `ledger` tells that the ledger still holds its entry. -/
structure Frame where
  id : Nat
  pres : Stamp
  inport : Nat
  seq : Nat
  queue : Nat
  err : Bool
  dflags : Nat
  bytes : Bytes
  stamp : Stamp
  kk : Nat
  mark : Nat
deriving DecidableEq, Repr

/-- A ledger entry of an egress port (R319): queue, cells, model size in bytes, and the frame it stands for. -/
structure LEntry where
  queue : Nat
  cells : Nat
  size : Nat
  id : Nat
deriving DecidableEq, Repr

/-- An express pair carrying a frame: input, output, cells still to cross (R294). -/
structure XPair where
  i : Nat
  o : Nat
  left : Nat
deriving DecidableEq, Repr

/-- The fabric and its queues (chapters 07 and 08). `stopped0` and `out0` are the ports that were blocked or out of service, and out of service, before the changes of the tick being committed (R336). -/
structure Fabric where
  nextId : Nat
  ingress : List Event
  seqs : KMap Nat
  toAdmit : List Frame
  ordered : List Frame
  express : List Frame
  pairs : List XPair
  gptr : KMap Nat
  aptr : KMap Nat
  queues : KMap (List Frame)
  txing : KMap Frame
  occ : KMap Nat
  fifo : KMap (List LEntry)
  credit : KMap Nat
  takes : List (Nat × Nat)
  drrPtr : KMap Nat
  deficit : KMap Nat
  blocked : List Nat
  outSvc : List Nat
  stopped0 : List Nat
  out0 : List Nat
  pressure : Bool
  ofull : Bool
  xfull : Bool
  gbaslHeld : KMap Nat
  gbasePend : KMap Nat
  gate : KMap (Nat × Stamp × Nat)
  gateList : KMap (List Bytes)
  midOut : List Nat
deriving DecidableEq, Repr

/-- An open AVTPDU of an ENCAP port and the sequence numbers of a tunnel record (R378, R379). -/
structure Tunnel where
  msgs : Bytes
  count : Nat
  first : Stamp
  nextSeq : Nat
  lastSeq : Option Nat
deriving DecidableEq, Repr

/-- One entry of a staging list (R380): section instance, record index, and the record written, or none for a delete. -/
structure Staged where
  inst : Nat
  index : Nat
  data : Option Bytes
deriving DecidableEq, Repr

/-- The gateway's state beside its live tables (chapter 09): bucket levels with their ticks (R359), container payloads and the next boundary of each periodic container (R374, R375), tunnels, staging lists by origin, and the trace records of events classified since the last commit (R186). -/
structure Gateway where
  buckets : KMap (Nat × Nat)
  payloads : KMap Bytes
  boundary : KMap Nat
  tunnels : KMap Tunnel
  staging : KMap (List Staged)
  traces : List (Nat × Bytes)
deriving DecidableEq, Repr

/-- A transmit slot of a CAN controller (R409 to R415): the body it holds, the queue and presentation stamp of its frame, its place in the order of placement, its attempts since placement, whether it is in an attempt, and whether an abort waits for the attempt's end. -/
structure Slot where
  body : Bytes
  queue : Nat
  pres : Stamp
  order : Nat
  tries : Nat
  attempt : Bool
  abort : Bool
deriving DecidableEq, Repr

/-- A CAN FD controller (chapter 10): CAN.STAT.STATE, its error counters and codes, its slots, the timing in force (R398), the stamps of the transmit-stall reference (R416), and the frame of the attempt as it stands on the bus. -/
structure Can where
  state : Nat
  tec : Nat
  rxErr : Nat
  lec : Nat
  dlec : Nat
  tdcv : Nat
  slots : List (Option Slot)
  placed : Nat
  nbt : Nat
  dbt : Nat
  tdc : Nat
  cfg : Nat
  stopReq : Bool
  lastDone : Stamp
  lastAbort : Stamp
  stall : Bool
  wire : Option Bytes
deriving DecidableEq, Repr

/-- A selective-wake listener (R422 to R425). -/
structure Listener where
  armed : Bool
  fec : Nat
  fecOvf : Bool
deriving DecidableEq, Repr

/-- A publish buffer of a LIN controller (R430, R431, R433): data and fresh mark, with the tick of the last move into it and what stood there before. -/
structure LPub where
  data : Bytes
  fresh : Bool
  tick : Nat
  oldData : Bytes
  oldFresh : Bool
deriving DecidableEq, Repr

/-- A LIN controller (R428 to R438): LIN.STAT.STATE, the table running, the table to return to after an ALT table, the next slot of the table, the header outstanding (identifier, slot type, ALT), the response on the wire, requests that wait for the end of the slot, and publish buffers by identifier. -/
structure Lin where
  state : Nat
  table : Nat
  back : Option Nat
  pos : Nat
  slotRec : Nat
  header : Option (Nat × Nat × Nat)
  headerAt : Stamp
  wire : Bytes
  schedPend : Option Nat
  sleepPend : Bool
  pulse : Bool
  resume : Option Stamp
  pubs : KMap LPub
deriving DecidableEq, Repr

/-- A transmit timestamp record (R475). -/
structure TsRec where
  stamp : Stamp
  msgType : Nat
  domain : Nat
  seqId : Nat
deriving DecidableEq, Repr

/-- An Ethernet port (chapter 11): link, TC10 state (Table ETH-2), signal quality, Clause 37 completion, the transmit timestamp ring, attempts of the frame in transmission (R469), a PLCA restart that waits for the end of that frame (R470), the end of the transmission on the wire, and the last frame put on the wire. -/
structure Eth where
  link : Bool
  t1 : Nat
  sqi : Nat
  anDone : Bool
  ring : List TsRec
  attempts : Nat
  plcaRestart : Bool
  txEnd : Stamp
  wire : Bytes
deriving DecidableEq, Repr

/-- The Ethernet state beside the ports: shaper credits of (port, class) in millionths of a bit (R472), held PNL halves by register address (R486), the KEYH registers of associations whose key became unusable (R494), and the command of the MDIO frame under way (R458). -/
structure EthAll where
  ports : List Eth
  credit : KMap Int
  pnHeld : KMap Nat
  dead : List Nat
  mdio : Option Nat
deriving DecidableEq, Repr

/-- An entry of the key vault (Table KEY-1). -/
structure VaultEntry where
  handle : Nat
  usage : Nat
  gen : Nat
  key : Bytes
deriving DecidableEq, Repr

/-- A run-time key: its usage word, key and commit count (R522, R540). -/
structure RtKey where
  usage : Nat
  key : Bytes
  gen : Nat
deriving DecidableEq, Repr

/-- The pending and grace keys of a handle (R539 to R542): the pending key with the grace it grants in ticks, and the grace key with the tick at which it ends. -/
structure Role where
  pending : Option (Bytes × Nat)
  grace : Option (Bytes × Nat)
deriving DecidableEq, Repr

/-- An engine key slot in use: its handle, role (0 committed, 1 pending, 2 grace), whether it is resident, and its last use (R520, R521). -/
structure KSlot where
  handle : Nat
  role : Nat
  resident : Bool
  lastUse : Stamp
deriving DecidableEq, Repr

/-- Keys outside the keeper domain (chapter 12): run-time keys, roles, engine slots, the root message whose fuse is being asked for or blown (R536), and what the update endpoint last answered. -/
structure Keys where
  rt : KMap RtKey
  roles : KMap Role
  slots : KMap KSlot
  rootMsg : Option Bytes
  meshOpen : Bool
  caseA : Bool
  caseB : Bool
deriving DecidableEq, Repr

/-- The keeper domain (Table KEY-1): root, root state (Table KEY-2), vault, tamper log and arm bits, update counter, keeper counter, journal chain head, management counter floor, ageing map, whether the domain was lost since the last power-on, and a detection that waits for BUILD commit to be reported (R511). -/
structure Keeper where
  root : Bytes
  rootState : Nat
  vault : List VaultEntry
  tampSrc : Nat
  tampCount : Nat
  tampStamp : Stamp
  tampArm : Nat
  updCnt : Nat
  ctr : Nat
  jrnLast : Nat
  jrnAck : Nat
  jrnAckMac : Bytes
  jrnValid : Bool
  nmFloor : Nat
  ageing : KMap Bytes
  lost : Bool
  tampReport : Bool
  lostReport : Bool
deriving DecidableEq, Repr

/-- A row that the SP issues to the LME (Table CRY-1). -/
inductive LmeRow
  | mul (x k : Nat)
  | red (k : Nat)
  | clear
deriving DecidableEq, Repr

/-- A context of the LME (R553): the job that holds it, its operands and accumulator as numbers, and the row issued and not yet run. -/
structure LmeCtx where
  job : Nat
  b : Nat
  n : Nat
  ninv : Nat
  nb : Nat
  acc : Nat
  issued : Option LmeRow
deriving DecidableEq, Repr

/-- A key that a job installs when it ends (R571): usage word, grace in ms, target handle or 0xFFFF, and key. -/
structure Install where
  usage : Nat
  grace : Nat
  target : Nat
  key : Bytes
deriving DecidableEq, Repr

/-- A job of the SP (R556 to R594): its order (R562), its answer, its installations, the engine it needs (0 none, 1 LME, 2 AES, 3 SHA-2), its leave (0 not needed, 1 asked, 2 held), the context or lane it holds, SHA-2 blocks left, cycles owed after preemption, and the start of its wait. `work` tells other SP work apart: 0 a service request, 1 a debug token check. -/
structure SpJob where
  id : Nat
  prio : Nat
  take : Stamp
  reqport : Nat
  seq : Nat
  svc : Nat
  tag : Nat
  status : Nat
  result : Bytes
  installs : List Install
  engine : Nat
  leave : Nat
  ctx : Option Nat
  blocks : Nat
  owed : Nat
  since : Stamp
  work : Nat
deriving DecidableEq, Repr

/-- A public-key buffer (R575): algorithm, exponent, owner port plus one (0 none), bytes, and the bytes written as a bit mask. -/
structure Pkb where
  alg : Nat
  exp : Nat
  owner : Nat
  data : Bytes
  written : Nat
deriving DecidableEq, Repr

/-- The security processor and its engines (chapter 13). -/
structure Sp where
  nextId : Nat
  jobs : List SpJob
  lme : List (Option LmeCtx)
  lmeRun : Option Nat
  shaRun0 : Option Nat
  shaRun1 : Option Nat
  pkb : List Pkb
  health : Bool
  gens : Nat
deriving DecidableEq, Repr

/-- A message of the Tahr catalogue (Table TAHR-3): type, origin, crossing stamp, payload, and, at the receiver, its presentation stamp (R169). -/
structure XMsg where
  typ : Nat
  origin : Nat
  xstamp : Stamp
  payload : Bytes
  pres : Stamp
deriving DecidableEq, Repr

/-- A Tahr frame held for acknowledgement or after a gap (Table TAHR-2), with the number of times it was sent. -/
structure TFrame where
  typ : Nat
  seq : Nat
  origin : Nat
  xstamp : Stamp
  first : Bool
  last : Bool
  payload : Bytes
  sends : Nat
deriving DecidableEq, Repr

/-- One die's end of the Tahr link (chapter 14): frames waiting for the window, frames sent and not acknowledged, sequence numbers, the message being assembled, what the next header says (NAKSEQ, LANEREQ), the MININT references of sending and receiving, lanes retired in the direction it receives, training, the stamps of the last frame sent and the last heartbeat, the remote horizon, and whole messages not yet handled. -/
structure LinkEnd where
  waiting : List TFrame
  unacked : List TFrame
  nextSeq : Nat
  rxNext : Nat
  rxHeld : List TFrame
  part : Option XMsg
  nak : Option Nat
  laneReq : Option Nat
  txRef : KMap Stamp
  rxRef : KMap Stamp
  retired : Nat
  train : Bool
  lastTx : Stamp
  lastHb : Stamp
  rhz : Nat
  inbox : List XMsg
deriving DecidableEq, Repr

/-- A REMOTE request outstanding (R617, R213): requester, RID, OP, entries, and, for the host port, its transaction's SEQ. -/
structure RemoteReq where
  origin : Nat
  rid : Nat
  op : Nat
  entries : List (Nat × Nat)
  seq : Nat
deriving DecidableEq, Repr

/-- The host die's side of the Tahr link (chapter 14): its end, the link state, the last state, grant and digest the field die announced, FCAN credits, outstanding REMOTE requests, the TIMESYNC exchange in progress and the last offset, and what the host still has to transfer, and whether the field die has reported FRUN since the link came up (R630). -/
structure Tahr where
  link : Bool
  fmode : Nat
  fgrant : Bool
  fdigest : Bytes
  fe : LinkEnd
  credits : List Nat
  remote : List RemoteReq
  nextRid : Nat
  syncN : Nat
  syncT1 : Stamp
  ofs : Int
  xferWait : Bool
  startSent : Bool
  svc : Bool
deriving DecidableEq, Repr

/-- A fault event waiting for its tick (R756): its tick, source, DETAIL, stamp, and whether it is injected. -/
structure FEvent where
  tick : Nat
  src : Nat
  detail : Nat
  stamp : Stamp
  injected : Bool
deriving DecidableEq, Repr

/-- The first-source latch (R766). -/
structure FLatch where
  src : Nat
  cls : Nat
  react : Nat
  detail : Nat
  stamp : Stamp
deriving DecidableEq, Repr

/-- A fault collector (chapter 18): events of ticks not yet committed, rings of unit indices by source (newest last), the latch and its overflow, a write to SEV that takes effect after the tick's events (R164, R767), counts of events and classifications by source, and, on the field die, the reports that wait (R778). -/
structure Faults where
  pend : List FEvent
  rings : KMap (List Nat)
  latch : Option FLatch
  ovf : Bool
  clear : Bool
  events : KMap Nat
  classified : KMap Nat
  nseq : Nat
  reports : List Bytes
  active : Bool
deriving DecidableEq, Repr

/-- An island (Table REP-2): its role, the duty it serves or shadows (0xFF none), and the cause of its defect. -/
structure Island where
  role : Nat
  duty : Nat
  cause : Nat
deriving DecidableEq, Repr

/-- A shed visit or return under way (R815, R821): kind, duty, step, the spare, the freed island and the shadow's end. -/
structure Visit where
  kind : Nat
  duty : Nat
  step : Nat
  spare : Nat
  freed : Nat
  shadowEnd : Nat
deriving DecidableEq, Repr

/-- A repair controller (chapter 19): islands by code, duties out of service by code, a replay in progress by duty code (with the islands that replay), the visit under way, the return under way, the visit asked for first, the place in the rotation, the end of the last visit, corrected errors by row with their stamp, rows replaced by array, and islands and rows that are defective until the next reset only. -/
structure Repair where
  islands : KMap Island
  out : List Nat
  replay : List Nat
  visit : Option Visit
  ret : Option Visit
  asked : Option (Nat × Nat)
  rotation : Nat
  lastEnd : Stamp
  rowErr : KMap Stamp
  rowsUsed : KMap Nat
  rowPend : List (Nat × Nat)
  shedKind : Nat
  shedDuty : Nat
  retRes : Nat
deriving DecidableEq, Repr

/-- A budget request or grant: kind, instance, stamp, and the units a grant is charged (R840, R844). -/
structure Bud where
  kind : Nat
  inst : Nat
  stamp : Stamp
  charge : Nat
deriving DecidableEq, Repr

/-- A power-budget arbiter (chapter 20): waiting requests, grants held, grants to release and requests to withdraw at the next commit, and the highest in-use count. -/
structure Arbiter where
  q : List Bud
  held : List Bud
  release : List (Nat × Nat)
  withdraw : List (Nat × Nat)
deriving DecidableEq, Repr

/-- The state of a sinc filter (R646): integrators and comb memories, first stage first. -/
structure MFilt where
  integ : List Int
  comb : List Int
deriving DecidableEq, Repr

/-- A measurement channel (chapter 15): running, the stamp of its sample 0, its sample period, the next sample index, the L in force, its three filters, its last converter event with whether it was a start, outputs left to exclude after an L change, the window's outputs, sums and extremes, its flags, window number and first sample index. -/
structure MChan where
  run : Bool
  origin : Stamp
  period : Nat
  n : Nat
  l : Nat
  fm : MFilt
  fs : MFilt
  fp : MFilt
  evAt : Int
  lexcl : Nat
  outs : Nat
  count : Nat
  nsamp : Nat
  sum : Int
  sumsq : Int
  sumprod : Int
  excl : Nat
  min : Int
  max : Int
  tmin : Stamp
  tmax : Stamp
  flags : Nat
  wseq : Nat
  open_ : Nat
  win : Nat
deriving DecidableEq, Repr

/-- The mains detector (R652, R653): the index of the last sample, the indices of the last crossings (newest first), and whether the latest sample outside the band lay at or below −HYS. -/
structure Mains where
  n : Nat
  cross : List Nat
  below : Bool
  lcur : Nat
deriving DecidableEq, Repr

/-- A converter calibration in service (R667, R670): duty and the step it stands at; for the host sense converter, the stamp at which it stopped (0 while leave is awaited). -/
structure Calib where
  duty : Nat
  step : Nat
deriving DecidableEq, Repr

/-- A measurement cluster: channels by number, last closed records by channel, records closed in the present tick or waiting (the record queue of the field die), the mains detector, the calibration in service and its last error. -/
structure Meas where
  chans : KMap MChan
  last : KMap Bytes
  queue : List (Nat × Bytes)
  lastSend : Option Nat
  mains : Mains
  calReq : List Nat
  cal : Option Calib
  calErr : Nat
  calAgain : List Nat
deriving DecidableEq, Repr

/-- A touch channel (R672): state (Table MEAS-15), baseline, the highest reading of NOT_READY, successive readings counted, readings since the last baseline step, the stamp of the press, and for the STANDBY scan, readings counted and whether it takes part; and the reading with its stamp that waits to be taken. -/
structure Touch where
  st : Nat
  base : Int
  hi : Int
  run : Nat
  div : Nat
  t0 : Stamp
  first : Bool
  scan : Nat
  scanOk : Bool
  reading : Option (Int × Stamp)
deriving DecidableEq, Repr

/-- A block stamp (R693, R700, R703). -/
structure BStamp where
  stamp : Stamp
  block : Nat
  resync : Bool
deriving DecidableEq, Repr

/-- A framed audio port, TDM or IEC 60958 (chapter 16): running, locked; the frame count of the frame on the wire or next to come, frames received since start or lock (4 at most), the frame count after the last one received, the ring frame last written; the last edge, successive valid frames (for a receiver, frames since its last B preamble) and the edge that began the present block; whether the present block is whole, whether the next stamp is the first after a resynchronisation; block-stamp FIFO, the two most recent block stamps with their first frames; rings (receive, transmit) by word index; the configuration in force (R714); the ticks of a CSCOMMIT and UCOMMIT that wait and what they commit; channel-status and user bits in force (received, or sent), a V bit seen, the last words of a receiver's channels, MUTENA's zeroing, the words on the wire, and a stop that waits for the end of the frame. -/
structure APort where
  run : Bool
  lock : Bool
  frame : Nat
  count : Nat
  rxf : Nat
  lastEdge : Option Stamp
  good : Nat
  blockAt : Stamp
  whole : Bool
  resync : Bool
  fifo : List BStamp
  b1 : Option (Stamp × Nat)
  b2 : Option (Stamp × Nat)
  rx : KMap Word
  tx : KMap Word
  cfg : KMap Nat
  csCommit : Option Nat
  uCommit : Option Nat
  cs : Bytes
  ub : Bytes
  newCs : Bytes
  newUb : Bytes
  vseen : Bool
  lastA : Nat
  lastB : Nat
  mute : Bool
  sent : List Word
  stopReq : Bool
deriving DecidableEq, Repr

/-- An AAF endpoint (R707 to R713): the talker's next sample number, its sequence number, mr, tv (R720) and the sample frames gathered; the listener's last sequence number, its queue of sample frames with their instants, the samples presented last with their instants (newest first), and whether it outputs 0. -/
structure AEp where
  talk : Bool
  nextI : Nat
  seqNo : Nat
  mr : Bool
  tv : Bool
  gather : List (Stamp × List Word)
  lastSeq : Option Nat
  queue : List (Stamp × List Word)
  shown : List (Stamp × List Word)
  silent : Bool
  cfg : KMap Nat
deriving DecidableEq, Repr

/-- A gain ramp (R729): the gain at its start, its target, and its first graph sample. -/
structure Ramp where
  old : Nat
  new : Nat
  i0 : Nat
deriving DecidableEq, Repr

/-- An output node (Table AUDA-4): state, its gain u as a ramp, the end of PRECHARGE or DISCHARGE, an EN write that waits for OFF (R749), whether a fault's cause still stands, successive 0 samples delivered to it, and the last output sample. -/
structure AOut where
  st : Nat
  u : Ramp
  at_ : Stamp
  again : Bool
  cause : Bool
  zeros : Nat
  last : Int
deriving DecidableEq, Repr

/-- An offset calibration in service (R746, R747): node, whether it was forced, its phase (0 ramping down and holding, 1 waiting for leave, 2 calibrating), and the graph sample or instant at which the phase may end. -/
structure ACal where
  node : Nat
  forced : Bool
  phase : Nat
  at_ : Nat
deriving DecidableEq, Repr

/-- A biquad section's coefficients in force and its state words x[n−1], x[n−2], y[n−1], y[n−2] (R734); coefficients that a COMMIT makes effective from a graph sample on (R735). -/
structure Biquad where
  co : List Int
  next : Option (Nat × List Int)
  mem : List Int
deriving DecidableEq, Repr

/-- A band analyser (R743): running, its first sample, window number, samples gathered, the window's WIN, energies, flags and the τ of its first sample. -/
structure Band where
  run : Bool
  i0 : Nat
  wseq : Nat
  cnt : Nat
  win : Nat
  e : List Nat
  flags : Nat
  opened : Stamp
deriving DecidableEq, Repr

/-- The audio subsystem (chapters 16 and 17). `words` holds the last word of each graph node by kind × 256 + index; `hist` holds the graph samples that outbound converters and delayed ports still need, newest first. -/
structure Audio where
  tdm : List APort
  bpt : List APort
  bpr : List APort
  ep : List AEp
  gi : Nat
  gains : KMap Ramp
  words : KMap Int
  hist : KMap (List (Nat × Int))
  play : KMap Word
  cap : KMap Word
  spk : AOut
  dac : List AOut
  inAt : KMap Nat
  bq : KMap Biquad
  bands : List Band
  bandRec : KMap Bytes
  bandOut : List (Nat × Bytes)
  limG : Nat
  limTc : Int
  limTm : Int
  limE : Nat
  limCnt : Nat
  det : KMap Nat
  detBusy : KMap Nat
  mic : List (Nat × Nat)
  spkRes : Nat
  cal : Option ACal
  calRes : Nat
  adcQuiet : KMap Nat
  asrcOff : KMap Nat
deriving DecidableEq, Repr

/-- The debug access state (chapter 21): whether a session is open, the challenge, the last result code, the grant, the session's end, the end of a block (R865), the token under check with the tick of its Update-DR, the tick after the last change of the update counter, halted harts, program buffers, the TAP's instruction, data and boundary scan registers, whether EXTEST drives the pins, the error fields sberror and cmderr of the two Debug Modules with the last words of sbdata0 and data0, the harts' LR/SC reservations, whether the MP runs, and where each hart was last started. -/
structure Dbg where
  open_ : Bool
  chal : Bytes
  result : Nat
  grant : Nat
  until_ : Stamp
  blockEnd : Option Stamp
  token : Option Bytes
  tokTick : Nat
  cntTick : Nat
  haltMp : Bool
  haltFs : Bool
  progMp : List Word
  progFs : List Word
  ir : Nat
  dr : Nat
  bsr : Bytes
  extest : Bool
  sbMp : Nat
  sbFs : Nat
  sbdMp : Nat
  sbdFs : Nat
  datMp : Nat
  datFs : Nat
  cmdMp : Nat
  cmdFs : Nat
  lrMp : Bool
  lrFs : Bool
  mpRun : Bool
  mpAt : Nat
  fsAt : Nat
deriving DecidableEq, Repr

/-- The field die (chapters 02, 14, 15): its state, its follower counter's offset from SYSCNT, the hold line and host grant it sees, the PERMIT generator, the watchdog's deadline, its end of the link, held messages, mailbox FIFO, image transfer, and its units. -/
structure FieldDie where
  state : FState
  ofs : Int
  aligned : Bool
  hold : Bool
  hostGrant : Bool
  permit : Bool
  granted : Bool
  rberr : Bool
  cause : Nat
  wdog : Option Stamp
  wdExpired : Bool
  fsRun : Bool
  fe : LinkEnd
  held : List XMsg
  fifo : List XMsg
  rbuf : Bytes
  tbuf : Bytes
  entries : List (Nat × Bytes)
  data : List (Nat × Bytes)
  sects : List Sect
  digest : Bytes
  newDigest : Bytes
  synced : Bool
  inbox : List (List Bytes)
  can : List Can
  statusNext : Nat
  flt : Faults
  rep : Repair
  arb : Arbiter
  meas : Meas
  windows : KMap Nat
  holds : KMap Nat
  matrix : List Bytes
  jout : List Bytes
deriving DecidableEq, Repr

/-- Everything of the host die that a host-die reset reinitialises (R68), beside its registers. -/
structure HostDie where
  port : HostPort
  jrn : Journal
  img : Img
  fab : Fabric
  gtw : Gateway
  can : List Can
  listeners : List Listener
  lin : List Lin
  eth : EthAll
  keys : Keys
  sp : Sp
  tahr : Tahr
  meas : Meas
  touch : List Touch
  touchEv : List (Nat × Nat × Stamp)
  pseq : Nat
  aud : Audio
  flt : Faults
  rep : Repair
  arb : Arbiter
  dbg : Dbg
deriving DecidableEq, Repr

/-- The machine: the commands that wait, the model's counter of free values, and everything the spec gives the two dies, the keeper domain, the fuses and the boot flash. `regs` holds the stored value of every register that is not 0: host registers below 0x800000, the remote blocks from there on, a bank of an origin at origin × 0x1000000 + address, and the FCAN pages of the field die at 0x20000000 + address. -/
structure State where
  pending : List Instr
  free : Nat
  sys : Sys
  time : Time
  keeper : Keeper
  otp : Otp
  flash : Flash
  regs : KMap Word
  h : HostDie
  f : FieldDie
deriving DecidableEq, Repr


/-! ## Reset values -/

/-- The wake arbiter's record after a power-on reset (Table MOD-15). -/
def Wake.reset : Wake := ⟨false, false, false, [], 0x1F, 0x1F, 0, 0, 0, none, false⟩

/-- The host die right after a power-on reset that ended No supply (R71, R78, Tables MOD-9 and MOD-11). -/
def Sys.reset : Sys :=
  { mode := .build, entering := false, inReset := none, holdLine := true, safeOut := .high, rstCause := 0x41,
    keepOk := false, noImg := false, vsupH := true, vkeep := true, vsupF := true, vspkOk := false, vio18 := false,
    refOk := true, wake := Wake.reset, int0 := false, int1 := false, buildAt := 0, drainAt := 0, degOrigin := 6 }

/-- SYSCNT right after a reset with the keeper counter lost (R71). -/
def Time.reset : Time :=
  { edge := 0, now := 0, running := true, rate := 0, rateNext := none, nowh := 0, ptpofs := 0, ofslHeld := none,
    falign := 0, fbad := 0, fgood := 0, rhorizon := 0 }

/-- The journal after a reset, its continuity not yet loaded (R264). -/
def Journal.reset : Journal := ⟨[], 0, 0, 0, 0, List.replicate 8 0, 0, none, false⟩

/-- The host port after a reset (R203). -/
def HostPort.reset : HostPort := ⟨0, 0, false, 0, false, [], none, [], none, []⟩

/-- No image. -/
def Img.reset : Img := ⟨none, none, [], 0, 0, false, 0, false, false, 0, 0, false, false, false, [], [], []⟩

/-- The fuses of a device with none programmed. DESIGN CHOICE, log entry 3. -/
def Otp.reset : Otp := ⟨0, false, false, List.replicate 48 0, List.replicate 48 0, 0, List.replicate 16 0, [], List.replicate 48 0, List.replicate 32 0⟩

/-- A boot flash with every byte erased. DESIGN CHOICE, log entry 3. -/
def Flash.reset : Flash := ⟨true, 16, true, true, false, []⟩

/-- The fabric with nothing in it. -/
def Fabric.reset : Fabric :=
  ⟨0, [], [], [], [], [], [], [], [], [], [], [], [], [], [], [], [], [], [], [], [], false, false, false, [], [], [], [], []⟩

/-- The gateway with nothing in it. -/
def Gateway.reset : Gateway := ⟨[], [], [], [], [], []⟩

/-- A CAN controller at its reset values. -/
def Can.reset : Can := ⟨0, 0, 0, 0, 0, 0, List.replicate 8 none, 0, 0, 0, 0, 0, false, 0, 0, false, none⟩

/-- A LIN controller at its reset values. -/
def Lin.reset : Lin := ⟨0, 0, none, 0, 0, none, 0, [], none, false, false, none, []⟩

/-- An Ethernet port at its reset values. -/
def Eth.reset : Eth := ⟨false, 0, 0, false, [], 0, false, 0, []⟩

/-- The Ethernet subsystem at its reset values. -/
def EthAll.reset : EthAll := ⟨List.replicate 12 Eth.reset, [], [], [], none⟩

/-- No key outside the keeper domain. -/
def Keys.reset : Keys := ⟨[], [], [], none, false, false, false⟩

/-- The keeper domain of a part as shipped, whose root state is BLANK (Table KEY-2, R265). -/
def Keeper.reset : Keeper :=
  { root := List.replicate 32 0, rootState := 3, vault := [], tampSrc := 0, tampCount := 0, tampStamp := 0, tampArm := 0,
    updCnt := 0, ctr := 0, jrnLast := 0, jrnAck := 0, jrnAckMac := List.replicate 8 0, jrnValid := false, nmFloor := 0,
    ageing := [], lost := true, tampReport := false, lostReport := false }

/-- The security processor idle. -/
def Sp.reset : Sp := ⟨0, [], List.replicate 4 none, none, none, none, List.replicate 4 ⟨0, 0, 0, List.replicate 1024 0, 0⟩, true, 0⟩

/-- An end of the Tahr link before training (R603). -/
def LinkEnd.reset : LinkEnd := ⟨[], [], 0, 0, [], none, none, none, [], [], 0, true, 0, 0, 0, []⟩

/-- The host side of the Tahr link, down. -/
def Tahr.reset : Tahr := ⟨false, 0, false, [], LinkEnd.reset, List.replicate 8 0, [], 0, 0, 0, 0, false, false, false⟩

/-- A fault collector with nothing captured. -/
def Faults.reset : Faults := ⟨[], [], none, false, false, [], [], 0, [], false⟩

/-- A repair controller without islands, before BUILD. -/
def Repair.reset : Repair := ⟨[], [], [], none, none, none, 0, 0, [], [], [], 0, 0, 0⟩

/-- An arbiter with nothing asked or held. -/
def Arbiter.reset : Arbiter := ⟨[], [], [], []⟩

/-- A sinc filter of zeros. -/
def MFilt.reset : MFilt := ⟨[0, 0, 0], [0, 0, 0]⟩

/-- A measurement cluster at rest. -/
def Meas.reset : Meas := ⟨[], [], [], none, ⟨0, [], false, 0⟩, [], none, 0, []⟩

/-- A touch channel that has not been read. -/
def Touch.reset : Touch := ⟨0, 0, 0, 0, 0, 0, true, 0, false, none⟩

/-- An audio port at rest. -/
def APort.reset : APort :=
  { run := false, lock := false, frame := 0, count := 0, rxf := 0, lastEdge := none, good := 0, blockAt := 0,
    whole := false, resync := false, fifo := [], b1 := none, b2 := none, rx := [], tx := [], cfg := [], csCommit := none,
    uCommit := none, cs := List.replicate 48 0, ub := List.replicate 48 0, newCs := List.replicate 48 0,
    newUb := List.replicate 48 0, vseen := false, lastA := 0, lastB := 0, mute := false, sent := [], stopReq := false }

/-- An AAF endpoint at rest. -/
def AEp.reset : AEp := ⟨false, 0, 0, false, false, [], none, [], [], true, []⟩

/-- An output node that is OFF. -/
def AOut.reset : AOut := ⟨0, ⟨0, 0, 0⟩, 0, false, false, 2400, 0⟩

/-- The audio subsystem at rest. -/
def Audio.reset : Audio :=
  { tdm := List.replicate 4 APort.reset, bpt := List.replicate 2 APort.reset, bpr := List.replicate 2 APort.reset,
    ep := List.replicate 8 AEp.reset, gi := 0, gains := [], words := [], hist := [], play := [], cap := [],
    spk := AOut.reset, dac := List.replicate 2 AOut.reset, inAt := [], bq := [],
    bands := List.replicate 8 ⟨false, 0, 0, 0, 0, [], 0, 0⟩, bandRec := [], bandOut := [],
    limG := 4096, limTc := 0, limTm := 0, limE := 0, limCnt := 0, det := [], detBusy := [], mic := [], spkRes := 0,
    cal := none, calRes := 0, adcQuiet := [], asrcOff := [] }

/-- Debug locked. -/
def Dbg.reset : Dbg :=
  { open_ := false, chal := List.replicate 16 0, result := 0, grant := 0, until_ := 0, blockEnd := none, token := none,
    tokTick := 0, cntTick := 0, haltMp := false, haltFs := false, progMp := List.replicate 8 0, progFs := List.replicate 8 0,
    ir := 1, dr := 0, bsr := [], extest := false, sbMp := 0, sbFs := 0, sbdMp := 0, sbdFs := 0, datMp := 0, datFs := 0, cmdMp := 0, cmdFs := 0, lrMp := false, lrFs := false,
    mpRun := false, mpAt := 0, fsAt := 0 }

/-- The field die right after its power-on reset: WAIT (Table MOD-5). -/
def FieldDie.reset : FieldDie :=
  { state := .wait, ofs := 0, aligned := false, hold := true, hostGrant := false, permit := false, granted := false,
    rberr := false, cause := 0, wdog := none, wdExpired := false, fsRun := false, fe := LinkEnd.reset, held := [], fifo := [],
    rbuf := [], tbuf := [], entries := [], data := [], sects := [], digest := [], newDigest := [], synced := false,
    inbox := List.replicate 8 [], can := List.replicate 8 Can.reset, statusNext := 0, flt := Faults.reset,
    rep := Repair.reset, arb := Arbiter.reset, meas := Meas.reset, windows := [], holds := [], matrix := [], jout := [] }

/-- Everything a host-die reset reinitialises, at its reset value (R68). -/
def HostDie.reset : HostDie :=
  { port := HostPort.reset, jrn := Journal.reset, img := Img.reset, fab := Fabric.reset, gtw := Gateway.reset,
    can := List.replicate 24 Can.reset, listeners := List.replicate 8 ⟨false, 0, false⟩, lin := List.replicate 8 Lin.reset,
    eth := EthAll.reset, keys := Keys.reset, sp := Sp.reset, tahr := Tahr.reset, meas := Meas.reset,
    touch := List.replicate 4 Touch.reset, touchEv := [], pseq := 0, aud := Audio.reset, flt := Faults.reset,
    rep := Repair.reset, arb := Arbiter.reset, dbg := Dbg.reset }

/-- The registers whose Reset column is not 0 and that hold a stored value, at that value: TIM.TRACECTL.PORT is 80 (chapter 04). -/
def regsReset : KMap Word := [(0x30024, 0x5000)]

/-- The machine right after the power-on reset that ends No supply (R71, R78, Table MOD-6): SYSCNT at 0, mode BUILD before BUILD starts, the field die in WAIT, no command waiting. -/
def State.reset : State :=
  { pending := [], free := 0, sys := Sys.reset, time := Time.reset, keeper := Keeper.reset, otp := Otp.reset,
    flash := Flash.reset, regs := regsReset, h := HostDie.reset, f := FieldDie.reset }

end Sys2Proof.Machine
end

