-- ==== Sys2Proof/Machine/Ops.lean ====
section
/-! DEFINITION. The shared operations over the state: registers, time, faults and interrupts, the image in force, key derivation, the change journal, modes and pins, queues, submissions, and free values. -/

namespace Sys2Proof.Machine

open Sys2Proof

/-! ## The register file -/

/-- The value of an address in a register file; an address that is not listed reads 0. -/
def RegFile.get (m : KMap Word) (a : Nat) : Word := (KMap.get? m a).getD 0

/-- The register file with an address set; a value of 0 takes the address off the list, so that equal files are equal lists. -/
def RegFile.set (m : KMap Word) (a : Nat) (v : Word) : KMap Word :=
  if v = 0 then KMap.del m a else KMap.put m a v

/-- The register file is in its canonical form: keys rising, no value 0. -/
def RegFile.wf (m : KMap Word) : Bool := KMap.rising none m && m.all (fun p => decide (p.2 ≠ 0))

/-- The stored value of a register, as a number. -/
def reg (s : State) (a : Nat) : Nat := (RegFile.get s.regs a).toNat

/-- The state with a register's stored value set. -/
def setReg (s : State) (a v : Nat) : State := { s with regs := RegFile.set s.regs a (BitVec.ofNat 32 v) }

/-- A field of a register. -/
def fieldOf (s : State) (a lo w : Nat) : Nat := bits (reg s a) lo w

/-- The state with a field of a register set. -/
def setField (s : State) (a lo w x : Nat) : State := setReg s a (putBits (reg s a) lo w x)

/-- A saturating count in a field of a register raised by `n`. -/
def bump (s : State) (a lo w n : Nat) : State := setField s a lo w (satAdd w (fieldOf s a lo w) n)

/-- Registers of a range of addresses taken out of the file. -/
def dropRegs (m : KMap Word) (p : Nat → Bool) : KMap Word := m.filter (fun e => !p e.1)

/-- The key of a register in the file: a banked register has one cell per origin (R222, R943). -/
def bankKey (d : RegDef) (o : Origin) (a : Nat) : Nat := if d.bank then o.code * 0x1000000 + a else a

/-! ## Time -/

/-- The ordering tick of a stamp, SYSCNT[63:3] (R158). -/
def tickOf (t : Stamp) : Nat := t / 8

/-- The tick whose events are being committed (R163): its commit ends with the next TICK_COMMIT. -/
def curTick (s : State) : Nat := tickOf s.time.now

/-- The tick SYSCNT stands in, the k of R163: the ticks up to k - 2 have committed. -/
def sysTick (s : State) : Nat := curTick s + 1

/-- The ticks of `n` milliseconds (125,000 ticks each). -/
def msTicks (n : Nat) : Nat := n * 125000

/-- A late stamp (R167): its tick has committed before it arrives. -/
def isLate (s : State) (t : Stamp) : Bool := decide (tickOf t + 2 ≤ sysTick s)

/-- The stamp of the follower counter of the field die for the events being committed (R620): the host die's stamp and the follower's offset. -/
def fnow (s : State) : Stamp := ((s.time.now : Int) + s.f.ofs).toNat

/-! ## Fault events and interrupts -/

/-- A fault source's event, stamped now and left for the commit of its tick (R757, R762). -/
def raise (src detail : Nat) (s : State) : State :=
  if src < 0x100 then { s with h.flt.pend := s.h.flt.pend ++ [⟨curTick s, src, detail % 256, s.time.now, false⟩] }
  else { s with f.flt.pend := s.f.flt.pend ++ [⟨tickOf (fnow s), src, detail % 256, fnow s, false⟩] }

/-- An event bit of SYS.INTSTAT set (Table HOST-13). -/
def setInt (i : Nat) (s : State) : State := setField s 0x4C i 1 1

/-- An event that reaches its island late is dropped and counted, and the late-stamp source is raised (R167). -/
def dropLate (s : State) : State := raise 0x051 0 (bump s 0x30020 0 16 1)

/-! ## The image in force -/

/-- The section of a type and instance in the image in force. -/
def sect? (s : State) (typ inst : Nat) : Option Sect :=
  match s.h.img.image with
  | none => none
  | some im => im.sects.find? (fun c => c.typ == typ && c.inst == inst)

/-- The records of a section in the image in force. -/
def recs (s : State) (typ inst : Nat) : List Bytes :=
  match sect? s typ inst with
  | some c => c.recs
  | none => []

/-- The level the permission matrix grants an origin for a block: 0 where no record exists (R136). -/
def permLevel (s : State) (o : Origin) (block : Nat) : Nat :=
  match (recs s 0x0A 0).find? (fun r => fieldLE r 0 1 == o.code && fieldLE r 1 1 == block) with
  | some r => fieldLE r 2 1
  | none => 0

/-- The origins the permission matrix governs (R137). -/
def Origin.governed : Origin → Bool
  | .imageLoad => false
  | .faultReaction => false
  | .repair => false
  | .device => false
  | _ => true

/-- The range of a field: that of its REG_INIT record, or of its own table (R18, R112). -/
def fieldRange (s : State) (a : Nat) (f : Field) : Int × Int :=
  match (recs s 0x0C (if isRemote a then 1 else 0)).find?
      (fun r => fieldLE r 0 4 == a && fieldLE r 4 1 == f.lo) with
  | some r =>
    if f.signed then (toSigned 32 (fieldLE r 12 4), toSigned 32 (fieldLE r 16 4))
    else ((fieldLE r 12 4 : Int), (fieldLE r 16 4 : Int))
  | none => (f.min, f.max)

/-! ## Usage words (R516, R517) -/

/-- KTYPE of a usage word. -/
def ktype (u : Nat) : Nat := bits u 13 3

/-- A usage word that R516 and R517 allow. -/
def usageOk (u : Nat) : Bool :=
  decide (ktype u ≤ 3) && !bit u 12 && decide (u < 65536) &&
  (decide (2 ≤ ktype u) || bits u 8 2 == 0) &&
  (decide (ktype u ≤ 1) || (bits u 0 8 == 0 && bits u 10 2 == 0)) &&
  (!bit u 7 || ktype u == 1)

/-- The output length L in bits of a key type (Table KEY-4). -/
def ktypeBits (kt : Nat) : Nat := match kt with | 0 => 128 | 1 => 256 | 2 => 320 | _ => 448

/-- The bytes of a key of a type: 16, 32, 32 and 48 (Tables KEY-4, KEY-9). -/
def ktypeBytes (kt : Nat) : Nat := match kt with | 0 => 16 | 1 => 32 | 2 => 32 | _ => 48

/-! ## Derivation (R514, R515) -/

/-- The order n of P-256 or P-384 (FIPS 186-5, SP 800-186). -/
def curveOrder (kt : Nat) : Nat :=
  if kt = 2 then 0xFFFFFFFF00000000FFFFFFFFFFFFFFFFBCE6FAADA7179E84F3B9CAC2FC632551
  else 0xFFFFFFFFFFFFFFFFFFFFFFFFFFFFFFFFFFFFFFFFFFFFFFFFC7634D81F4372DDF581A0DB248B0A77AECEC196ACCC52973

/-- The KDF of R514: the first L bits of T[1] to T[n], with the context the caller gives (UID and the usage word). -/
def kdf (parent label context : Bytes) (l : Nat) : Bytes :=
  ((List.range (ceilDiv l 128)).flatMap (fun i =>
    padTo 16 (Config.cmac parent (be 4 (i + 1) ++ label ++ [0] ++ context ++ be 4 l)))).take (l / 8)

/-- A derived key of a parent (R514, R515): AES key bytes, or the ECC private key as bytes. -/
def deriveKey (uid parent label : Bytes) (usage : Nat) : Bytes :=
  let kt := ktype usage
  let k := kdf parent label (uid ++ be 2 usage) (ktypeBits kt)
  if kt ≤ 1 then k else be (ktypeBytes kt) (beNat k % (curveOrder kt - 1) + 1)

/-- The ASCII bytes of a label. -/
def ascii (t : String) : Bytes := t.toList.map (fun c => byte c.toNat)

/-- Label and usage word of an internal key (Table KEY-6). -/
def internalKey (h : Nat) : Option (Bytes × Nat) :=
  match h with
  | 1 => some (ascii "JRN", 0x2001)
  | 2 => some (ascii "MEAS", 0x2001)
  | 3 => some (ascii "UPD", 0x2061)
  | 4 => some (ascii "DBG", 0x2001)
  | _ => none

/-- The root state is VALID. -/
def rootValid (s : State) : Bool := s.keeper.rootState == 0

/-- The KEY_POLICY record of a handle, with its index. -/
def policyRec (s : State) (h : Nat) : Option Bytes := (recs s 0x0D 0).find? (fun r => fieldLE r 0 2 == h)

/-- The key of a KEY_POLICY record: derived through its parents, at most four deep (R519). -/
def policyKey (s : State) : Nat → Bytes → Bytes
  | 0, _ => []
  | n + 1, r =>
    let label := slice r 12 (fieldLE r 8 1)
    let parent := if fieldLE r 2 1 = 0xFF then s.keeper.root
      else match (recs s 0x0D 0)[fieldLE r 2 1]? with
        | some p => policyKey s n p
        | none => []
    deriveKey s.otp.uid parent label (fieldLE r 4 2)

/-- The key of an internal handle, where the root is VALID (R506). -/
def internalKeyOf (s : State) (h : Nat) : Option Bytes :=
  if rootValid s then (internalKey h).map (fun p => deriveKey s.otp.uid s.keeper.root p.1 p.2) else none

/-- The journal key (R252), none while the root is not VALID (R253). -/
def journalKey (s : State) : Option Bytes := internalKeyOf s 1

/-- CMAC under a key, 16 bytes. -/
def cmacBytes (k msg : Bytes) : Bytes := padTo 16 (Config.cmac k msg)

/-- The vault entry of a handle. -/
def vaultEntry (s : State) (h : Nat) : Option VaultEntry := s.keeper.vault.find? (fun e => e.handle == h)

/-- The committed key of a handle with its usage word: derived, injected or run-time (R522, R524). -/
def committedKey (s : State) (h : Nat) : Option (Nat × Bytes) :=
  if !rootValid s then none
  else match vaultEntry s h with
  | some e => some (e.usage, e.key)
  | none =>
    match policyRec s h with
    | some r => some (fieldLE r 4 2, policyKey s 4 r)
    | none => (KMap.get? s.h.keys.rt h).map (fun k => (k.usage, k.key))

/-- The key of a handle for an operation: its usage word holds the operation's bit (R524). Internal handles serve no caller (R518). -/
def usableKey (s : State) (h ubit : Nat) : Option (Nat × Bytes) :=
  match committedKey s h with
  | some (u, k) => if bit u ubit then some (u, k) else none
  | none => none

/-- The commit count of a handle (KEY.HGEN). -/
def keyGen (s : State) (h : Nat) : Nat :=
  match vaultEntry s h with
  | some e => e.gen
  | none => match KMap.get? s.h.keys.rt h with | some k => k.gen | none => 0

/-- The pending and grace keys of a handle. -/
def roleOf (s : State) (h : Nat) : Role := KMap.getD s.h.keys.roles h ⟨none, none⟩

/-- The state with a handle's roles set; a handle without either is not listed. -/
def setRole (h : Nat) (r : Role) (s : State) : State :=
  { s with h.keys.roles := if r.pending.isNone && r.grace.isNone then KMap.del s.h.keys.roles h else KMap.put s.h.keys.roles h r }

/-! ## The change journal -/

/-- Entries written and not yet acknowledged: (LASTSEQ − ACKSEQ) modulo 2^32. -/
def jFill (j : Journal) : Nat := (j.lastSeq + 2 ^ 32 - j.ackSeq) % 2 ^ 32

/-- The free space of the ring. -/
def jFree (j : Journal) : Nat := 2048 - jFill j

/-- Bytes 0x00 to 0x17 of an entry (Table JRN-2). -/
def jHead (e : JEntry) : Bytes :=
  le 8 e.stamp ++ le 4 e.seq ++ [byte e.origin, byte e.kind, byte e.grp, byte e.code] ++ padTo 8 e.data

/-- The chain MAC of an entry (R252), or none where no journal key exists (R253). -/
def jMac (s : State) (prev : Bytes) (e : JEntry) : Option Bytes :=
  match journalKey s with
  | none => none
  | some k =>
    let digest := match s.h.img.image with
      | some im => if e.kind = 3 then im.digest else []
      | none => []
    some ((cmacBytes k (prev ++ jHead e ++ digest)).take 8)

/-- The stored MAC of an entry by its SEQ. -/
def jMacOf (j : Journal) (seq : Nat) : Option Bytes :=
  (j.entries.find? (fun e => e.seq == seq)).map (fun e => e.mac)

/-- The chain head kept in the keeper domain (R263). -/
def jKeep (s : State) : State :=
  { s with keeper.jrnLast := s.h.jrn.lastSeq, keeper.jrnAck := s.h.jrn.ackSeq, keeper.jrnValid := true }

/-- One entry written: SEQ one above the last, chained from the last MAC (R247, R252). The fill reaching THRESH sets SYS.INTSTAT.JRN (R262). -/
def jPut (stamp origin kind grp code : Nat) (data : Bytes) (s : State) : State :=
  let seq := (s.h.jrn.lastSeq + 1) % 2 ^ 32
  let e0 : JEntry := ⟨stamp, seq, origin, kind, grp, code, padTo 8 data, List.replicate 8 0, true, false, s.time.now⟩
  let before := jFill s.h.jrn
  let mac := jMac s s.h.jrn.lastMac e0
  let e := { e0 with mac := mac.getD (List.replicate 8 0) }
  let s := { s with
    h.jrn.entries := s.h.jrn.entries ++ [e], h.jrn.lastSeq := seq,
    h.jrn.lastMac := mac.getD s.h.jrn.lastMac }
  let thr := fieldOf s 0x10010 16 12
  let s := if decide (before < thr) && decide (thr ≤ jFill s.h.jrn) then setInt 6 s else s
  jKeep s

/-- The entries of one change, each a kind, a code and its data, in segments of at most 256 whose GRP counts down to 0 and whose CODE bit 7 tells whether another follows (R248). `left` is the number of entries still to write. -/
def jSegments (stamp origin : Nat) : List (Nat × Nat × Bytes) → Nat → State → State
  | [], _, s => s
  | (kind, code, data) :: r, seg, s =>
    let left := r.length + 1
    let segLeft := if seg = 0 then min 256 left else seg
    let more := if left > segLeft then 0x80 else 0
    jSegments stamp origin r (segLeft - 1) (jPut stamp origin kind (segLeft - 1) (code + more) data s)

/-- A change journalled whole; where not even the reserve holds it, it is counted in JRN.LOST (R260). Before the IMAGE entry of a BUILD, which is the first entry after a reset (R264), nothing is written. -/
def jChange (stamp : Stamp) (origin : Nat) (es : List (Nat × Nat × Bytes)) (s : State) : State :=
  if es.isEmpty || !s.h.jrn.loaded then s
  else if es.length ≤ jFree s.h.jrn then jSegments stamp origin es 0 s
  else { s with h.jrn.lost := s.h.jrn.lost + 1 }

/-- A single EVENT entry (Table JRN-4). -/
def jEvent (origin code : Nat) (data : Bytes) (s : State) : State :=
  jChange s.time.now origin [(5, code, data)] s

/-- Whether a change of `n` entries of a governed origin fits, beside `used` entries the same transaction needs already (R259). -/
def jFits (s : State) (used n : Nat) : Bool := decide (used + n + 64 ≤ jFree s.h.jrn)

/-- The GAP entry written when the free space first reaches 65 after losses (R260). -/
def jGap (s : State) : State :=
  if s.h.jrn.loaded ∧ s.h.jrn.lost ≠ 0 ∧ 65 ≤ jFree s.h.jrn then
    let n := s.h.jrn.lost
    jPut (curTick s * 8) 0 6 0 0 (le 4 n ++ le 4 0) { s with h.jrn.lost := 0 }
  else s

/-- The entries of an admitted drain message count as sent (R254). -/
def jSent (s : State) : State :=
  match s.h.jrn.awaiting with
  | none => s
  | some (first, n) =>
    let mine := fun (e : JEntry) => decide ((e.seq + 2 ^ 32 - first) % 2 ^ 32 < n)
    { s with
      h.jrn.entries := s.h.jrn.entries.map (fun e => if mine e then { e with unsent := false, carried := true } else e),
      h.jrn.sentSeq := (first + n - 1) % 2 ^ 32, h.jrn.awaiting := none }

/-- Whether the islands of the host die have power and are out of reset. -/
def hostOn (s : State) : Bool :=
  s.sys.inReset.isNone && s.sys.mode != .keep && s.sys.mode != .noSupply && (s.sys.mode != .standby || s.sys.entering)

/-- Whether the ingress ports of the fabric admit cells (Table MOD-1, R62, R63): in RUN, DEGRADED and HOLD with an image in force. -/
def ingressOpen (s : State) : Bool :=
  s.sys.inReset.isNone && !s.sys.noImg && (s.sys.mode == .run || s.sys.mode == .degraded || s.sys.mode == .hold)

/-- Whether the journal submits a drain message (R254): BATCH entries are unsent, or the oldest has waited MAXAGE ms, and no message awaits admission. -/
def jDrainDue (s : State) : Bool :=
  let us := s.h.jrn.entries.filter (fun e => e.unsent)
  ingressOpen s && s.h.jrn.awaiting.isNone && (match us with
    | [] => false
    | e :: _ => decide (fieldOf s 0x10010 0 5 ≤ us.length) || decide (e.since + fieldOf s 0x10010 8 8 * 1000000 ≤ s.time.now))

/-- The bytes of an entry (Table JRN-2). -/
def jBytes (e : JEntry) : Bytes := jHead e ++ padTo 8 e.mac

/-- The acknowledgement of an entry accepted (R256, R257). -/
def jAckOk (s : State) (b : Bytes) : Bool :=
  let a := fieldLE b 4 4
  let j := s.h.jrn
  b.length == 16 && fieldLE b 0 1 == 0x4A && fieldLE b 1 1 == 0x41 && decide (fieldLE b 2 1 < 2) && fieldLE b 3 1 == 0 &&
  decide ((a + 2 ^ 32 - j.ackSeq) % 2 ^ 32 < 2 ^ 31) && decide ((j.lastSeq + 2 ^ 32 - a) % 2 ^ 32 < 2 ^ 31) &&
  (if a = j.ackSeq then slice b 8 8 == s.keeper.jrnAckMac
   else match jMacOf j a with
     | some m => slice b 8 8 == m && (j.entries.all (fun e => e.seq != a || e.carried || decide (tickOf e.since < curTick s)))
     | none => false)

/-! ## Mode and pins -/

/-- Whether the mode is one in which the image forwards and the host die supervises. -/
def Mode.live : Mode → Bool
  | .run => true
  | .degraded => true
  | _ => false

/-- The field state the host die reports in SYS.STATE.FMODE: 0 while the Tahr link is down (R72). -/
def fmode (s : State) : Nat := if s.h.tahr.link then s.h.tahr.fmode else 0

/-- The pins and the hold line of a mode (Table MOD-7, R55, R81); EXTEST holds them as a reset does (R860). -/
def modePins (s : State) : State :=
  let act := s.sys.inReset.isSome || s.h.dbg.extest
  let hold := act || !s.sys.mode.live
  let so := match s.sys.mode with
    | .noSupply => Drive.hiZ
    | .keep => Drive.hiZ
    | .run => if act then Drive.high else Drive.low
    | .degraded => if act then Drive.high else Drive.low
    | _ => Drive.high
  { s with sys.holdLine := hold, sys.safeOut := so }

/-- A change of mode (R58): the journal's EVENT entry with its origin (Tables JRN-4 and JRN-13), the interrupt bit and the pins. -/
def setMode (m : Mode) (origin : Nat) (s : State) : State :=
  if s.sys.mode = m then s
  else
    let old := s.sys.mode.code
    let fm := fmode s
    modePins (setInt 5 (jEvent origin 1 ([byte old, byte m.code, byte fm, byte fm] ++ le 4 0) { s with sys.mode := m }))

/-- A change of the reported field state, journalled as a mode change (Table JRN-13). -/
def setFmode (link : Bool) (code origin : Nat) (s : State) : State :=
  let old := fmode s
  let s' := { s with h.tahr.link := link, h.tahr.fmode := code }
  let new := fmode s'
  if old = new then s'
  else setInt 5 (jEvent origin 1 ([byte s.sys.mode.code, byte s.sys.mode.code, byte old, byte new] ++ le 4 0) s')

/-! ## Keys and order -/

/-- The default ordering key of a frame (R160): tick, ingress port, queue number, sequence number. -/
def frameKey (f : Frame) : List Nat := [tickOf f.pres, f.inport, f.queue, f.seq]

/-- The order of two keys. -/
def keyLe : List Nat → List Nat → Bool
  | [], _ => true
  | _, [] => false
  | a :: r, b :: t => if a < b then true else if b < a then false else keyLe r t

/-- An element put into a list at its place by a key; equal keys keep the order of arrival. -/
def insertBy {α : Type} (key : α → List Nat) (x : α) : List α → List α
  | [] => [x]
  | y :: r => if keyLe (key y) (key x) then y :: insertBy key x r else x :: y :: r

/-- A list in ascending order of a key; equal keys keep their order. -/
def sortBy {α : Type} (key : α → List Nat) (l : List α) : List α :=
  l.foldl (fun acc x => insertBy key x acc) []

/-- The cells of a frame of `n` bytes (R273, R275): a frame of no bytes still takes one. -/
def cellsOf (n : Nat) : Nat := max 1 (ceilDiv n 64)

/-! ## The queue plan -/

/-- The QUEUE_PLAN record of a queue (Table IMG-5). -/
def queueRec (s : State) (q : Nat) : Option Bytes := (recs s 3 1).find? (fun r => fieldLE r 0 2 == q)

/-- QFLAGS of a queue; 0 for a queue without a record. -/
def qflags (s : State) (q : Nat) : Nat := match queueRec s q with | some r => fieldLE r 2 1 | none => 0

/-- A queue carries traffic only where ENABLE is set (R313). -/
def qEnabled (s : State) (q : Nat) : Bool := bit (qflags s q) 0

/-- SCHED of a queue: 0 strict, 1 weighted, 2 gated. -/
def qSched (s : State) (q : Nat) : Nat := match queueRec s q with | some r => fieldLE r 3 1 | none => 0

/-- MINC of a queue: its guaranteed cells. -/
def qMinc (s : State) (q : Nat) : Nat := match queueRec s q with | some r => fieldLE r 4 4 | none => 0

/-- MAXC of a queue, FAB.QLIM. -/
def qMaxc (s : State) (q : Nat) : Nat := fieldOf s (0x100200 + (q / 16) * 0x1000 + 4 * (q % 16)) 0 17

/-- The shared pool (R316): the ledger capacity less the guaranteed space. -/
def sharedPool (s : State) : Nat :=
  94208 - ((recs s 3 1).filter (fun r => bit (fieldLE r 2 1) 0)).foldl (fun n r => n + fieldLE r 4 4) 0

/-- The ledger occupancy of a queue. -/
def occOf (s : State) (q : Nat) : Nat := KMap.getD s.h.fab.occ q 0

/-- The state with a queue's ledger occupancy set; a queue at 0 is not listed. -/
def setOcc (s : State) (q n : Nat) : State :=
  { s with h.fab.occ := if n = 0 then KMap.del s.h.fab.occ q else KMap.put s.h.fab.occ q n }

/-- The shared use (R317). -/
def sharedUse (s : State) : Nat := s.h.fab.occ.foldl (fun n e => n + (e.2 - qMinc s e.1)) 0

/-- The register address of a per-queue status register of Table QUE-12. -/
def qReg (q off : Nat) : Nat := 0x100100 + (q / 16) * 0x1000 + 0x10 * (q % 16) + off

/-- Whether a port is out of service (Table QUE-2): its island out with no spare, or, for 40 to 47 and 69, the Tahr link down until the field die reports FRUN again (R48, R630). -/
def outOfService (s : State) (e : Nat) : Bool :=
  s.h.fab.outSvc.contains e ||
  (((decide (40 ≤ e) && decide (e ≤ 47)) || e == 69) && !s.h.tahr.svc)

/-- Whether a port is blocked (Table QUE-2). -/
def isBlocked (s : State) (e : Nat) : Bool := s.h.fab.blocked.contains e

/-- Whether a port was out of service before the changes of the tick being committed (R326, R336). -/
def wasOut (s : State) (e : Nat) : Bool := s.h.fab.out0.contains e

/-- Whether a port was blocked or out of service before the changes of the tick being committed (R336, R337). -/
def wasStopped (s : State) (e : Nat) : Bool := s.h.fab.stopped0.contains e

/-- The states of the ports noted for the tick that follows (R336). -/
def notePorts (s : State) : State :=
  let out := s.h.fab.outSvc ++ (if s.h.tahr.svc then [] else [40, 41, 42, 43, 44, 45, 46, 47, 69])
  { s with h.fab.out0 := out, h.fab.stopped0 := s.h.fab.blocked ++ out }

/-- A port entered into or removed from the blocked ports. -/
def setBlocked (e : Nat) (b : Bool) (s : State) : State :=
  { s with h.fab.blocked :=
      if b then (if s.h.fab.blocked.contains e then s.h.fab.blocked else s.h.fab.blocked ++ [e])
      else s.h.fab.blocked.filter (fun x => x != e) }

/-- The frames of a queue, oldest first. -/
def queueOf (s : State) (q : Nat) : List Frame := KMap.getD s.h.fab.queues q []

/-- The state with a queue's frames set; an empty queue is not listed. -/
def setQueue (s : State) (q : Nat) (l : List Frame) : State :=
  { s with h.fab.queues := if l.isEmpty then KMap.del s.h.fab.queues q else KMap.put s.h.fab.queues q l }

/-- The gate-list records of a port, from its live table of KIND 0x01 (R332); GATEL of the port record names the section. -/
def gateRecs (s : State) (e : Nat) : List Bytes :=
  match (recs s 3 0).find? (fun r => fieldLE r 0 1 == e) with
  | none => []
  | some r =>
    let inst := fieldLE r 4 2
    (s.h.img.live.filter (fun x => x.1 / 65536 == inst)).map (fun x => x.2)

/-- The gates of a port at present: all open before GBASE or without a list (R332). -/
def gatesNow (s : State) (e : Nat) : Nat :=
  match KMap.get? s.h.fab.gate e with
  | none => 0xFF
  | some (i, _, _) => fieldLE (nth (KMap.getD s.h.fab.gateList e []) i (List.replicate 8 0xFF)) 4 1

/-! ## Submission -/

/-- The next sequence number of an ingress port (R159). -/
def nextSeq (s : State) (p : Nat) : Nat := KMap.getD s.h.fab.seqs p 0

/-- An event formed at an ingress port, in the order of the port (R159): presentation stamp, event stamp, source kind, body kind, body, ERR and mark. Where the ingress ports admit nothing, there is no event. -/
def submitAt (port : Nat) (pres stamp : Stamp) (src kk : Nat) (body : Bytes) (err : Bool) (mark : Nat) (s : State) : State :=
  let n := nextSeq s port
  if !ingressOpen s then s
  else
    { s with
      h.fab.ingress := s.h.fab.ingress ++ [⟨port, pres, stamp, n, src, kk, body, err, mark⟩]
      h.fab.seqs := KMap.put s.h.fab.seqs port ((n + 1) % 65536) }

/-- An opaque message of an internal endpoint, stamped at its submission (Table TIM-1). -/
def submitMsg (port : Nat) (body : Bytes) (mark : Nat) (s : State) : State :=
  submitAt port s.time.now s.time.now 2 4 body false mark s

/-! ## Free values and statuses -/

/-- A free value taken: its number is spent. -/
def takeFree (s : State) : State × Nat := ({ s with free := s.free + 1 }, Config.freeValue s.free)

/-- The codes that refuse or fail an operation (Table HOST-12). -/
def refusing (st : Nat) : Bool := (decide (4 ≤ st) && decide (st ≤ 0x0E)) || (decide (0x14 ≤ st) && decide (st ≤ 0x16))

/-- The final status of a host transaction that is not deferred (R214), counted where it refuses (Table HOST-12). -/
def hostStatus (st : Nat) (s : State) : State :=
  let s := { s with h.port.presult := st, h.port.prevDeferred := false }
  if refusing st then bump s 0x48 16 16 1 else s

/-- A SEND that was not admitted (R239). -/
def hostRefuse (st : Nat) (s : State) : State := hostStatus st s

end Sys2Proof.Machine
end

