-- ==== Sys2Proof/Machine/Operands.lean ====
section
/-! DEFINITION. Bodies and operands: the CAN, LIN, Ethernet and opaque bodies of Table GTW-2, search keys, and signals. -/

namespace Sys2Proof.Machine

open Sys2Proof

/-! ## CAN, LIN and Ethernet bodies (Table GTW-2) -/

/-- The data bytes of a CAN FD DLC. -/
def dlcLen (dlc : Nat) : Nat :=
  match dlc with
  | 9 => 12 | 10 => 16 | 11 => 20 | 12 => 24 | 13 => 32 | 14 => 48 | 15 => 64
  | n => min n 8

/-- The least DLC whose data length is at least `n`. -/
def lenDlc (n : Nat) : Nat :=
  if n ≤ 8 then n else if n ≤ 12 then 9 else if n ≤ 16 then 10 else if n ≤ 20 then 11
  else if n ≤ 24 then 12 else if n ≤ 32 then 13 else if n ≤ 48 then 14 else 15

/-- IDW of a CAN body. -/
def canIdw (b : Bytes) : Nat := fieldLE b 0 4

/-- The data length of a CAN body by its IDW and DLC: none in a remote frame, at most 8 bytes in a classic frame. -/
def canLen (idw dlc : Nat) : Nat :=
  if bit idw 31 then dlcLen dlc else if bit idw 29 then 0 else min dlc 8

/-- A CAN body is well formed where it holds the data bytes its DLC states (Table GTW-2). -/
def canBodyOk (b : Bytes) : Bool :=
  decide (8 ≤ b.length) && decide (fieldLE b 5 1 ≤ 15) && b.length == 8 + canLen (canIdw b) (fieldLE b 5 1)

/-- A LIN body is well formed where it holds its N data bytes. -/
def linBodyOk (b : Bytes) : Bool :=
  decide (1 ≤ fieldLE b 1 1) && decide (fieldLE b 1 1 ≤ 8) && b.length == 4 + fieldLE b 1 1

/-- Whether a body is well formed for its kind. -/
def bodyOk (kk : Nat) (b : Bytes) : Bool :=
  match kk with
  | 1 => canBodyOk b
  | 2 => linBodyOk b
  | 3 => decide (14 ≤ b.length)
  | 4 => decide (2 ≤ b.length)
  | _ => false

/-- Where the data area of a body begins: after the 8 bytes of a CAN body, the 4 bytes of a LIN body, at 0 otherwise. -/
def dataOff (kk : Nat) : Nat := match kk with | 1 => 8 | 2 => 4 | _ => 0

/-- The data area of a body (R347). -/
def dataArea (kk : Nat) (b : Bytes) : Bytes := b.drop (dataOff kk)

/-- Whether an Ethernet body carries a tag (R350). -/
def ethTagged (b : Bytes) : Bool := fieldBE b 12 2 == 0x8100 || fieldBE b 12 2 == 0x88A8

/-- TAG and ETYPE of an Ethernet body (R350), with the port's PVID and PPCP for an untagged frame. -/
def ethTag (pvid ppcp : Nat) (b : Bytes) : Nat × Nat :=
  if ethTagged b then
    (fieldBE b 14 2 % 0x1000 + bits (fieldBE b 14 2) 13 3 * 0x1000 + 0x8000, fieldBE b 16 2)
  else (pvid + ppcp * 0x1000, fieldBE b 12 2)

/-- The 16-byte search key of an event (Table GTW-3). -/
def searchKey (port kk pvid ppcp extoff : Nat) (b : Bytes) : Bytes :=
  let head := [byte port, byte kk]
  padTo 16 (match kk with
    | 1 => head ++ slice b 0 4 ++ slice b 4 1 ++ slice b 5 1 ++ slice b 6 1
    | 2 => head ++ [byte (fieldLE b 0 1 % 64)]
    | 3 => head ++ slice b 0 6 ++ le 2 (ethTag pvid ppcp b).1 ++ le 2 (ethTag pvid ppcp b).2 ++ slice b extoff 4
    | _ => head ++ slice b 0 2 ++ slice b 2 4)

/-- A CLASS record matches a key where the masked key equals its KEY (R354). -/
def classMatches (rec key : Bytes) : Bool :=
  (List.range 16).all (fun i => (nth key i 0 &&& nth rec (16 + i) 0) == nth rec i 0)

/-! ## Signals in an area (R373) -/

/-- Bit n of an area. -/
def areaBit (a : Bytes) (n : Nat) : Bool := bit (nth a (n / 8) 0).toNat (n % 8)

/-- An area with bit n set. -/
def setAreaBit (a : Bytes) (n : Nat) (v : Bool) : Bytes :=
  updNth a (n / 8) (fun b => byte (putBits b.toNat (n % 8) 1 (b2n v)))

/-- The area bits of a signal from its least significant bit up: little-endian from s, or big-endian with s its most significant bit. -/
def signalBits (be : Bool) (s len : Nat) : List Nat :=
  if be then
    let rec down : Nat → Nat → List Nat
      | 0, _ => []
      | n + 1, pos => pos :: down n (if pos % 8 = 0 then pos + 15 else pos - 1)
    (down len s).reverse
  else (List.range len).map (fun i => s + i)

/-- Whether a signal lies wholly within an area. -/
def signalIn (a : Bytes) (be : Bool) (s len : Nat) : Bool :=
  (signalBits be s len).all (fun n => decide (n < 8 * a.length))

/-- The value of a signal. -/
def readSignal (a : Bytes) (be : Bool) (s len : Nat) : Nat :=
  (signalBits be s len).foldr (fun n acc => b2n (areaBit a n) + 2 * acc) 0

/-- An area with a signal written. -/
def writeSignal (a : Bytes) (be : Bool) (s len v : Nat) : Bytes :=
  ((signalBits be s len).zipIdx).foldl (fun acc p => setAreaBit acc p.1 (bit v p.2)) a

end Sys2Proof.Machine
end

