-- ==== Sys2Proof/Machine/Keys.lean ====
section
/-! DEFINITION. Keys: engine slots, installation and confirmation, inbound MAC checks, tamper (chapter 12). -/

namespace Sys2Proof.Machine

open Sys2Proof

/-! ## Engine key slots (R520, R521, R523) -/

/-- The slot of a handle's key of a role. -/
def slotOf (s : State) (h role : Nat) : Option Nat :=
  (s.h.keys.slots.find? (fun e => e.2.handle == h && e.2.role == role)).map (fun e => e.1)

/-- The lowest free slot from 2 on (0 and 1 belong to the resident internal keys of Table KEY-6). -/
def freeSlotNo (s : State) : Option Nat := (List.range 64).find? (fun i => decide (2 ≤ i) && (KMap.get? s.h.keys.slots i).isNone)

/-- The least recently used slot of a key that may be evicted. -/
def lruSlot (s : State) : Option Nat :=
  let c := s.h.keys.slots.filter (fun e => !e.2.resident && e.2.role == 0 && decide (e.2.handle < 0x8000))
  (c.foldl (fun (b : Option (Nat × Stamp)) e => match b with
    | none => some (e.1, e.2.lastUse)
    | some x => if e.2.lastUse < x.2 then some (e.1, e.2.lastUse) else some x) none).map (fun x => x.1)

/-- A key of a handle taken into a slot, or marked as used now (R521, R525). -/
def touchSlot (h role : Nat) (resident : Bool) (s : State) : State :=
  match slotOf s h role with
  | some i => { s with h.keys.slots := KMap.put s.h.keys.slots i ⟨h, role, resident, s.time.now⟩ }
  | none =>
    match (freeSlotNo s).or (lruSlot s) with
    | none => s
    | some i => { s with h.keys.slots := KMap.put s.h.keys.slots i ⟨h, role, resident, s.time.now⟩ }

/-- The slots of a handle given up: those of one role, or of every role. -/
def dropSlots (h : Nat) (role : Option Nat) (s : State) : State :=
  { s with h.keys.slots := s.h.keys.slots.filter (fun e => !(e.2.handle == h && (match role with | none => true | some r => e.2.role == r))) }

/-- Slots that hold resident, injected, run-time, pending or grace keys; the others are free for R523. -/
def firmSlots (s : State) : Nat :=
  (s.h.keys.slots.filter (fun e => e.2.resident || e.2.role != 0 || decide (0x8000 ≤ e.2.handle) || (vaultEntry s e.2.handle).isSome)).length

/-! ## Key events, installation, confirmation (R538 to R545) -/

/-- A key event of the journal (Table JRN-4, code 0x04). -/
def keyEvent (origin h code cnt : Nat) (s : State) : State := jEvent origin 4 (le 2 h ++ [byte code, 0] ++ le 4 cnt) s

/-- An erasure of a handle in all roles (service 0x0A, R551), with its key event. -/
def eraseHandle (h : Nat) (s : State) : State :=
  let s := setRole h ⟨none, none⟩ (dropSlots h none s)
  keyEvent 3 h 4 0 { s with h.keys.rt := KMap.del s.h.keys.rt h,
                            keeper.vault := s.keeper.vault.filter (fun e => e.handle != h) }

/-- The lowest unused run-time handle (R523). -/
def freshHandle (s : State) : Option Nat :=
  (List.range 0x7FFF).find? (fun i => (KMap.get? s.h.keys.rt (0x8000 + i)).isNone) |>.map (fun i => 0x8000 + i)

/-- A key installed on a handle (R539): committed at once where the handle has none, pending otherwise. -/
def installOn (h usage graceMs : Nat) (key : Bytes) (s : State) : State :=
  match KMap.get? s.h.keys.rt h with
  | none =>
    keyEvent 3 h 3 0 (touchSlot h 0 false { s with h.keys.rt := KMap.put s.h.keys.rt h ⟨usage, key, 0⟩ })
  | some _ =>
    keyEvent 3 h 2 0 (touchSlot h 1 false (setRole h { roleOf s h with pending := some (key, msTicks graceMs) } s))

/-- The end of a grace key (R541): erased, with a key event of code 4. -/
def endGrace (h : Nat) (s : State) : State :=
  match (roleOf s h).grace with
  | none => s
  | some _ => keyEvent 3 h 4 0 (dropSlots h (some 2) (setRole h { roleOf s h with grace := none } s))

/-- The pending key of a handle committed (R541, R544): GEN rises, the former key becomes the grace key, or is erased where the grace is 0. -/
def commitPending (h : Nat) (s : State) : State :=
  match (roleOf s h).pending, KMap.get? s.h.keys.rt h with
  | some (key, g), some k =>
    let s := endGrace h s
    let s := { s with h.keys.rt := KMap.put s.h.keys.rt h { k with key := key, gen := k.gen + 1 } }
    let s := dropSlots h none s
    let s := touchSlot h 0 false (setRole h { pending := none, grace := if g = 0 then none else some (k.key, curTick s + g) } s)
    let s := keyEvent 3 h 3 0 s
    if g = 0 then keyEvent 3 h 4 0 s else touchSlot h 2 false s
  | _, _ => s

/-- The outcome of an inbound MAC check. -/
inductive MacResult
  | nokey
  | bad
  | good (s : State)

/-- An inbound MAC check under the committed key, then the pending key, then the grace key (R540, R542, R587): a success under the pending key confirms it. -/
def verifyRoles (s : State) (h ubit : Nat) (msg want : Bytes) : MacResult :=
  match usableKey s h ubit with
  | none => .nokey
  | some (_, k) =>
    let hit := fun (key : Bytes) => (cmacBytes key msg).take want.length == want
    if hit k then .good (touchSlot h 0 false s)
    else match (roleOf s h).pending with
    | some (p, _) =>
      if hit p then .good (commitPending h s)
      else match (roleOf s h).grace with
        | some (g, _) => if hit g then .good s else .bad
        | none => .bad
    | none =>
      match (roleOf s h).grace with
      | some (g, _) => if hit g then .good s else .bad
      | none => .bad

/-- The gateway's check of a message (R364, R365). -/
def macVerify (s : State) (h : Nat) (msg want : Bytes) : MacResult := verifyRoles s h 1 msg want

/-- The gateway's MAC of a copy (R366): none where no usable key is named. -/
def macCompute (s : State) (h : Nat) (msg : Bytes) : Option Bytes :=
  (usableKey s h 1).map (fun p => cmacBytes p.2 msg)

/-- Whether stage 4 passes an event unverified: the root is not VALID and GWPASS is 1 (R526). -/
def gwPasses (s : State) (_h : Nat) : Bool := !rootValid s && bit (reg s 0x70018) 0

/-! ## Tamper (R505 to R513) -/

/-- The DETAIL of a root state in an EVENT entry: 1 TAMPERED, 2 KEEPER_LOST, 4 BLANK (R511). -/
def rootCode (st : Nat) : Nat := match st with | 0 => 1 | 1 => 1 | 2 => 2 | _ => 4

/-- KEY.STATUS.TAMPACT (R513): the mesh reports a disturbance or an armed enclosure input reads open. -/
def tampAct (s : State) : Bool :=
  s.h.keys.meshOpen || (bit s.keeper.tampArm 0 && s.h.keys.caseA) || (bit s.keeper.tampArm 1 && s.h.keys.caseB)

/-- The associations whose key is not usable any more stand idle until KEYH is written again (R494). -/
def markDead (s : State) : State :=
  let used := (List.range 6).flatMap (fun p =>
    ((List.range 4).map (fun a => 0x440400 + p * 0x10000 + 0x20 * a)) ++
    ((List.range 16).map (fun a => 0x440500 + p * 0x10000 + 0x20 * a)))
  let gone := used.filter (fun a => bit (reg s a) 16 && (usableKey s (bits (reg s a) 0 16) 4).isNone && !s.h.eth.dead.contains a)
  { s with h.eth.dead := s.h.eth.dead ++ gone }

/-- Keys erased by tamper (R508): root, vault, slots, pending and grace keys; run-time keys no longer exist (R506). -/
def zeroKeys (s : State) : State :=
  { s with keeper.root := List.replicate 32 0, keeper.vault := [], h.keys.slots := [], h.keys.roles := [], h.keys.rt := [] }

end Sys2Proof.Machine
end

