-- ==== Sys2Proof/Machine/Gateway.lean ====
section
/-! DEFINITION. The gateway stages: live-table look-up, classification, verification, policing, extraction, routing (chapter 09). -/

namespace Sys2Proof.Machine

open Sys2Proof

/-! ## Live-table look-up -/

/-- The live table of a kind in the image in force (R352: at most one section of each gateway kind). -/
def liveSect (s : State) (kind : Nat) : Option Sect :=
  match s.h.img.image with
  | none => none
  | some im => im.sects.find? (fun c => c.typ == 4 && c.kind == kind)

/-- The key of a live-table record: section instance and record index. -/
def liveKey (inst idx : Nat) : Nat := inst * 65536 + idx

/-- The record of a kind at an index: none at or above CAP or where it is absent (R353). -/
def liveRec (s : State) (kind idx : Nat) : Option Bytes :=
  match liveSect s kind with
  | none => none
  | some c => if idx < c.cap then KMap.get? s.h.img.live (liveKey c.inst idx) else none

/-- The records present of a kind, with their indices, in ascending order. -/
def liveRecs (s : State) (kind : Nat) : List (Nat × Bytes) :=
  match liveSect s kind with
  | none => []
  | some c => (s.h.img.live.filter (fun e => e.1 / 65536 == c.inst)).map (fun e => (e.1 % 65536, e.2))

/-- A record of a kind replaced: the device's own update of a result, which is no register write (R367). -/
def putLive (s : State) (kind idx : Nat) (r : Bytes) : State :=
  match liveSect s kind with
  | none => s
  | some c => { s with h.img.live := KMap.put s.h.img.live (liveKey c.inst idx) r }

/-! ## Drop reasons -/

/-- The drop reasons of Table GTW-13, by the place of their counter: 16-bit counter n of PDROP0 to PDROP5. -/
inductive Drop
  | nomatch | deny | fmt | police | nosync | fresh | auth | nokey | noroute | kind | dangle | nostream
deriving DecidableEq, Repr

/-- The counter of a reason: its register index and whether it is the high half (Table GTW-13). -/
def Drop.place : Drop → Nat × Nat
  | .nomatch => (0, 0) | .deny => (0, 16)
  | .fmt => (1, 0) | .police => (1, 16)
  | .nosync => (2, 0) | .fresh => (2, 16)
  | .auth => (3, 0) | .nokey => (3, 16)
  | .noroute => (4, 0) | .kind => (4, 16)
  | .dangle => (5, 0) | .nostream => (5, 16)

/-- A drop counted at its ingress port (R394). -/
def countDrop (port : Nat) (d : Drop) (s : State) : State :=
  bump s (0x200010 + port * 0x100 + 4 * d.place.1) d.place.2 16 1

/-! ## The stages -/

/-- The role of a virtual port (R369). -/
def vrole (s : State) (port : Nat) : Nat := fieldOf s (0x200008 + port * 0x100) 0 3

/-- Stage 2 (R354): the action index of the matching record of highest PRIO and lowest index, or DEFACT and whether the port's default decided. -/
def classify (s : State) (port : Nat) (key : Bytes) : Nat × Bool :=
  let hit := (liveRecs s 0x10).foldl (fun (best : Option (Nat × Nat)) e =>
    if classMatches e.2 key then
      match best with
      | none => some (fieldLE e.2 32 2, fieldLE e.2 34 2)
      | some (p, _) => if p < fieldLE e.2 32 2 then some (fieldLE e.2 32 2, fieldLE e.2 34 2) else best
    else best) none
  match hit with
  | some (_, a) => (a, false)
  | none => (fieldOf s (0x200000 + port * 0x100) 0 16, true)

/-- The counter that a received truncated freshness value stands for (R364). -/
def freshCounter (l fv t : Nat) : Nat :=
  if t = 0 then l + 1
  else if t = 64 then fv
  else
    let c := l / 2 ^ t * 2 ^ t + fv
    if c ≤ l then c + 2 ^ t else c

/-- The MAC input of R364. -/
def macInput (dataid c : Nat) (authentic : Bytes) : Bytes := be 4 dataid ++ be 8 c ++ authentic

/-- Stage 4 (R362 to R365, R387): the state after it, and the reason it drops the event, if it does. With GWPASS and a lost root the event passes unverified and is counted (R526). -/
def verifyStage (s : State) (port kk prof : Nat) (body : Bytes) : State × Except Drop Bool :=
  if prof = 0xFF then (s, .ok false)
  else if kk = 3 then (s, .error .kind)
  else match liveRec s 0x14 prof with
  | none => (s, .error .dangle)
  | some p =>
    let keyh := fieldLE p 0 2
    let maclen := fieldLE p 2 1
    let fvlen := fieldLE p 3 1
    let alen := fieldLE p 4 2
    let fi := fieldLE p 6 2
    let area := dataArea kk body
    match liveRec s 0x15 fi with
    | none => (s, .error .dangle)
    | some f =>
      if fieldLE f 0 1 ≠ port ∨ bit (fieldLE f 1 1) 1 then (s, .error .dangle)
      else if area.length < alen + fvlen + maclen then (s, .error .fmt)
      else if gwPasses s keyh then (bump s 0x70024 0 32 1, .ok false)
      else if !bit (fieldLE f 1 1) 0 then (s, .error .nosync)
      else
        let l := fieldLE f 8 8
        let c := freshCounter l (fieldBE area alen fvlen) (8 * fvlen)
        if c ≤ l ∨ c - l > fieldLE p 12 2 then (s, .error .fresh)
        else
          let msg := macInput (fieldLE p 8 4) c (area.take alen)
          let want := slice area (alen + fvlen) maclen
          match macVerify s keyh msg want with
          | .nokey => (s, .error .nokey)
          | .bad => (s, .error .auth)
          | .good s' => (putLive s' 0x15 fi (overlay f 8 (le 8 c)), .ok true)

/-- The refill and charge of a token bucket (R360): the new level and whether the event conforms. -/
def bucketCharge (cap rate lvl t j need : Nat) : Nat × Bool :=
  let l := if (j - t) * rate ≥ cap - lvl then cap else lvl + (j - t) * rate
  if need ≤ l then (l - need, true) else (l, false)

/-- What stage 5 does once a bucket's new level is known (R361): a conforming event is counted and passes; one that exceeds is counted and dropped, passes in a class, or passes, by ACT of the record. -/
def policeResult (bucket : Nat) (b : Bytes) (okk : Bool) (s : State) : State × Except Drop (Bool × Option Nat) :=
  if okk then (bump s (0x224000 + 8 * bucket) 0 32 1, .ok (false, none))
  else
    let s := bump s (0x224004 + 8 * bucket) 0 32 1
    match bits (fieldLE b 1 1) 1 2 with
    | 0 => (s, .error .police)
    | 1 => (s, .ok (true, some (fieldLE b 2 1)))
    | _ => (s, .ok (true, none))

/-- A bucket's new level (R360) with what stage 5 does then. -/
def policeBucket (bucket blen : Nat) (b : Bytes) (j : Nat) (s : State) : State × Except Drop (Bool × Option Nat) :=
  let cap := fieldLE b 4 4 * 2 ^ 32
  let (lvl, t) := KMap.getD s.h.gtw.buckets bucket (cap, j)
  let need := (if bit (fieldLE b 1 1) 0 then 1 else blen) * 2 ^ 32
  let c := bucketCharge cap (fieldLE b 8 8) lvl t j need
  policeResult bucket b c.2 { s with h.gtw.buckets := KMap.put s.h.gtw.buckets bucket (c.1, j) }

/-- Stage 5 (R360, R361): the state after it, and none for a drop, or whether the event exceeded and the class it then takes. -/
def policeStage (s : State) (port bucket : Nat) (pres : Stamp) (blen : Nat) : State × Except Drop (Bool × Option Nat) :=
  if bucket = 0xFFFF then (s, .ok (false, none))
  else match liveRec s 0x13 bucket with
  | none => (s, .error .dangle)
  | some b =>
    if fieldLE b 0 1 ≠ port then (s, .error .dangle)
    else policeBucket bucket blen b (tickOf pres) s

/-- One signal update: the container record, the place of the signal in it, its flags and its value, 16 bytes of an update message (R373; the format is internal to the device). -/
def updateBytes (sig : Bytes) (v : Nat) : Bytes :=
  slice sig 0 2 ++ slice sig 4 2 ++ [nth sig 6 0, nth sig 7 0, 0, 0] ++ le 8 v

/-- Stage 6 (R373): the updates of the action's signal map records with the virtual port of each, or a dangling reference. -/
def extractStage (s : State) (first n : Nat) (area : Bytes) : State × Except Drop (List (Nat × Bytes)) :=
  let idxs := (List.range n).map (fun i => first + i)
  let step := fun (acc : State × Except Drop (List (Nat × Bytes))) (i : Nat) =>
    match acc with
    | (s, .error d) => (s, .error d)
    | (s, .ok us) =>
      match liveRec s 0x16 i with
      | none => (s, .error .dangle)
      | some g =>
        match liveRec s 0x17 (fieldLE g 0 2) with
        | none => (s, .error .dangle)
        | some c =>
          let flags := fieldLE g 7 1
          let src := fieldLE g 2 2
          let len := fieldLE g 6 1
          if signalIn area (bit flags 0) src len then
            (s, .ok (us ++ [(fieldLE c 0 1, updateBytes g (readSignal area (bit flags 0) src len))]))
          else (bump s 0x210080 0 16 1, .ok us)
  if first = 0xFFFF then (s, .ok []) else idxs.foldl step (s, .ok [])

/-- Whether a destination port accepts a body's kind (Table GTW-7; ports 56 to 63 take the Ethernet frames of their AAF listeners). -/
def acceptsKind (s : State) (port kk : Nat) : Bool :=
  if port ≤ 11 then kk == 3
  else if 16 ≤ port ∧ port ≤ 47 then kk == 1
  else if 48 ≤ port ∧ port ≤ 55 then kk == 2
  else if 56 ≤ port ∧ port ≤ 63 then kk == 3
  else if port = 64 ∨ port = 70 then decide (1 ≤ kk) && decide (kk ≤ 4)
  else if 65 ≤ port ∧ port ≤ 69 then kk == 4
  else if 80 ≤ port then
    match vrole s port with
    | 1 => decide (1 ≤ kk) && decide (kk ≤ 4)
    | 3 => kk == 1 || kk == 2
    | 4 => kk == 3
    | _ => false
  else false

/-- Stage 8, EDIT (R357): none where the edit's kind does not match the body. -/
def editBody (edit ev kk : Nat) (b : Bytes) : Option Bytes :=
  match edit with
  | 0 => some b
  | 1 =>
    if kk = 1 then
      let w := canIdw b
      some (overlay b 0 (le 4 (putBits (putBits w 0 29 (bits ev 0 29)) 30 1 (bits ev 30 1))))
    else none
  | 2 =>
    if kk = 1 then
      let w := canIdw b
      let fdf := if 16 < b.length then 1 else bits ev 0 1
      some (overlay (overlay b 0 (le 4 (putBits w 31 1 fdf))) 4 [byte (putBits (fieldLE b 4 1) 0 1 (bits ev 1 1))])
    else none
  | 3 =>
    if kk = 3 then
      let tci := be 2 (bits ev 0 12 + bits ev 12 3 * 0x2000)
      if ethTagged b then some (overlay b 14 tci)
      else some (b.take 12 ++ be 2 0x8100 ++ tci ++ b.drop 12)
    else none
  | 4 =>
    if kk = 3 then some (if ethTagged b then b.take 12 ++ b.drop 16 else b)
    else none
  | _ => some b

/-- Stage 8, SECURE (R366): the transmit counter advances and FV and MAC are written into the copy. -/
def secureStage (s : State) (port kk prof : Nat) (b : Bytes) : State × Except Drop Bytes :=
  if prof = 0xFF then (s, .ok b)
  else if kk = 3 then (s, .error .kind)
  else match liveRec s 0x14 prof with
  | none => (s, .error .dangle)
  | some p =>
    let keyh := fieldLE p 0 2
    let maclen := fieldLE p 2 1
    let fvlen := fieldLE p 3 1
    let alen := fieldLE p 4 2
    let fi := fieldLE p 6 2
    match liveRec s 0x15 fi with
    | none => (s, .error .dangle)
    | some f =>
      if fieldLE f 0 1 ≠ port ∨ !bit (fieldLE f 1 1) 1 then (s, .error .dangle)
      else
        let area := dataArea kk b
        let len := alen + fvlen + maclen
        let fd := kk == 1 && bit (canIdw b) 31
        if area.length < alen then (s, .error .fmt)
        else if (kk = 2 ∨ (kk = 1 ∧ !fd)) ∧ 8 < len then (s, .error .fmt)
        else if kk = 1 ∧ 64 < len then (s, .error .fmt)
        else if !bit (fieldLE f 1 1) 0 ∨ fieldLE f 8 8 = 2 ^ 64 - 1 then (s, .error .nosync)
        else
          match macCompute s keyh (macInput (fieldLE p 8 4) (fieldLE f 8 8 + 1) (area.take alen)) with
          | none => (s, .error .nokey)
          | some m =>
            let c := fieldLE f 8 8 + 1
            let s := putLive s 0x15 fi (overlay f 8 (le 8 c))
            let sec := area.take alen ++ be fvlen (c % 2 ^ (8 * fvlen)) ++ m.take maclen
            match kk with
            | 1 =>
              let dlc := if fd then lenDlc sec.length else sec.length
              (s, .ok (overlay (b.take 8) 5 [byte dlc] ++ padTo (canLen (canIdw b) dlc) sec))
            | 2 => (s, .ok (overlay (b.take 4) 1 [byte sec.length] ++ sec))
            | _ => (s, .ok sec)

/-- The 16-byte descriptor of a copy delivered to port 64 or 70 (R358). -/
def descriptor (stamp : Stamp) (inport kk action len dflags : Nat) : Bytes :=
  le 8 stamp ++ [byte inport, byte kk] ++ le 2 action ++ le 2 len ++ [byte dflags, 0]

/-- Whether port e lies in the reach mask of port p (R279). -/
def inReach (s : State) (p e : Nat) : Bool := bit (reg s (0x100010 + p * 0x1000 + 4 * (e / 32))) (e % 32)

/-- Whether a port is an express port (R281). -/
def isExpress (s : State) (p : Nat) : Bool := bit (reg s (0x100000 + p * 0x1000)) 8

/-- Stage 9 (R276, R277, R279, R282): a head handed toward its plane, or counted as a reach or plane drop of its ingress port; a frame longer than 256 cells ends there with ERR. It waits for the admission of its tick (R319). -/
def handoff (e : Event) (queue kk dflags : Nat) (bytes : Bytes) (s : State) : State :=
  if !inReach s e.port (queue / 16) then bump s (0x100040 + e.port * 0x1000) 0 16 1
  else if bit queue 3 && !isExpress s e.port then bump s (0x100040 + e.port * 0x1000) 16 16 1
  else
    let long := decide (16384 < bytes.length)
    let f : Frame := ⟨s.h.fab.nextId, e.pres, e.port, e.seq, queue, e.err || long, dflags, bytes.take 16384, e.stamp, kk, e.mark⟩
    let s := if long then bump s (0x100044 + e.port * 0x1000) 0 16 1 else s
    { s with h.fab.nextId := s.h.fab.nextId + 1, h.fab.toAdmit := s.h.fab.toAdmit ++ [f] }

/-- One copy of a route (R356 to R358, R361, R366): its queue, or none where it is dropped. -/
def routeCopy (e : Event) (kk action dflags : Nat) (rclass : Option Nat) (body : Bytes) (dest : Bytes)
    (acc : State × Option Nat) : State × Option Nat :=
  let (s, first) := acc
  let q0 := fieldLE dest 0 2
  let edit := fieldLE dest 2 1
  if q0 = 0xFFFF then acc
  else
    let port := q0 / 16
    let q := match rclass with
      | some c => port * 16 + bits q0 3 1 * 8 + c
      | none => q0
    if !acceptsKind s port kk then (countDrop e.port .kind s, first)
    else match editBody edit (fieldLE dest 4 4) kk body with
    | none => (countDrop e.port .kind s, first)
    | some b =>
      match secureStage s e.port kk (fieldLE dest 3 1) b with
      | (s, .error d) => (countDrop e.port d s, first)
      | (s, .ok b) =>
        let fl := dflags + (if edit ≠ 0 then 4 else 0)
        let out := if port = 64 ∨ port = 70 then descriptor e.stamp e.port kk action b.length fl ++ b else b
        (handoff e q kk fl out s, some (first.getD q))

/-- The update messages of an event, one for each container port, in the order of the first update of each (R373). -/
def sendUpdates (e : Event) (us : List (Nat × Bytes)) (s : State) : State :=
  let ports := (us.map (fun u => u.1)).dedup
  ports.foldl (fun s v =>
    handoff e (v * 16) 5 0 ((us.filter (fun u => u.1 == v)).flatMap (fun u => u.2)) s) s

/-- The trace record of an event (Table TIM-5), kept for the commit that emits it (R186); the trace port's own events are not traced. -/
def traceEvent (e : Event) (queue : Option Nat) (len : Nat) (s : State) : State :=
  if bit (reg s 0x30024) 0 ∧ e.mark ≠ 3 then
    let r := le 8 e.pres ++ [byte e.port, byte e.src] ++ le 2 e.seq ++ le 2 (queue.getD 0xFFFF) ++ le 2 len
    { s with h.gtw.traces := s.h.gtw.traces ++ [(e.pres, r)] }
  else s

/-- Stages 2 to 9 on a parsed body: the state after them and the first queue assigned. -/
def runStages (e : Event) (kk : Nat) (body : Bytes) (s : State) : State × Option Nat :=
  let pc := reg s (0x200000 + e.port * 0x100)
  let key := searchKey e.port kk (bits pc 16 12) (bits pc 28 3) (fieldOf s (0x200004 + e.port * 0x100) 0 7) body
  let (act, dflt) := classify s e.port key
  if act = 0xFFFF then (countDrop e.port .nomatch s, none)
  else match liveRec s 0x11 act with
  | none => (countDrop e.port .dangle s, none)
  | some a =>
    let s := bump s (0x220000 + 4 * act) 0 32 1
    if !bit (fieldLE a 0 1) 0 then (countDrop e.port .deny s, none)
    else if e.err ∧ (fieldLE a 1 1 ≠ 0xFF ∨ (fieldLE a 6 2 ≠ 0xFFFF ∧ fieldLE a 8 2 ≠ 0)) then
      (countDrop e.port .fmt s, none)
    else match verifyStage s e.port kk (fieldLE a 1 1) body with
    | (s, .error d) => (countDrop e.port d s, none)
    | (s, .ok authok) =>
      match policeStage s e.port (fieldLE a 2 2) e.pres body.length with
      | (s, .error d) => (countDrop e.port d s, none)
      | (s, .ok (exceeded, rclass)) =>
        match extractStage s (fieldLE a 6 2) (fieldLE a 8 2) (dataArea kk body) with
        | (s, .error d) => (countDrop e.port d s, none)
        | (s, .ok us) =>
          let s := sendUpdates e us s
          let dflags := b2n authok + 2 * b2n exceeded
          if fieldLE a 4 2 = 0xFFFF then (countDrop e.port .noroute s, none)
          else match liveRec s 0x12 (fieldLE a 4 2) with
          | none => (countDrop e.port .dangle s, none)
          | some r =>
            let dests := (List.range 4).map (fun i => slice r (8 * i) 8)
            dests.foldl (fun acc d => routeCopy e kk (if dflt then 0xFFFF else act) dflags rclass body d acc) (s, none)

/-- A pipeline takes one event through the stages of Table GTW-1 (R344, R345, R348). -/
def classifyEvent (e : Event) (s : State) : State :=
  let sub := e.port == 64 || e.port == 70
  let kk := if sub then fieldLE e.body 0 1 else e.kk
  let body := if sub then e.body.drop 4 else e.body
  let whole := decide (e.port ≤ 5) && bit (reg s (0x440200 + e.port * 0x10000)) 0
  let cut := e.err && (whole || decide (body.length < fieldOf s (0x100004 + e.port * 0x1000) 0 8))
  if (sub ∧ e.body.length < 4) ∨ !bodyOk kk body ∨ cut then
    traceEvent e none body.length (countDrop e.port .fmt s)
  else
    let (s, q) := runStages e kk body s
    traceEvent e q body.length s

end Sys2Proof.Machine
end

