-- ==== Sys2Proof/Machine/Ethernet.lean ====
section
/-! DEFINITION. Ethernet ports: shaper, MACsec, receive and transmit, TC10, PLCA (chapter 11). -/

namespace Sys2Proof.Machine

open Sys2Proof

/-! ## Ports -/

/-- The state of an Ethernet port. -/
def ethOf (s : State) (p : Nat) : Eth := nth s.h.eth.ports p Eth.reset

/-- The state with an Ethernet port replaced. -/
def setEth (s : State) (p : Nat) (e : Eth) : State := { s with h.eth.ports := s.h.eth.ports.set p e }

/-- An address in the page of a port. -/
def ethReg (p off : Nat) : Nat := 0x440000 + p * 0x10000 + off

/-- The link rate of a port in Mbit/s (R453, R454). -/
def linkRate (s : State) (p : Nat) : Nat :=
  if p ≤ 1 then (match fieldOf s (ethReg p 0) 1 2 with | 0 => 10000 | 1 => 5000 | _ => 2500)
  else if p ≤ 5 then 1000 else if p ≤ 9 then 100 else 10

/-- Whether MACsec is on at a port (R480). -/
def macsecOn (s : State) (p : Nat) : Bool := decide (p ≤ 5) && bit (reg s (ethReg p 0x200)) 0

/-- The EtherType of an Ethernet body, read after at most one tag (R350). -/
def etherType (b : Bytes) : Nat := (ethTag 0 0 b).2

/-- The SecTAG and ICV bytes that MACsec adds to a body of a port (R472, R480). -/
def secOverhead (s : State) (p : Nat) (b : Bytes) : Nat :=
  if macsecOn s p && etherType b != 0x888E then (if bit (reg s (ethReg p 0x200)) 6 then 32 else 24) else 0

/-- The bytes a frame takes on the wire: body padded to 60, SecTAG and ICV, FCS, and 20 bytes of preamble and interframe gap (R332, R461, R472). -/
def wireBytes (s : State) (p : Nat) (b : Bytes) : Nat := max 60 (b.length + secOverhead s p b) + 4 + 20

/-- The time in ns a body of `len` bytes takes at the present link rate. -/
def txTimeNs (s : State) (p len : Nat) : Nat := ceilDiv ((max 60 len + 24) * 8 * 1000) (linkRate s p)

/-- Whether a port is blocked by its own state (R462). -/
def ethBlocked (s : State) (p : Nat) : Bool :=
  let e := ethOf s p
  !bit (reg s (ethReg p 0)) 0 || !e.link || (decide (6 ≤ p) && decide (p ≤ 9) && (e.t1 == 2 || e.t1 == 3))

/-- The port entered into or removed from the blocked ports; a frame in transmission when it becomes blocked is ended and counted (R462). -/
def ethPortState (p : Nat) (s : State) : State :=
  let b := ethBlocked s p
  let s := if b && !isBlocked s p && (KMap.get? s.h.fab.txing p).isSome then
      bump { s with h.fab.txing := KMap.del s.h.fab.txing p } (ethReg p 0x50) 0 16 1
    else s
  setBlocked p b s

/-! ## The credit-based shaper (R472, R473) -/

/-- Whether the shaper of class c is on and not suspended. -/
def cbsOn (s : State) (p c : Nat) : Bool :=
  let r := reg s (ethReg p (0x100 + 4 * c))
  decide (p ≤ 11) && bit r 31 && decide (bits r 0 24 ≤ linkRate s p * 1000)

/-- A shaped queue may send while its credit is zero or more (R329). -/
def cbsReady (s : State) (p q : Nat) : Bool :=
  decide (8 ≤ q) || !cbsOn s p q || decide (0 ≤ KMap.getD s.h.eth.credit (p * 8 + q) 0)

/-- The credit of one class after `ns` nanoseconds of its present condition (802.1Q-2022 clause 8.6.8.2): it falls at the send slope while a frame of the class is on the wire, stands while the gate is closed, rises at the idle slope while frames wait or it is negative, and a positive credit of an empty queue is lost. -/
def cbsStep (s : State) (p c ns : Nat) : Int :=
  let k := p * 8 + c
  let cr := KMap.getD s.h.eth.credit k 0
  let idle : Int := bits (reg s (ethReg p (0x100 + 4 * c))) 0 24
  let sending := match KMap.get? s.h.fab.txing p with
    | some f => f.queue == p * 16 + c && decide (s.time.now < (ethOf s p).txEnd)
    | none => false
  if sending then cr + (idle - linkRate s p * 1000) * ns
  else if qSched s (p * 16 + c) == 2 && !bit (gatesNow s p) c then cr
  else if !(queueOf s (p * 16 + c)).isEmpty then cr + idle * ns
  else if cr < 0 then min 0 (cr + idle * ns)
  else 0

/-- The credits of every shaped class advanced by one tick. -/
def cbsTick (ns : Nat) (s : State) : State :=
  let ks := (List.range 12).flatMap (fun p => ((List.range 8).filter (fun c => cbsOn s p c)).map (fun c => (p, c)))
  { s with h.eth.credit := ks.foldl (fun m k =>
      let v := cbsStep s k.1 k.2 ns
      if v = 0 then KMap.del m (k.1 * 8 + k.2) else KMap.put m (k.1 * 8 + k.2) v) s.h.eth.credit }

/-! ## MACsec (R478 to R494) -/

/-- The register base of transmit association a, and of association a of receive channel c. -/
def txSa (p a : Nat) : Nat := ethReg p (0x400 + 0x20 * a)
@[inherit_doc txSa] def rxSa (p c a : Nat) : Nat := ethReg p (0x500 + 0x80 * c + 0x20 * a)

/-- The 64-bit PN of an association. -/
def saPn (s : State) (sa : Nat) : Nat := reg s (sa + 4) + reg s (sa + 8) * 2 ^ 32

/-- An association's PN set by the device's own advance (R486: a result, not journalled). -/
def setSaPn (sa v : Nat) (s : State) : State := setReg (setReg s (sa + 4) (v % 2 ^ 32)) (sa + 8) (v / 2 ^ 32)

/-- CIPHER of a port, and whether it is an XPN suite. -/
def msCipher (s : State) (p : Nat) : Nat := fieldOf s (ethReg p 0x200) 3 2
@[inherit_doc msCipher] def msXpn (s : State) (p : Nat) : Bool := decide (2 ≤ msCipher s p)

/-- The key of an association, where it is usable (R479, R494): INUSE, a committed key of MACsec usage, of the length of the suite. -/
def saKey (s : State) (p sa : Nat) : Option Bytes :=
  if !bit (reg s sa) 16 || s.h.eth.dead.contains sa then none
  else match usableKey s (bits (reg s sa) 0 16) 4 with
  | some (_, k) => if k.length = (if msCipher s p % 2 = 0 then 16 else 32) then some k else none
  | none => none

/-- The salt of an association, 96 bits. -/
def saSalt (s : State) (sa : Nat) : Nat := reg s (sa + 0x10) + reg s (sa + 0x14) * 2 ^ 32 + reg s (sa + 0x18) * 2 ^ 64

/-- The GCM IV of a frame (802.1AE-2018): SCI and PN, or for the XPN suites the salt with SSCI and the 64-bit PN. -/
def msIv (s : State) (p sa : Nat) (sci : Bytes) (pn : Nat) : Bytes :=
  if msXpn s p then be 12 (Nat.xor (saSalt s sa) (reg s (sa + 0xC) * 2 ^ 64 + pn % 2 ^ 64))
  else sci ++ be 4 pn

/-- The transmit SCI of a port, most significant byte first. -/
def txSci (s : State) (p : Nat) : Bytes := be 8 (reg s (ethReg p 0x208) + reg s (ethReg p 0x20C) * 2 ^ 32)

/-- The SecTAG (R480): EtherType, TCI and AN, short length, PN, and SCI where INCSCI is 1. `n` is the length of the secure data. -/
def secTag (s : State) (p an pn n : Nat) : Bytes :=
  let c := reg s (ethReg p 0x200)
  let tci := an + (if bit c 5 then 0x0C else 0) + (if bit c 6 then 0x20 else 0)
  be 2 0x88E5 ++ [byte tci, byte (if n < 48 then n else 0)] ++ be 4 pn ++ (if bit c 6 then txSci s p else [])

/-- A frame protected for transmission (R480, R481): none where the transmit association is not usable or its PN is spent. -/
def macsecProtect (p : Nat) (b : Bytes) (s : State) : State × Option Bytes :=
  if !macsecOn s p || etherType b == 0x888E then (s, some b)
  else
    let c := reg s (ethReg p 0x200)
    let sa := txSa p (bits c 8 2)
    let pn := saPn s sa
    let lim := if msXpn s p then 2 ^ 64 - 1 else 2 ^ 32 - 1
    match saKey s p sa with
    | none => (bump s (ethReg p 0x21C) 0 16 1, none)
    | some k =>
      if lim < pn then (bump s (ethReg p 0x21C) 0 16 1, none)
      else
        let data := b.drop 12
        let tag := secTag s p (bits c 8 2) (pn % 2 ^ 32) data.length
        let iv := msIv s p sa (txSci s p) pn
        let out := if bit c 5 then b.take 12 ++ tag ++ Config.gcmSeal k iv (b.take 12 ++ tag) data
          else b.take 12 ++ tag ++ data ++ Config.gcmSeal k iv (b.take 12 ++ tag ++ data) []
        let s := setSaPn sa (min (pn + 1) (2 ^ 64 - 1)) s
        let warn := if msXpn s p then 3 * 2 ^ 62 else 0xC0000000
        (if pn + 1 = warn then raise (0x038 + p) 0 s else s, some out)

/-- The outcome of the receive rules for a frame: the body delivered, or none. -/
abbrev MsRx := State × Option Bytes

/-- A received frame that carries a SecTAG (R483): the channel by SCI, the association by AN, then the receive rules of 802.1AE-2018 clause 10.6. -/
def macsecVerify (p : Nat) (b : Bytes) (s : State) : MsRx :=
  let c := reg s (ethReg p 0x200)
  let valid := bits c 1 2
  let tci := fieldBE b 14 1
  let sc := bit tci 5
  let tagLen := if sc then 16 else 8
  let pnLow := fieldBE b 16 4
  let sl := fieldBE b 15 1
  let rest := b.drop (12 + tagLen)
  let bad := bit tci 7 || b.length < 12 + tagLen + 16 || sl ≥ 48 || (bit tci 6 && sc) || (bit tci 3 != bit tci 2)
    || (decide (sl ≠ 0) && decide (rest.length < sl + 16)) || (!msXpn s p && pnLow == 0)
  if bad then (bump s (ethReg p 0x21C) 16 16 1, none)
  else
    let sci := if sc then slice b 20 8 else slice b 6 6 ++ [0, 1]
    let ch := (List.range 4).find? (fun k => bit (reg s (ethReg p (0x308 + 0x10 * k))) 0 &&
      be 8 (reg s (ethReg p (0x300 + 0x10 * k)) + reg s (ethReg p (0x304 + 0x10 * k)) * 2 ^ 32) == sci)
    let enc := bit tci 3
    let plainBody := b.take 12 ++ (rest.take (rest.length - 16))
    let unusable := fun (s : State) =>
      let s := bump s (ethReg p 0x214) 0 16 1
      if valid = 2 ∨ enc then (s, none) else (s, some plainBody)
    match ch with
    | none => unusable s
    | some k =>
      let sa := rxSa p k (bits tci 0 2)
      match saKey s p sa with
      | none => unusable s
      | some key =>
        let low := saPn s sa
        let pn := if msXpn s p then
            (let hi := low / 2 ^ 32 * 2 ^ 32 + pnLow
             if bit low 31 && !bit pnLow 31 then hi + 2 ^ 32 else hi)
          else pnLow
        let window := reg s (ethReg p 0x204)
        let replay := bit c 7
        if replay && decide (pn + window < low) then (bump s (ethReg p 0x218) 0 16 1, none)
        else
          let tag := slice b 12 tagLen
          let iv := msIv s p sa sci pn
          let opened := if enc then (Config.gcmOpen key iv (b.take 12 ++ tag) rest).map (fun d => b.take 12 ++ d)
            else (Config.gcmOpen key iv (b.take 12 ++ tag ++ rest.take (rest.length - 16)) (rest.drop (rest.length - 16))).map (fun _ => plainBody)
          let good := opened.isSome
          let s := if valid ≠ 0 && !good then bump s (ethReg p 0x214) 16 16 1 else s
          let s := if (good || valid = 0) && decide (low ≤ pn) then setSaPn sa (min (pn + 1) (2 ^ 64 - 1)) s else s
          match opened with
          | some d => (bump s (ethReg p 0x210) 0 32 1, some d)
          | none => if valid = 2 ∨ enc then (s, none) else (bump s (ethReg p 0x210) 0 32 1, some plainBody)

/-- The receive side of MACsec (R483 to R485): the body delivered to the pipeline, if any. -/
def macsecRx (p : Nat) (b : Bytes) (s : State) : MsRx :=
  if !macsecOn s p then (s, some b)
  else if fieldBE b 12 2 = 0x88E5 then macsecVerify p b s
  else if fieldBE b 12 2 = 0x888E then (s, some b)
  else if fieldOf s (ethReg p 0x200) 1 2 = 2 then (bump s (ethReg p 0x218) 16 16 1, none)
  else (s, some b)

/-! ## Receive -/

/-- A frame received by a MAC (R457, R459, R460, R484), stamped at its SFD: `frame` holds its bytes from the destination address to the last byte before the FCS. -/
def ethReceive (p : Nat) (stamp : Stamp) (frame : Bytes) (fcsOk : Bool) (s : State) : State :=
  let len := frame.length + 4
  let maxLen := fieldOf s (ethReg p 0) 16 14
  let long := decide (maxLen < len)
  let runt := decide (len < 64)
  let s := if long then bump s (ethReg p 0x44) 16 16 1
    else if runt then bump s (ethReg p 0x48) 16 16 1
    else if !fcsOk then bump s (ethReg p 0x44) 0 16 1 else s
  let err := long || runt || !fcsOk
  let body := if long then frame.take (maxLen - 4) else frame
  if !err && fieldBE body 12 2 == 0x8808 then bump s (ethReg p 0x48) 0 16 1
  else if isLate s stamp then dropLate s
  else if err then submitAt p stamp stamp 0 3 body true 0 s
  else
    match macsecRx p body s with
    | (s, none) => s
    | (s, some b) => submitAt p stamp stamp 0 3 b false 0 (bump s (ethReg p 0x40) 0 32 1)

/-! ## Transmit -/

/-- The CRC of IEEE 802.3 over a byte string, as the four FCS bytes in the order of transmission. -/
def fcs (bs : Bytes) : Bytes :=
  let step1 := fun (c : Nat) => if c % 2 = 1 then Nat.xor (c / 2) 0xEDB88320 else c / 2
  let crc := bs.foldl (fun c b => (List.range 8).foldl (fun c _ => step1 c) (Nat.xor c b.toNat)) 0xFFFFFFFF
  le 4 (Nat.xor crc 0xFFFFFFFF)

/-- The timestamp record of a PTP frame pushed onto the port's ring (R475). -/
def ptpStamp (p : Nat) (b : Bytes) (s : State) : State :=
  if !bit (reg s (ethReg p 0x14)) 0 || etherType b != 0x88F7 then s
  else
    let o := if ethTagged b then 18 else 14
    let e := ethOf s p
    if 16 ≤ e.ring.length then bump s (ethReg p 0x2C) 16 16 1
    else setEth s p { e with ring := e.ring ++ [⟨s.time.now, fieldLE b o 1 % 16, fieldLE b (o + 4) 1, fieldBE b (o + 30) 2⟩] }

/-- The frame in transmission ends without error: it is counted as sent (Table ETH-13), and a PLCA restart that waited takes place (R470). -/
def ethTxDone (p : Nat) (s : State) : State :=
  match KMap.get? s.h.fab.txing p with
  | none => s
  | some _ =>
    let s := bump { s with h.fab.txing := KMap.del s.h.fab.txing p } (ethReg p 0x4C) 0 32 1
    setEth s p { ethOf s p with attempts := 0, plcaRestart := false }

/-- A frame chosen for a port starts on the wire (R298, R299, R461, R475, R480): it is discarded where it is too long or ended in error in a queue without CUT, and sent with the complement of its FCS where it ended in error in a queue with CUT. -/
def ethStart (p : Nat) (f : Frame) (s : State) : State :=
  let cut := bit (qflags s f.queue) 1
  if f.err && !cut then s
  else if f.bytes.length > fieldOf s (ethReg p 0) 16 14 - 4 then bump s (ethReg p 0x50) 16 16 1
  else
    match macsecProtect p f.bytes s with
    | (s, none) => s
    | (s, some b) =>
      let s := ptpStamp p f.bytes s
      let body := if b.length < 60 then padTo 60 b else b
      let sum := fcs body
      let s := if f.err then bump s (0x100044 + p * 0x1000) 16 16 1 else s
      let wire := body ++ (if f.err then sum.map (fun x => ~~~x) else sum)
      let s := { s with h.fab.txing := KMap.put s.h.fab.txing p f }
      setEth s p { ethOf s p with attempts := 1, wire := wire, txEnd := s.time.now + ceilDiv ((wire.length + 20) * 8 * 1000) (linkRate s p) }

/-! ## Events of a port -/

/-- The link of a port goes up or down (R456, R463, R468): the port's blocking follows; a T1 port in WAKING whose link comes up is NORMAL again and counts a wake (Table ETH-2). -/
def ethLink (p : Nat) (up : Bool) (sqi : Nat) (anDone : Bool) (s : State) : State :=
  let e := ethOf s p
  let t1port := decide (6 ≤ p) && decide (p ≤ 9)
  let woke := up && t1port && e.t1 == 3
  let s := if woke then bump s (ethReg p 0x54) 16 16 1 else s
  ethPortState p (setEth s p { e with link := up, t1 := if woke then 0 else e.t1, sqi := if t1port then sqi % 8 else 0, anDone := decide (2 ≤ p) && decide (p ≤ 5) && bit (reg s (ethReg p 0)) 3 && anDone })

/-- A collision on a 10BASE-T1S segment (R469). -/
def ethCollide (p : Nat) (s : State) : State :=
  if p ≠ 10 ∧ p ≠ 11 then s
  else match KMap.get? s.h.fab.txing p with
  | none => s
  | some _ =>
    let e := ethOf s p
    if 16 ≤ e.attempts then
      setEth (bump { s with h.fab.txing := KMap.del s.h.fab.txing p } (ethReg p 0x50) 16 16 1) p { e with attempts := 0, plcaRestart := false }
    else setEth s p { e with attempts := e.attempts + 1 }

/-- A write of a PLCA register restarts PLCA once any frame in transmission has ended (R470). -/
def plcaEffect (p : Nat) (s : State) : State :=
  setEth s p { ethOf s p with plcaRestart := (KMap.get? s.h.fab.txing p).isSome }

/-- A TC10 state of a T1 port with its blocking (R462, R464). -/
def setT1 (p st : Nat) (s : State) : State := ethPortState p (setEth s p { ethOf s p with t1 := st, link := if st = 2 then false else (ethOf s p).link })

/-- ETH.T1CTL written: SLEEP from NORMAL sends a request; WAKE in SLEEP sends a wake-up pulse (Table ETH-2). -/
def t1ctlEffect (p v : Nat) (s : State) : State :=
  let s := if bit v 0 && (ethOf s p).t1 == 0 then setT1 p 1 s else s
  if bit v 1 && (ethOf s p).t1 == 2 then setT1 p 3 s else s

end Sys2Proof.Machine
end

