-- ==== Sys2Proof/Machine/Fabric.lean ====
section
/-! DEFINITION. The ledger, progress and release, the express matcher, and the egress scheduler (chapters 07 and 08). -/

namespace Sys2Proof.Machine

open Sys2Proof

/-! ## The ledger (R319) -/

/-- The model entries of a port. -/
def fifoOf (s : State) (e : Nat) : List LEntry := KMap.getD s.h.fab.fifo e []

/-- The state with a port's model entries set. -/
def setFifo (s : State) (e : Nat) (l : List LEntry) : State :=
  { s with h.fab.fifo := if l.isEmpty then KMap.del s.h.fab.fifo e else KMap.put s.h.fab.fifo e l }

/-- The entries that a credit covers, from the head: the entries left, the credit left, and the cells each queue gets back. -/
def coverEntries : List LEntry → Nat → List LEntry × Nat × List (Nat × Nat)
  | [], r => ([], r, [])
  | h :: t, r =>
    if h.size * 2 ^ 20 ≤ r then
      let (l, r', back) := coverEntries t (r - h.size * 2 ^ 20)
      (l, r', (h.queue, h.cells) :: back)
    else (h :: t, r, [])

/-- Cells given back to their queues. -/
def giveBack (s : State) (back : List (Nat × Nat)) : State :=
  back.foldl (fun s p => setOcc s p.1 (occOf s p.1 - p.2)) s

/-- Model departures of one port at its present credit (R319 step 1). -/
def departPort (e : Nat) (s : State) : State :=
  let (l, r, back) := coverEntries (fifoOf s e) (KMap.getD s.h.fab.credit e 0)
  let s := setFifo (giveBack s back) e l
  { s with h.fab.credit := if l.isEmpty then KMap.del s.h.fab.credit e else KMap.put s.h.fab.credit e r }

/-- The model rate of a port. -/
def modelRate (s : State) (e : Nat) : Nat := fieldOf s (0x100084 + e * 0x1000) 0 24

/-- Step 1 for a port with RATE > 0: the credit grows unless the port is blocked or out of service, then its entries depart. -/
def creditPort (s : State) (e : Nat) : State :=
  let s := if !(fifoOf s e).isEmpty && !wasStopped s e then
      { s with h.fab.credit := KMap.put s.h.fab.credit e (KMap.getD s.h.fab.credit e 0 + modelRate s e) }
    else s
  departPort e s

/-- Step 1 for a frame an endpoint has taken: its cells return and its entry goes. -/
def takeEntry (s : State) (t : Nat × Nat) : State :=
  match (fifoOf s t.1).find? (fun x => x.id == t.2) with
  | none => s
  | some x => setFifo (setOcc s x.queue (occOf s x.queue - x.cells)) t.1 ((fifoOf s t.1).filter (fun y => y.id != t.2))

/-- Step 1 of R319. -/
def ledgerDepartures (s : State) : State :=
  let s := (s.h.fab.fifo.map (fun p => p.1)).foldl (fun s e => if modelRate s e > 0 then creditPort s e else s) s
  let ts := s.h.fab.takes
  ts.foldl takeEntry { s with h.fab.takes := [] }

/-- One frame purged from a queue (R327): counted in QPURGE; its ledger entry goes, or PSTALE counts. -/
def purgeFrame (s : State) (f : Frame) : State :=
  let e := f.queue / 16
  let s := setQueue s f.queue ((queueOf s f.queue).filter (fun g => g.id != f.id))
  let s := bump s (qReg f.queue 0xC) 0 32 1
  if (fifoOf s e).any (fun x => x.id == f.id) then takeEntry s (e, f.id)
  else bump s (0x100094 + e * 0x1000) 0 32 1

/-- The hold-limit purge of one port at tick j (R327, R319 step 2). -/
def purgePort (j e : Nat) (s : State) : State :=
  let lim := msTicks (fieldOf s (0x100088 + e * 0x1000) 0 16)
  let old := (List.range 16).flatMap (fun q => (queueOf s (e * 16 + q)).filter (fun f => decide (tickOf f.pres + lim < j)))
  old.foldl purgeFrame s

/-- Ports that hold frames and were blocked or out of service before this tick (R336, R337). -/
def heldPorts (s : State) : List Nat :=
  ((s.h.fab.queues.map (fun p => p.1 / 16)).dedup).filter (wasStopped s)

/-- Step 2 of R319. -/
def ledgerPurges (j : Nat) (s : State) : State := (heldPorts s).foldl (fun s e => purgePort j e s) s

/-- Every frame of a port's express queues purged (R326). -/
def expressPurge (e : Nat) (s : State) : State :=
  ((List.range 8).flatMap (fun c => queueOf s (e * 16 + 8 + c))).foldl purgeFrame s

/-- The verdict of R319 step 3 on a frame of `n` cells for queue Q: admitted, or dropped as NOSVC or CONG. -/
inductive Admission
  | admitted | nosvc | cong
deriving DecidableEq, Repr

/-- The admission rule of R319 step 3. -/
def admission (s : State) (q n : Nat) : Admission :=
  let occ := occOf s q
  let minc := qMinc s q
  if !qEnabled s q || (bit q 3 && wasOut s (q / 16)) then .nosvc
  else if occ + n > qMaxc s q then .cong
  else if occ + n > minc ∧ sharedUse s + (occ + n - max occ minc) > sharedPool s then .cong
  else .admitted

/-- The overhead bytes of a port's model. -/
def modelOvh (s : State) (e : Nat) : Nat := fieldOf s (0x100084 + e * 0x1000) 24 8

/-- The highest shared use since it was last read (R334, FAB.BUFPEAK). -/
def noteUse (s : State) : State :=
  if sharedUse s > fieldOf s 0x10C014 0 17 then setField s 0x10C014 0 17 (sharedUse s) else s

/-- A frame admitted for a virtual port, noted in the order of its taking (R371). -/
def noteTake (e id : Nat) (s : State) : State :=
  if 80 ≤ e then { s with h.fab.takes := s.h.fab.takes ++ [(e, id)] } else s

/-- A frame handed to its plane: queues 8 to 15 of a port to the express plane, the others to the ordered plane (chapter 07, Overview). -/
def toPlane (f : Frame) (s : State) : State :=
  if bit f.queue 3 then { s with h.fab.express := s.h.fab.express ++ [f] }
  else { s with h.fab.ordered := s.h.fab.ordered ++ [f] }

/-- A frame admitted: charged to the ledger, counted, and handed to its plane. A virtual port takes it at the start of the next tick (R371). -/
def admitFrame (f : Frame) (s : State) : State :=
  let n := cellsOf f.bytes.length
  let e := f.queue / 16
  let s := setOcc s f.queue (occOf s f.queue + n)
  let s := setFifo s e (fifoOf s e ++ [⟨f.queue, n, f.bytes.length + modelOvh s e, f.id⟩])
  let s := bump s (qReg f.queue 4) 0 32 1
  let s := noteUse s
  toPlane f (noteTake e f.id s)

/-- The admission or drop of a submission reported to its maker: the journal's drain message (R254), a SEND (R239), or a trace record (R186). -/
def reportAdmission (mark : Nat) (ok : Bool) (s : State) : State :=
  match mark with
  | 1 => if ok then jSent s else { s with h.jrn.awaiting := none }
  | 2 => if ok then s else hostRefuse 0x16 s
  | 3 => if ok then s else bump s 0x30028 0 32 1
  | _ => s

/-- Step 3 of R319 for one frame. -/
def decideFrame (s : State) (f : Frame) : State :=
  match admission s f.queue (cellsOf f.bytes.length) with
  | .admitted => reportAdmission f.mark true (admitFrame f s)
  | .nosvc => reportAdmission f.mark false (bump s (qReg f.queue 8) 16 16 1)
  | .cong => reportAdmission f.mark false (bump s (qReg f.queue 8) 0 16 1)

/-- Step 3 of R319: the frames whose tick is at most j, in key order. -/
def ledgerAdmissions (j : Nat) (s : State) : State :=
  let due := sortBy frameKey (s.h.fab.toAdmit.filter (fun f => decide (tickOf f.pres ≤ j)))
  due.foldl decideFrame { s with h.fab.toAdmit := s.h.fab.toAdmit.filter (fun f => !decide (tickOf f.pres ≤ j)) }

/-- The ledger's commit of tick j: departures, purges, admissions, in that order (R319, R335). -/
def ledgerCommit (j : Nat) (s : State) : State := ledgerAdmissions j (ledgerPurges j (ledgerDepartures s))

/-! ## Progress and release -/

/-- The least of two progress values, none standing for +infinity. -/
def minOpt : Option Nat → Option Nat → Option Nat
  | none, b => b
  | a, none => a
  | some a, some b => some (min a b)

/-- The tick of the oldest event of a port not yet classified. -/
def oldestEvent (s : State) (p : Nat) : Option Nat :=
  (s.h.fab.ingress.filter (fun e => e.port == p)).foldl (fun m e => minOpt m (some (tickOf e.pres))) none

/-- The oldest tick among frames for a port that are not yet in a queue of it. -/
def oldestUnreleased (s : State) (v : Nat) : Option Nat :=
  (s.h.fab.toAdmit ++ s.h.fab.ordered ++ s.h.fab.express).foldl
    (fun m f => if f.queue / 16 == v then minOpt m (some (tickOf f.pres)) else m) none

/-- The oldest tick among the queued inputs of a virtual port not yet consumed. -/
def oldestInput (s : State) (v : Nat) : Option Nat :=
  s.h.fab.queues.foldl (fun m p => if p.1 / 16 == v then p.2.foldl (fun m f => minOpt m (some (tickOf f.pres))) m else m) none

/-- The tick of the next timed emission of a virtual port (R375, R378). -/
def nextTimed (s : State) (v : Nat) : Option Nat :=
  let c := s.h.gtw.boundary.foldl (fun m p =>
    match liveRec s 0x17 p.1 with
    | some r => if fieldLE r 0 1 == v then minOpt m (some (tickOf p.2)) else m
    | none => m) none
  s.h.gtw.tunnels.foldl (fun m p =>
    match liveRec s 0x18 p.1 with
    | some r => if fieldLE r 0 1 == v && p.2.count != 0 then minOpt m (some (tickOf (p.2.first + fieldLE r 4 2 * 1000))) else m
    | none => m) c

/-- The ports that exist (Table QUE-1). -/
def allPorts : List Nat := (List.range 256).filter (fun p => !reservedPort p)

/-- The progress of ingress port p toward egress port e at tick k (R280, R372); none stands for +infinity. A virtual port of role NONE takes and emits nothing (R369, log entry 14). The count bounds the chain of virtual ports, which R369 keeps free of cycles. -/
def progress (s : State) (k : Nat) : Nat → Nat → Nat → Option Nat
  | 0, _, _ => none
  | n + 1, p, e =>
    if !inReach s p e then none
    else if p < 80 then
      match oldestEvent s p with
      | some t => some t
      | none => some (k - 1)
    else if vrole s p = 0 then none
    else
      let own := minOpt (oldestInput s p) (minOpt (oldestEvent s p) (minOpt (nextTimed s p) (oldestUnreleased s p)))
      (allPorts.filter (fun q => q != p)).foldl (fun m q => minOpt m (progress s k n q p)) own

/-- Whether every port that reaches e has progressed beyond tick j. -/
def progressed (s : State) (j e : Nat) (ports : List Nat) : Bool :=
  ports.all (fun p => match progress s (sysTick s) 178 p e with
    | none => true
    | some t => decide (j < t))

/-- A head may be released at tick j where every port has progressed beyond it and no frame of tick j or earlier for its port is still on its way (R287). -/
def releasable (s : State) (f : Frame) : Bool :=
  progressed s (tickOf f.pres) (f.queue / 16) allPorts &&
  !(s.h.fab.toAdmit.any (fun g => g.queue / 16 == f.queue / 16 && decide (tickOf g.pres ≤ tickOf f.pres)))

/-- A frame joins its queue. -/
def enqueue (s : State) (f : Frame) : State := setQueue s f.queue (queueOf s f.queue ++ [f])

/-- The heads that egress port e may release, in key order, released into their queues (R287, R302). -/
def releaseHeads (e : Nat) (s : State) : State :=
  let ready := sortBy frameKey (s.h.fab.ordered.filter (fun f => f.queue / 16 == e && releasable s f))
  let ids := ready.map (fun f => f.id)
  ready.foldl enqueue { s with h.fab.ordered := s.h.fab.ordered.filter (fun f => !ids.contains f.id) }

/-! ## The express matcher (R291 to R295) -/

/-- The express ports in ascending order: their places are the express indices (R291). -/
def expressPorts (s : State) : List Nat := allPorts.filter (isExpress s)

/-- The key of a pointer of (port index, class). -/
def ptrKey (x c : Nat) : Nat := x * 8 + c

/-- Whether a head is requestable (R292). -/
def requestable (s : State) (f : Frame) : Bool :=
  if bit (qflags s f.queue) 2 then true
  else progressed s (tickOf f.pres) (f.queue / 16) (expressPorts s)

/-- The requestable heads for output o and class c: the first in key order of each input (R291). -/
def requestHeads (s : State) (ports : List Nat) (o c : Nat) : List Frame :=
  let q := nth ports o 0 * 16 + 8 + c
  let fs := sortBy frameKey (s.h.fab.express.filter (fun f => f.queue == q))
  let firsts := fs.foldl (fun acc f => if acc.any (fun g : Frame => g.inport == f.inport) then acc else acc ++ [f]) []
  firsts.filter (requestable s)

/-- The index of a port among the express ports. -/
def portIndex (ports : List Nat) (p : Nat) : Nat := ports.findIdx (fun x => x == p)

/-- The first index at or after a pointer, in cyclic order over n, that satisfies a test. -/
def firstFrom (n ptr : Nat) (test : Nat → Bool) : Option Nat :=
  ((List.range n).map (fun k => (ptr + k) % n)).find? test

/-- The grant of an unmatched output: the input and the class (R293). -/
def grantOf (s : State) (ports : List Nat) (matchedI : List Nat) (o : Nat) : Option (Nat × Nat × Frame) :=
  let nx := ports.length
  let try1 := fun (c : Nat) =>
    let heads := requestHeads s ports o c
    if bit (qflags s (nth ports o 0 * 16 + 8 + c)) 2 then
      match firstFrom nx (KMap.getD s.h.fab.gptr (ptrKey o c) 0)
          (fun i => !matchedI.contains i && heads.any (fun f => portIndex ports f.inport == i)) with
      | none => none
      | some i => (heads.find? (fun f => portIndex ports f.inport == i)).map (fun f => (i, c, f))
    else
      match heads with
      | [] => none
      | h :: t =>
        let least := t.foldl (fun m f => if keyLe (frameKey m) (frameKey f) then m else f) h
        let i := portIndex ports least.inport
        if matchedI.contains i then none else some (i, c, least)
  [7, 6, 5, 4, 3, 2, 1, 0].foldl (fun acc c => match acc with | some g => some g | none => try1 c) none

/-- One round of grant and accept (R293): the new pairs with their frames. -/
def matchRound (s : State) (ports : List Nat) (first : Bool) (acc : State × List XPair × List Frame) :
    State × List XPair × List Frame :=
  let (st, pairs, got) := acc
  let nx := ports.length
  let mi := pairs.map (fun p => p.i)
  let mo := pairs.map (fun p => p.o)
  let grants := ((List.range nx).filter (fun o => !mo.contains o)).filterMap
    (fun o => (grantOf s ports mi o).map (fun g => (o, g)))
  (List.range nx).foldl (fun acc i =>
    let (st, pairs, got) := acc
    let mine := grants.filter (fun g => g.2.1 == i)
    if mi.contains i || mine.isEmpty then (st, pairs, got)
    else
      let c := mine.foldl (fun m g => max m g.2.2.1) 0
      match firstFrom nx (KMap.getD s.h.fab.aptr (ptrKey i c) 0) (fun o => mine.any (fun g => g.1 == o && g.2.2.1 == c)) with
      | none => (st, pairs, got)
      | some o =>
        match mine.find? (fun g => g.1 == o && g.2.2.1 == c) with
        | none => (st, pairs, got)
        | some g =>
          let f := g.2.2.2
          let st := if first then
              { st with h.fab.gptr := KMap.put st.h.fab.gptr (ptrKey o c) ((i + 1) % nx),
                        h.fab.aptr := KMap.put st.h.fab.aptr (ptrKey i c) ((o + 1) % nx) }
            else st
          (st, pairs ++ [⟨i, o, cellsOf f.bytes.length⟩], got ++ [f])) (st, pairs, got)

/-- The matcher's cell time (R293, R294): ROUNDS rounds among the ports that carry no frame in progress, then one cell of every pair crosses; a matched frame's head joins its queue. -/
def matchCell (s : State) : State :=
  let ports := expressPorts s
  let rounds := fieldOf s 0x10C004 0 3
  let (st, pairs, got) := (List.range rounds).foldl (fun acc r => matchRound
      { s with h.fab.express := s.h.fab.express.filter (fun f => !acc.2.2.any (fun g : Frame => g.id == f.id)) }
      ports (r == 0) acc) (s, s.h.fab.pairs, [])
  let ids := got.map (fun f => f.id)
  let st := { st with
    h.fab.express := st.h.fab.express.filter (fun f => !ids.contains f.id),
    h.fab.pairs := (pairs.map (fun p => { p with left := p.left - 1 })).filter (fun p => decide (0 < p.left)) }
  got.foldl enqueue st

/-! ## The egress scheduler (R329, R330) -/

/-- The size of a frame: the sum of its VLEN values. -/
def frameSize (f : Frame) : Nat := f.bytes.length

/-- The time until the gate of class c next closes, over one turn of the list from the record in force; none where it stays open. -/
def gateCloseIn (s : State) (e c : Nat) : Option Nat :=
  match KMap.get? s.h.fab.gate e with
  | none => none
  | some (i, endAt, _) =>
    let l := KMap.getD s.h.fab.gateList e []
    let n := l.length
    let rec walk : Nat → Nat → Nat → Option Nat
      | 0, _, _ => none
      | k + 1, j, t =>
        let r := nth l (j % (max n 1)) []
        if !bit (fieldLE r 4 1) c then some t else walk k (j + 1) (t + fieldLE r 0 4)
    walk n (i + 1) (endAt - s.time.now)

/-- Whether a queue is eligible (R329). -/
def eligible (s : State) (q : Nat) : Bool :=
  let e := q / 16
  match queueOf s q with
  | [] => false
  | f :: _ =>
    !isBlocked s e && !outOfService s e &&
    (qSched s q != 2 || (bit (gatesNow s e) (q % 16) &&
      (match gateCloseIn s e (q % 16) with
       | none => true
       | some t => decide (txTimeNs s e f.bytes.length ≤ t)))) &&
    cbsReady s e (q % 16)

/-- Deficit round robin over the eligible weighted queues (R330): the queue chosen with the pointers and deficits after it. The pointer is q × 2, plus 1 while the quantum of the present visit is already earned. -/
def drrChoose (s : State) (e : Nat) (qs : List Nat) : Nat → Nat → KMap Nat → Option (Nat × Nat × KMap Nat)
  | 0, _, _ => none
  | n + 1, ptr, dfc =>
    match (qs.filter (fun q => decide (ptr / 2 ≤ q))).head?.or qs.head? with
    | none => none
    | some q =>
      let Q := e * 16 + q
      let stay := ptr == 2 * q + 1
      let d := KMap.getD dfc Q 0 + (if stay then 0 else fieldOf s (0x100240 + e * 0x1000 + 4 * q) 0 16 * 64)
      let size := match queueOf s Q with | f :: _ => frameSize f | [] => 0
      if size ≤ d then
        let d' := if (queueOf s Q).length ≤ 1 then 0 else d - size
        some (Q, if (queueOf s Q).length ≤ 1 then 2 * q else 2 * q + 1, if d' = 0 then KMap.del dfc Q else KMap.put dfc Q d')
      else drrChoose s e qs n (2 * (q + 1)) (KMap.put dfc Q d)

/-- The scheduler's choice for a port (R330): the queue, and the state with the round robin advanced. -/
def chooseQueue (s : State) (e : Nat) : Option (Nat × State) :=
  let qs := (List.range 16).filter (fun q => eligible s (e * 16 + q))
  let strict := qs.filter (fun q => qSched s (e * 16 + q) != 1)
  let better := fun (best : Option Nat) (q : Nat) => match best with
    | none => some q
    | some b => if q % 8 > b % 8 ∨ (q % 8 = b % 8 ∧ q > b) then some q else best
  match strict.foldl better none with
  | some q => some (e * 16 + q, s)
  | none =>
    match drrChoose s e qs 8192 (KMap.getD s.h.fab.drrPtr e 0) s.h.fab.deficit with
    | none => none
    | some (Q, ptr, dfc) => some (Q, { s with h.fab.drrPtr := KMap.put s.h.fab.drrPtr e ptr, h.fab.deficit := dfc })

/-- The head of a queue taken out of it. -/
def popQueue (s : State) (q : Nat) : Option (Frame × State) :=
  match queueOf s q with
  | [] => none
  | f :: r => some (f, setQueue s q r)

/-- The head frame an endpoint of a port takes next: chosen as the scheduler chooses, its take stamped now (R319). -/
def takeHead (s : State) (e : Nat) : Option (Frame × State) :=
  match chooseQueue s e with
  | none => none
  | some (q, s) =>
    match popQueue s q with
    | none => none
    | some (f, s) => some (f, { s with h.fab.takes := s.h.fab.takes ++ [(e, f.id)] })

end Sys2Proof.Machine
end

