-- ==== Sys2Proof/Machine/Crypto.lean ====
section
/-! DEFINITION. The security processor, its engines and its services (chapter 13). -/

namespace Sys2Proof.Machine

open Sys2Proof

/-! ## Random numbers (R579, R580) -/

/-- Bytes drawn from the DRBG in one generate request: free values, counted toward the next reseed (R579). -/
def drbgDraw (n : Nat) (s : State) : State × Bytes :=
  ({ s with free := s.free + n, h.sp.gens := s.h.sp.gens + 1 }, (List.range n).map (fun i => Config.drbgByte (s.free + i)))

/-! ## The engines' queues (R556 to R564) -/

/-- The order of jobs (R562): priority, tick of the take, requester, sequence number; the debug check has no requester and stands with the host port. -/
def jobKey (j : SpJob) : List Nat := [7 - j.prio, tickOf j.take, j.reqport, j.seq, j.id]

/-- The job of a number. -/
def jobOf (s : State) (id : Nat) : Option SpJob := s.h.sp.jobs.find? (fun j => j.id == id)

/-- The state with a job replaced. -/
def setJob (j : SpJob) (s : State) : State :=
  { s with h.sp.jobs := s.h.sp.jobs.map (fun x => if x.id == j.id then j else x) }

/-- The contexts or lanes of an engine that a job may hold: LME context 3 only at priority 6 or 7 (R556), 14 SP lanes (R561), 16 SHA-2 contexts (R563). -/
def ctxRange (engine prio : Nat) : List Nat :=
  match engine with
  | 1 => if 6 ≤ prio then [0, 1, 2, 3] else [0, 1, 2]
  | 2 => List.range 14
  | 3 => List.range 16
  | _ => []

/-- Contexts of an engine held by jobs. -/
def ctxBusy (s : State) (engine : Nat) : List Nat :=
  s.h.sp.jobs.filterMap (fun j => if j.engine == engine then j.ctx else none)

/-- A context given to a job that waits for one (R556, R561, R563): the free one of the lowest number. A job that asks leave asks it for its context, with its take stamp (R581, R839, R844). -/
def assignOne (s : State) (j : SpJob) : State :=
  if j.engine = 0 ∨ j.ctx.isSome then s
  else
    let busy := ctxBusy s j.engine
    match (ctxRange j.engine j.prio).find? (fun c => !busy.contains c) with
    | none => s
    | some c =>
      let us := (s.time.now - j.since) / 1000
      let s := if j.engine = 1 ∧ us > reg s 0x80008 then setReg s 0x80008 us else s
      let s := setJob { j with ctx := some c } s
      let s := if j.leave = 1 then { s with h.arb.q := s.h.arb.q ++ [⟨1, c, j.take, 0⟩] } else s
      if j.engine = 1 then
        { s with h.sp.lme := s.h.sp.lme.set c (some ⟨j.id, 0, 0, 0, 0, 0, none⟩) }
      else s

/-- Contexts and lanes given to the waiting jobs in the order of R562. -/
def assignJobs (s : State) : State := (sortBy jobKey s.h.sp.jobs).foldl assignOne s

/-- Jobs that wait for a context or lane of an engine. -/
def waitingJobs (s : State) (engine : Nat) : Nat :=
  (s.h.sp.jobs.filter (fun j => j.engine == engine && j.ctx.isNone)).length

/-- The value of the low `NB` limbs of an LME operand. -/
def limbs (n v : Nat) : Nat := v % 2 ^ (64 * n)

/-- A row of the LME on a context (Table CRY-1). -/
def lmeRow (c : LmeCtx) (r : LmeRow) : LmeCtx :=
  match r with
  | .mul x k => { c with acc := limbs 129 (c.acc + limbs 1 x * limbs c.nb c.b * 2 ^ (64 * k)) }
  | .red k =>
    let m := bits c.acc (64 * k) 64 * c.ninv % 2 ^ 64
    { c with acc := limbs 129 (c.acc + m * limbs c.nb c.n * 2 ^ (64 * k)) }
  | .clear => { c with acc := 0 }

/-- The row that runs in a context ends: it takes its effect. -/
def lmeRunRow (c : Nat) (s : State) : State :=
  match nth s.h.sp.lme c none with
  | some x =>
    match x.issued with
    | some r => { s with h.sp.lme := s.h.sp.lme.set c (some { lmeRow x r with issued := none }) }
    | none => s
  | none => s

/-- What the SP writes into a context it holds: operands (R553), or a row to run (R554). -/
def lmeIssueOne (s : State) (i : LmeIssue) : State :=
  match i with
  | .load c b n ninv nb =>
    (match nth s.h.sp.lme c none with
     | some x => { s with h.sp.lme := s.h.sp.lme.set c (some { x with b := b, n := n, ninv := ninv % 2 ^ 64, nb := max 1 (min 64 nb) }) }
     | none => s)
  | .mul c x k =>
    (match nth s.h.sp.lme c none with
     | some y => { s with h.sp.lme := s.h.sp.lme.set c (some { y with issued := some (.mul x k) }) }
     | none => s)
  | .red c k =>
    (match nth s.h.sp.lme c none with
     | some y => { s with h.sp.lme := s.h.sp.lme.set c (some { y with issued := some (.red k) }) }
     | none => s)
  | .clear c =>
    (match nth s.h.sp.lme c none with
     | some y => { s with h.sp.lme := s.h.sp.lme.set c (some { y with issued := some .clear }) }
     | none => s)

/-- The runnable context that comes first (R557): one with a row issued and not yet run. -/
def lmePick (s : State) : Option Nat :=
  let cs := (List.range 4).filterMap (fun c => match nth s.h.sp.lme c none with
    | some x => if x.issued.isSome then ((jobOf s x.job).filter (fun j => j.leave != 1)).map (fun j => (c, j)) else none
    | none => none)
  ((sortBy (fun p : Nat × SpJob => jobKey p.2) cs).head?).map (fun p => p.1)

/-- The end of an LME row (R557, R558): its effect, what the SP issues, and the context that runs next; a change of context is counted and costs the job left 24 engine cycles. -/
def lmeRowEnd (issues : List LmeIssue) (s : State) : State :=
  let s := match s.h.sp.lmeRun with | some c => lmeRunRow c s | none => s
  let s := issues.foldl lmeIssueOne s
  let next := lmePick s
  let old := s.h.sp.lmeRun
  let s := { s with h.sp.lmeRun := next }
  match old, next with
  | some a, some b =>
    if a = b then s
    else match nth s.h.sp.lme a none with
      | some x =>
        match jobOf s x.job with
        | some j => setJob { j with owed := j.owed + 24 } (bump s 0x80004 12 12 1)
        | none => s
      | none => s
  | _, _ => s

/-- The running SHA-2 context of an engine. -/
def shaRun (s : State) (e : Nat) : Option Nat := if e = 0 then s.h.sp.shaRun0 else s.h.sp.shaRun1

/-- The end of an SHA-2 block on engine e (R564): the engine runs next the runnable context that comes first; a change of context costs the job left 10 engine cycles. -/
def shaBlockEnd (e : Nat) (s : State) : State :=
  let mine := fun (s : State) => s.h.sp.jobs.filter (fun j => j.engine == 3 && (match j.ctx with | some c => c / 8 == e | none => false))
  let cur := (mine s).find? (fun j => shaRun s e == j.ctx)
  let s := match cur with | some j => setJob { j with blocks := j.blocks - 1 } s | none => s
  let next := (sortBy jobKey ((mine s).filter (fun j => decide (0 < j.blocks)))).head?
  let nc := next.bind (fun j => j.ctx)
  let s := match cur, next with
    | some a, some b => if a.id = b.id ∨ a.blocks ≤ 1 then s else
        (match jobOf s a.id with | some j => setJob { j with owed := j.owed + 10 } s | none => s)
    | _, _ => s
  if e = 0 then { s with h.sp.shaRun0 := nc } else { s with h.sp.shaRun1 := nc }

/-! ## Service answers (R566 to R577) -/

/-- What a service decides at its take: status, handle field, result, keys to install when the job ends, the engine it needs, whether it asks leave, and its SHA-2 blocks. -/
structure SvcOut where
  status : Nat
  handle : Nat
  result : Bytes
  installs : List Install
  engine : Nat
  leave : Bool
  blocks : Nat

/-- A service that answers with a status alone. -/
def svcStatus (st : Nat) : SvcOut := ⟨st, 0xFFFF, [], [], 0, false, 0⟩

/-- A service that answers OK with a result from an engine. -/
def svcOk (engine : Nat) (result : Bytes) : SvcOut := ⟨0, 0xFFFF, result, [], engine, false, 0⟩

/-- A service request taken: its parameters and data, its handles, and its requester's owner number (R575). -/
structure SvcReq where
  param : Bytes
  data : Bytes
  keyh : Nat
  keyh2 : Nat
  owner : Nat

/-- The key of a request for an operation (R524, R592): DENIED for an internal handle, NOKEY otherwise where it is not usable. -/
def svcKey (s : State) (h ubit : Nat) : Except Nat (Nat × Bytes) :=
  if (internalKey h).isSome then .error 0x08
  else match usableKey s h ubit with
  | none => .error 0x2D
  | some k => .ok k

/-- Service 0x01 (R579). -/
def svcRandom (q : SvcReq) (s : State) : State × SvcOut :=
  let n := fieldLE q.param 0 2
  if q.param.length ≠ 2 ∨ q.data ≠ [] ∨ n = 0 ∨ 1008 < n then (s, svcStatus 0x2A)
  else if !s.h.sp.health then (s, svcStatus 0x36)
  else let (s, bs) := drbgDraw n s; (s, svcOk 0 bs)

/-- Service 0x02. -/
def svcMacgen (q : SvcReq) (s : State) : State × SvcOut :=
  let t := fieldLE q.param 0 1
  if q.param.length ≠ 2 ∨ t < 4 ∨ 16 < t then (s, svcStatus 0x2A)
  else match svcKey s q.keyh 0 with
  | .error e => (s, svcStatus e)
  | .ok (_, k) => (touchSlot q.keyh 0 false s, svcOk 2 ((cmacBytes k q.data).take t))

/-- Service 0x03 (R587): a success under the pending key confirms it in the take tick. -/
def svcMacver (q : SvcReq) (s : State) : State × SvcOut :=
  let t := fieldLE q.param 0 1
  if q.param.length ≠ 2 + t ∨ t < 4 ∨ 16 < t then (s, svcStatus 0x2A)
  else if (internalKey q.keyh).isSome then (s, svcStatus 0x08)
  else match verifyRoles s q.keyh 0 q.data (q.param.drop 2) with
  | .nokey => (s, svcStatus 0x2D)
  | .bad => (s, { svcStatus 0x33 with engine := 2 })
  | .good s' => (s', svcOk 2 [])

/-- Service 0x04. -/
def svcGcmenc (q : SvcReq) (s : State) : State × SvcOut :=
  let aad := fieldLE q.param 12 2
  let gen := bit (fieldLE q.param 14 1) 0
  if q.param.length ≠ 16 ∨ q.data.length < aad then (s, svcStatus 0x2A)
  else match svcKey s q.keyh 2 with
  | .error e => (s, svcStatus e)
  | .ok (_, k) =>
    if gen && !s.h.sp.health then (s, svcStatus 0x36)
    else
      let (s, iv) := if gen then drbgDraw 12 s else (s, q.param.take 12)
      (touchSlot q.keyh 0 false s, svcOk 2 ((if gen then iv else []) ++ Config.gcmSeal k iv (q.data.take aad) (q.data.drop aad)))

/-- Service 0x05. -/
def svcGcmdec (q : SvcReq) (s : State) : State × SvcOut :=
  let aad := fieldLE q.param 12 2
  if q.param.length ≠ 32 ∨ q.data.length < aad then (s, svcStatus 0x2A)
  else match svcKey s q.keyh 2 with
  | .error e => (s, svcStatus e)
  | .ok (_, k) =>
    match Config.gcmOpen k (q.param.take 12) (q.data.take aad) (q.data.drop aad ++ slice q.param 16 16) with
    | none => (touchSlot q.keyh 0 false s, { svcStatus 0x34 with engine := 2 })
    | some p => (touchSlot q.keyh 0 false s, svcOk 2 p)

/-- Service 0x06. -/
def svcCtrenc (q : SvcReq) (s : State) : State × SvcOut :=
  if q.param.length ≠ 16 then (s, svcStatus 0x2A)
  else match svcKey s q.keyh 3 with
  | .error e => (s, svcStatus e)
  | .ok (_, k) => (touchSlot q.keyh 0 false s, svcOk 2 (Config.ctr k q.param q.data))

/-- Service 0x07 (R572): only the key of a run-time handle leaves, wrapped. -/
def svcWrap (q : SvcReq) (s : State) : State × SvcOut :=
  if q.param ≠ [] ∨ q.data ≠ [] then (s, svcStatus 0x2A)
  else match svcKey s q.keyh 5 with
  | .error e => (s, svcStatus e)
  | .ok (_, k) =>
    if (internalKey q.keyh2).isSome ∨ (policyRec s q.keyh2).isSome ∨ (vaultEntry s q.keyh2).isSome then (s, svcStatus 0x08)
    else match KMap.get? s.h.keys.rt q.keyh2 with
    | none => (s, svcStatus 0x2D)
    | some x => (touchSlot q.keyh 0 false s, svcOk 2 (Config.aesWrap k x.key))

/-- The usage words that a service may create (R571). -/
def rtUsageOk (u : Nat) : Bool := usageOk u && decide (ktype u ≤ 1) && !bit u 10 && !bit u 11

/-- The USAGE, GRACE and TARGET of a creating service (R571): the status that refuses them, if any. -/
def targetCheck (s : State) (usage grace target : Nat) (keys : Nat) : Option Nat :=
  if !rtUsageOk usage then some 0x27
  else if 10000 < grace then some 0x2A
  else if target = 0xFFFF then (if 56 < firmSlots s + keys then some 0x2C else none)
  else if (KMap.get? s.h.keys.rt target).isNone then some 0x28
  else if 56 < firmSlots s + keys then some 0x2C
  else none

/-- A service that creates one key when its job ends. -/
def svcInstall (engine : Nat) (usage grace target : Nat) (key : Bytes) : SvcOut :=
  ⟨0, target, [], [⟨usage, grace, target, key⟩], engine, false, 0⟩

/-- Service 0x08 (R571). -/
def svcUnwrap (q : SvcReq) (s : State) : State × SvcOut :=
  let (u, g, t) := (fieldLE q.param 0 2, fieldLE q.param 2 2, fieldLE q.param 4 2)
  if q.param.length ≠ 8 ∨ (q.data.length ≠ 24 ∧ q.data.length ≠ 40) then (s, svcStatus 0x2A)
  else match svcKey s q.keyh 6 with
  | .error e => (s, svcStatus e)
  | .ok (_, k) =>
    match targetCheck s u g t 1 with
    | some e => (s, svcStatus e)
    | none =>
      if q.data.length ≠ ktypeBytes (ktype u) + 8 then (s, svcStatus 0x27)
      else match Config.aesUnwrap k q.data with
      | none => (touchSlot q.keyh 0 false s, { svcStatus 0x26 with engine := 2 })
      | some x => (touchSlot q.keyh 0 false s, svcInstall 2 u g t (padTo (ktypeBytes (ktype u)) x))

/-- Service 0x09 (R571). -/
def svcGenkey (q : SvcReq) (s : State) : State × SvcOut :=
  let (u, g, t) := (fieldLE q.param 0 2, fieldLE q.param 2 2, fieldLE q.param 4 2)
  if q.param.length ≠ 8 ∨ q.data ≠ [] then (s, svcStatus 0x2A)
  else if !rootValid s then (s, svcStatus 0x2D)
  else match targetCheck s u g t 1 with
  | some e => (s, svcStatus e)
  | none =>
    if !s.h.sp.health then (s, svcStatus 0x36)
    else let (s, k) := drbgDraw (ktypeBytes (ktype u)) s; (s, svcInstall 0 u g t k)

/-- Service 0x0A: the handle erased in all roles, injected or run-time; a derived key is not replaced or erased at run time (R538). -/
def svcErase (q : SvcReq) (s : State) : State × SvcOut :=
  if q.param ≠ [] ∨ q.data ≠ [] then (s, svcStatus 0x2A)
  else if (internalKey q.keyh).isSome ∨ (policyRec s q.keyh).isSome then (s, svcStatus 0x08)
  else if (committedKey s q.keyh).isNone then (s, svcStatus 0x2D)
  else (eraseHandle q.keyh s, svcStatus 0)

/-- Service 0x0B: the pending key of a handle discarded. -/
def svcCancel (q : SvcReq) (s : State) : State × SvcOut :=
  if q.param ≠ [] ∨ q.data ≠ [] then (s, svcStatus 0x2A)
  else if (internalKey q.keyh).isSome then (s, svcStatus 0x08)
  else if (committedKey s q.keyh).isNone then (s, svcStatus 0x2D)
  else match (roleOf s q.keyh).pending with
  | none => (s, svcStatus 0)
  | some _ => (keyEvent 3 q.keyh 4 0 (dropSlots q.keyh (some 1) (setRole q.keyh { roleOf s q.keyh with pending := none } s)), svcStatus 0)

/-- Service 0x0C (R540): the supplied tag against the confirmation tag of the pending key. -/
def svcConfirm (q : SvcReq) (s : State) : State × SvcOut :=
  if q.param.length ≠ 8 ∨ q.data ≠ [] then (s, svcStatus 0x2A)
  else if (internalKey q.keyh).isSome then (s, svcStatus 0x08)
  else if (committedKey s q.keyh).isNone then (s, svcStatus 0x2D)
  else match (roleOf s q.keyh).pending with
  | none => (s, svcStatus 0x32)
  | some (p, _) =>
    let msg := ascii "KEYCONF" ++ [0] ++ s.otp.uid ++ be 2 q.keyh ++ be 4 (keyGen s q.keyh + 1)
    if (cmacBytes p msg).take 8 = q.param then (commitPending q.keyh s, svcStatus 0x31) else (s, svcStatus 0x32)

/-- Service 0x0D (R514, R571). -/
def svcKdf (q : SvcReq) (s : State) : State × SvcOut :=
  let ll := fieldLE q.param 0 1
  let (u, g, t) := (fieldLE q.param (1 + ll) 2, fieldLE q.param (3 + ll) 2, fieldLE q.param (5 + ll) 2)
  if ll = 0 ∨ 32 < ll ∨ q.param.length ≠ 9 + ll ∨ q.data ≠ [] then (s, svcStatus 0x2A)
  else match svcKey s q.keyh 7 with
  | .error e => (s, svcStatus e)
  | .ok (_, k) =>
    match targetCheck s u g t 1 with
    | some e => (s, svcStatus e)
    | none => (touchSlot q.keyh 0 false s, svcInstall 2 u g t (deriveKey s.otp.uid k (slice q.param 1 ll) u))

/-- The digest that SIGN and VERIFY use (R576): the data itself where PREHASHED, its hash otherwise. -/
def digestOf (pre : Bool) (hash : Nat) (data : Bytes) : Option Bytes :=
  let n := if hash = 0 then 32 else 48
  if pre then (if data.length = n then some data else none)
  else some (padTo n (if hash = 0 then Config.sha256 data else Config.sha384 data))

/-- Service 0x0E (R576 to R578): the signature is released only where it verifies; otherwise it is discarded, counted, and the self-check source is raised. -/
def svcSign (q : SvcReq) (s : State) : State × SvcOut :=
  if q.param.length ≠ 2 then (s, svcStatus 0x2A)
  else match svcKey s q.keyh 8 with
  | .error e => (s, svcStatus e)
  | .ok (u, k) =>
    let c := ktype u - 2
    match digestOf (bit (fieldLE q.param 0 1) 0) c q.data with
    | none => (s, svcStatus 0x2A)
    | some d =>
      if !s.h.sp.health then (s, svcStatus 0x36)
      else
        let (s, nonce) := drbgDraw (ktypeBytes (ktype u)) s
        let s := touchSlot q.keyh 0 false s
        let sig := padTo (2 * ktypeBytes (ktype u)) (Config.ecdsaSign c (beNat k) d nonce)
        if Config.ecdsaVerify c (Config.ecPublic c (beNat k)) d sig then
          (s, { svcOk 1 sig with leave := true })
        else (raise 0x059 0 (bump s 0x9001C 0 16 1), { svcStatus 0x30 with engine := 1, leave := true })

/-- A public-key buffer. -/
def pkbOf (s : State) (i : Nat) : Pkb := nth s.h.sp.pkb i ⟨0, 0, 0, [], 0⟩

/-- The key bytes of an algorithm. -/
def pkLen (alg : Nat) : Nat := match alg with | 1 => 64 | 2 => 96 | 3 => 384 | _ => 512

/-- A buffer is complete where every byte of its algorithm's key has been written (R575). -/
def pkbFull (p : Pkb) : Bool := decide (1 ≤ p.alg) && bits p.written 0 (pkLen p.alg) == 2 ^ pkLen p.alg - 1

/-- Service 0x0F (R575, R576). -/
def svcVerify (q : SvcReq) (s : State) : State × SvcOut :=
  let (i, scheme, hash) := (fieldLE q.param 0 1, fieldLE q.param 1 1, fieldLE q.param 2 1)
  let pre := bit (fieldLE q.param 3 1) 0
  let sig := q.param.drop 4
  if q.param.length < 4 ∨ 3 < i ∨ 2 < scheme ∨ 1 < hash then (s, svcStatus 0x2A)
  else
    let b := pkbOf s i
    if b.owner ≠ q.owner ∧ b.owner ≠ 0 then (s, svcStatus 0x08)
    else if !pkbFull b then (s, svcStatus 0x37)
    else if (scheme = 0) ≠ (b.alg ≤ 2) ∨ sig.length ≠ (if scheme = 0 then pkLen b.alg else pkLen b.alg) then (s, svcStatus 0x2A)
    else
      let h := if scheme = 0 then b.alg - 1 else hash
      match digestOf pre h q.data with
      | none => (s, svcStatus 0x2A)
      | some d =>
        let good := if scheme = 0 then Config.ecdsaVerify (b.alg - 1) (b.data.take (pkLen b.alg)) d sig
          else Config.rsaVerify scheme h (b.data.take (pkLen b.alg)) b.exp d sig
        (s, { svcStatus (if good then 0 else 0x33) with engine := 1, leave := decide (scheme = 0) })

/-- Service 0x10 (R573). -/
def svcAgree (q : SvcReq) (s : State) : State × SvcOut :=
  let (u, g, t) := (fieldLE q.param 0 2, fieldLE q.param 2 2, fieldLE q.param 4 2)
  let klen := fieldLE q.param 6 1
  let fi := fieldLE q.param 7 1
  if q.param.length < 8 ∨ (klen ≠ 16 ∧ klen ≠ 32) ∨ 64 < fi ∨ q.data ≠ [] then (s, svcStatus 0x2A)
  else match svcKey s q.keyh 9 with
  | .error e => (s, svcStatus e)
  | .ok (ku, k) =>
    let n := ktypeBytes (ktype ku)
    if q.param.length ≠ 8 + fi + 2 * n then (s, svcStatus 0x2A)
    else match targetCheck s u g t 1 with
    | some e => (s, svcStatus e)
    | none =>
      if klen ≠ ktypeBytes (ktype u) then (s, svcStatus 0x27)
      else
        let s := touchSlot q.keyh 0 false s
        let big := decide (ktype ku = 3)
        match Config.ecdh (ktype ku - 2) (beNat k) (q.param.drop (8 + fi)) with
        | none => (s, { svcStatus 0x35 with engine := 1, leave := big })
        | some z =>
          let key := (padTo 32 (Config.sha256 (be 4 1 ++ z ++ slice q.param 8 fi))).take klen
          (s, { svcInstall 1 u g t key with leave := big })

/-- Service 0x11 (R574): the ICK carries usage MAC, the KEK usage WRAP and UNWRAP; both have the CAK's length. -/
def svcMkaderive (q : SvcReq) (s : State) : State × SvcOut :=
  let cl := fieldLE q.param 0 1
  if cl = 0 ∨ 32 < cl ∨ q.param.length ≠ 1 + cl ∨ q.data ≠ [] then (s, svcStatus 0x2A)
  else match svcKey s q.keyh 11 with
  | .error e => (s, svcStatus e)
  | .ok (u, k) =>
    if 56 < firmSlots s + 2 then (s, svcStatus 0x2C)
    else
      let ctx := padTo 16 (q.param.drop 1)
      let kt := ktype u * 0x2000
      let n := ktypeBytes (ktype u)
      let ick := padTo n (Config.mkaKdf k (ascii "IEEE8021 ICK") ctx)
      let kek := padTo n (Config.mkaKdf k (ascii "IEEE8021 KEK") ctx)
      (touchSlot q.keyh 0 false s,
        ⟨0, 0xFFFF, [], [⟨kt + 1, 0, 0xFFFF, ick⟩, ⟨kt + 0x60, 0, 0xFFFF, kek⟩], 2, false, 0⟩)

/-- Service 0x12 (R575). -/
def svcPkload (q : SvcReq) (s : State) : State × SvcOut :=
  let (i, alg, off) := (fieldLE q.param 0 1, fieldLE q.param 1 1, fieldLE q.param 2 2)
  let exp := fieldLE q.param 4 4
  if q.param.length ≠ 8 ∨ 3 < i ∨ alg = 0 ∨ 4 < alg ∨ 1024 < off + q.data.length ∨ (3 ≤ alg ∧ off = 0 ∧ (exp % 2 = 0 ∨ exp < 3)) then
    (s, svcStatus 0x2A)
  else
    let b := pkbOf s i
    if off ≠ 0 ∧ b.owner ≠ q.owner then (s, svcStatus 0x08)
    else
      let b0 : Pkb := if off = 0 then ⟨alg, exp, q.owner, List.replicate 1024 0, 0⟩ else b
      let mask := (2 ^ q.data.length - 1) * 2 ^ off
      ({ s with h.sp.pkb := s.h.sp.pkb.set i { b0 with data := overlay b0.data off q.data, written := Nat.lor b0.written mask } }, svcStatus 0)

/-- The SHA-2 blocks of a message of `n` bytes: 64-byte blocks for SHA-256, 128-byte blocks otherwise, padding included. -/
def shaBlocks (alg n : Nat) : Nat := if alg = 0 then ceilDiv (n + 9) 64 else ceilDiv (n + 17) 128

/-- Service 0x13. -/
def svcHash (q : SvcReq) (s : State) : State × SvcOut :=
  let alg := fieldLE q.param 0 1
  if q.param.length ≠ 2 ∨ 2 < alg then (s, svcStatus 0x2A)
  else
    let d := match alg with | 0 => padTo 32 (Config.sha256 q.data) | 1 => padTo 48 (Config.sha384 q.data) | _ => padTo 64 (Config.sha512 q.data)
    (s, { svcOk 3 d with blocks := shaBlocks alg q.data.length })

/-- Service 0x14 (R593): a self-test runs as a job of its unit's queue; whether it passes is the unit's own matter, a free value. -/
def svcSelftest (q : SvcReq) (s : State) : State × SvcOut :=
  let unit := fieldLE q.param 0 1
  if q.param.length ≠ 2 ∨ q.data ≠ [] ∨ 3 < unit then (s, svcStatus 0x2A)
  else
    let (s, v) := takeFree s
    (s, { svcStatus (if v % 2 = 0 then 0 else 0x30) with
          engine := match unit with | 0 => 1 | 1 => 2 | 2 => 3 | _ => 0, blocks := if unit = 2 then 1 else 0 })

/-! ## Taking and ending jobs -/

/-- The bytes of a service response (Table CRY-4). -/
def svcResponse (reqport svc status handle tag : Nat) (result : Bytes) : Bytes :=
  let r := if status = 0 then result else []
  le 2 0x0E22 ++ [byte reqport, byte svc, byte status, 0] ++ le 2 handle ++ le 4 tag ++ le 2 r.length ++ le 2 0 ++ r

/-- A job placed with its engine's queue; one that asks leave waits for it (R581, R844). -/
def placeJob (j : SpJob) (s : State) : State :=
  let s := { s with h.sp.nextId := s.h.sp.nextId + 1, h.sp.jobs := s.h.sp.jobs ++ [j] }
  assignJobs s

/-- A request taken by the SP: its service decides, and its job is queued. -/
def takeRequest (svc : Nat) (run : SvcReq → State → State × SvcOut) (reqport seq prio : Nat) (b : Bytes) (s : State) : State :=
  let plen := fieldLE b 12 2
  let dlen := fieldLE b 14 2
  let q : SvcReq := ⟨slice b 16 plen, slice b (16 + plen) dlen, fieldLE b 8 2, fieldLE b 10 2, reqport + 1⟩
  let (s, o) := if b.length < 16 + plen + dlen then (s, svcStatus 0x2A) else run q s
  placeJob ⟨s.h.sp.nextId, prio, s.time.now, reqport, seq, svc, fieldLE b 4 4, o.status,
    o.result, o.installs, o.engine, if o.leave then 1 else 0, none, o.blocks, 0, s.time.now, 0⟩ s

/-- The keys of a job installed at its end (R523, R539, R571): the state and the handles they took. -/
def installAll (is : List Install) (s : State) : State × List Nat :=
  is.foldl (fun acc i =>
    let (s, hs) := acc
    let h := if i.target = 0xFFFF then freshHandle s else some i.target
    match h with
    | none => (s, hs)
    | some h => (installOn h i.usage i.grace i.key s, hs ++ [h])) (s, [])

/-- A job's context or lane given back. -/
def releaseCtx (j : SpJob) (s : State) : State :=
  match j.ctx with
  | none => s
  | some c =>
    if j.engine = 1 then
      { s with h.sp.lme := s.h.sp.lme.set c none, h.sp.lmeRun := if s.h.sp.lmeRun = some c then none else s.h.sp.lmeRun }
    else if j.engine = 3 then
      { s with h.sp.shaRun0 := if s.h.sp.shaRun0 = some c then none else s.h.sp.shaRun0,
               h.sp.shaRun1 := if s.h.sp.shaRun1 = some c then none else s.h.sp.shaRun1 }
    else s

/-- The end of a job (R569, R581): its keys are installed, its engine and leave are given back, and its answer is formed; the answer's bytes, or none for other SP work. -/
def endJob (j : SpJob) (status : Nat) (s : State) : State × Bytes :=
  let s := releaseCtx j { s with h.sp.jobs := s.h.sp.jobs.filter (fun x => x.id != j.id) }
  let s := if j.engine = 1 ∧ status ≠ 0x2B then bump s 0x80004 0 12 1 else s
  let s := if j.leave = 2 then
      (match j.ctx with | some c => { s with h.arb.release := s.h.arb.release ++ [(1, c)] } | none => s)
    else s
  let (s, hs) := if status = 0 then installAll j.installs s else (s, [])
  let handle := hs.headD 0xFFFF
  let result := match hs with | _ :: k :: _ => le 2 k | _ => if j.installs = [] then j.result else []
  (assignJobs (bump s 0x90014 0 16 1), svcResponse j.reqport j.svc status handle j.tag result)

end Sys2Proof.Machine
end

