-- ==== Sys2Proof/Machine/Flags.lean ====
section
/-! DEFINITION. Status flags: the interrupt bits, their levels and the two interrupt pins. -/

namespace Sys2Proof.Machine

open Sys2Proof

/-- Whether port 70's egress holds a message (Tables HOST-3, HOST-13). -/
def msgWaits (s : State) : Bool := (List.range 16).any (fun q => !(queueOf s (70 * 16 + q)).isEmpty)

/-- SYS.INTSTAT as it reads: the stored event bits with the level MSG (Table HOST-13). -/
def intStat (s : State) : Nat := putBits (reg s 0x4C) 2 1 (b2n (msgWaits s))

/-- Whether an enabled bit of SYS.INTSTAT selects a pin (R228). -/
def pinDriven (s : State) (pin : Nat) : Bool :=
  (List.range 9).any (fun i => bit (intStat s) i && bit (reg s 0x50) i && bits (reg s 0x54) i 1 == pin)

/-- The interrupt pins follow their bits in RUN, DEGRADED and HOLD, and are high-impedance otherwise (R228, Table MOD-7). -/
def intPins (s : State) : State :=
  let on := s.sys.mode.live || s.sys.mode == .hold
  { s with sys.int0 := on && pinDriven s 0, sys.int1 := on && pinDriven s 1 }

end Sys2Proof.Machine
end

