-- ==== Sys2Proof/Machine/Lin.lean ====
section
/-! DEFINITION. LIN controllers (chapter 10). -/

namespace Sys2Proof.Machine

open Sys2Proof

/-! ## LIN controllers -/

/-- The state of a LIN controller. -/
def linOf (s : State) (c : Nat) : Lin := nth s.h.lin c Lin.reset

/-- The state with a LIN controller replaced. -/
def setLin (s : State) (c : Nat) (l : Lin) : State := { s with h.lin := s.h.lin.set c l }

/-- An address in a LIN page. -/
def linReg (c off : Nat) : Nat := 0x420000 + c * 0x100 + off

/-- A sleeping controller or one in bus fault blocks its port (Table QUE-2). -/
def linPortState (c : Nat) (s : State) : State := setBlocked (48 + c) (decide ((linOf s c).state ≠ 0)) s

/-- Whether the controller is a master (LIN.CFG.ROLE). -/
def linMaster (s : State) (c : Nat) : Bool := bit (reg s (linReg c 4)) 0

/-- The slots of a schedule table: the LINSCHED records of the channel and the table with their indices, in ascending index (R432). -/
def schedSlots (s : State) (c t : Nat) : List (Nat × Bytes) :=
  (liveRecs s 0x20).filter (fun e => fieldLE e.2 0 1 == c && fieldLE e.2 1 1 == t)

/-- The LINRESP record of an identifier. -/
def respRec (s : State) (c fid : Nat) : Option Bytes :=
  ((liveRecs s 0x21).find? (fun e => fieldLE e.2 0 1 == c && fieldLE e.2 1 1 == fid)).map (fun e => e.2)

/-- The sum of LIN's checksum: carries added back, inverted (ISO 17987). -/
def linChecksum (bs : Bytes) : Nat :=
  255 - bs.foldl (fun acc b => let x := acc + b.toNat; if 255 < x then x - 255 else x) 0

/-- The checksum of a response: classic over the data, enhanced over PID and data; 0x3C and 0x3D are always classic (R428). -/
def linCksum (ckt pid : Nat) (data : Bytes) : Nat :=
  if ckt = 0 ∨ pid % 64 = 0x3C ∨ pid % 64 = 0x3D then linChecksum data else linChecksum (byte pid :: data)

/-- The protected identifier of a frame identifier. PRESUMED, log entry 10: the parity bits of ISO 17987. -/
def linPid (fid : Nat) : Nat :=
  let b := fun i => bits fid i 1
  let p0 := (b 0 + b 1 + b 2 + b 4) % 2
  let p1 := 1 - (b 1 + b 3 + b 4 + b 5) % 2
  fid % 64 + 64 * p0 + 128 * p1

/-- What a publish buffer holds for a header stamped in the current tick (R433, R450): what stood before a move of the same tick. -/
def pubView (s : State) (p : LPub) : Bytes × Bool :=
  if p.tick = curTick s then (p.oldData, p.oldFresh) else (p.data, p.fresh)

/-- The fresh mark of the published data cleared; a move of the same tick keeps its own. -/
def pubTaken (s : State) (p : LPub) : LPub :=
  if p.tick = curTick s then { p with oldFresh := false } else { p with fresh := false }

/-- The response the controller publishes to a header (R433): its data, and the buffer with the fresh mark cleared. -/
def publish (s : State) (c fid : Nat) : State :=
  match respRec s c fid with
  | none => s
  | some r =>
    let l := linOf s c
    match KMap.get? l.pubs fid with
    | none => s
    | some p =>
      let (d, fresh) := pubView s p
      if fieldLE r 2 1 = 1 ∧ (fieldLE r 5 1 = 0 ∨ fresh) then
        setLin s c { l with
          wire := d.take (fieldLE r 3 1) ++ [byte (linCksum (fieldLE r 4 1) (linPid fid) (d.take (fieldLE r 3 1)))],
          pubs := KMap.put l.pubs fid (pubTaken s p) }
      else s

/-- A header outstanding on the bus: identifier, slot type and ALT, stamped now, with the controller's own response where it publishes. -/
def startHeader (c fid typ alt : Nat) (s : State) : State :=
  let l := linOf s c
  publish (setLin s c { l with header := some (fid, typ, alt), headerAt := s.time.now, wire := [] }) c fid

/-- The lowest identifier of SPMASK whose publish buffer is fresh (R432, TYPE 2). -/
def sporadic (s : State) (c mask : Nat) : Option Nat :=
  (List.range 64).find? (fun i => bit mask i &&
    (match KMap.get? (linOf s c).pubs i with | some p => (pubView s p).2 | none => false))

/-- The controller enters sleep (R436). -/
def linSleepNow (c : Nat) (s : State) : State :=
  linPortState c (setLin s c { linOf s c with state := 1, sleepPend := false, header := none, resume := none })

/-- The table that runs in the next slot, with the place in it: a pending schedule change abandons an ALT table (R436, R452), a finished ALT table returns (R435). -/
def nextTable (s : State) (c : Nat) : Nat × Option Nat × Nat :=
  let l := linOf s c
  match l.schedPend with
  | some t => (t, none, 0)
  | none =>
    let n := (schedSlots s c l.table).length
    if l.pos < n then (l.table, l.back, l.pos)
    else match l.back with
      | some t => (t, none, 0)
      | none => (l.table, none, 0)

/-- A slot of the master's schedule starts (R432, R436). -/
def linSlot (c : Nat) (s : State) : State :=
  let l := linOf s c
  if !linMaster s c || l.state != 0 || l.resume.isSome then s
  else if l.sleepPend then
    linSleepNow c (setLin s c { l with header := some (0x3C, 0, 0xFF), headerAt := s.time.now, wire := [0] ++ List.replicate 7 (byte 0xFF) ++ [byte (linCksum 0 0x3C ([0] ++ List.replicate 7 (byte 0xFF)))] })
  else
    let (t, back, pos) := nextTable s c
    let l' := { l with table := t, back := back, pos := pos + 1, schedPend := none }
    match (schedSlots s c t)[pos]? with
    | none => setLin s c { l' with pos := 0, header := none }
    | some (ix, r) =>
      let s := setLin s c { l' with slotRec := ix, header := none }
      match fieldLE r 2 1 with
      | 2 =>
        match sporadic s c (fieldLE r 8 8) with
        | none => s
        | some fid => startHeader c fid 2 0xFF s
      | typ => startHeader c (fieldLE r 3 1) typ (fieldLE r 6 1) s

/-- A frame moved into the publish buffer of its identifier, or discarded (R431). -/
def linMove (c : Nat) (body : Bytes) (s : State) : State :=
  let fid := fieldLE body 0 1 % 64
  match respRec s c fid with
  | none => bump s (linReg c 0x18) 8 8 1
  | some r =>
    if fieldLE r 2 1 ≠ 1 ∨ fieldLE body 1 1 ≠ fieldLE r 3 1 then bump s (linReg c 0x18) 8 8 1
    else
      let l := linOf s c
      let p := KMap.getD l.pubs fid ⟨[], false, 0, [], false⟩
      let s := if p.fresh then bump s (linReg c 0x18) 0 8 1 else s
      let (od, ofr) := pubView s p
      setLin s c { l with pubs := KMap.put l.pubs fid ⟨body.drop 4, true, curTick s, od, ofr⟩ }

/-- LIN.CTL written (R436, R437): a new schedule table waits for the end of the slot; SLEEP and WAKE act as their fields state. -/
def linCtlEffect (c old v : Nat) (s : State) : State :=
  let l := linOf s c
  let s := if bits old 0 4 ≠ bits v 0 4 then setLin s c { l with schedPend := some (bits v 0 4) } else s
  let l := linOf s c
  let s := if bit v 8 ∧ linMaster s c ∧ l.state = 0 then setLin s c { l with sleepPend := true } else s
  let l := linOf s c
  if bit v 9 ∧ l.state = 1 then setLin s c { l with state := 3, pulse := true }
  else if bit v 9 then setLin s c { l with pulse := true } else s

/-- The end of a wake pulse (R437): the controller is operational again, its port no longer blocked, and a master waits WAKEDLY ms for its schedule. -/
def linWoken (c : Nat) (s : State) : State :=
  let l := linOf s c
  if l.state = 1 ∨ l.state = 3 then
    linPortState c (setLin s c { l with state := 0, pulse := false, pos := 0, back := none, table := fieldOf s (linReg c 0) 0 4, resume := if linMaster s c then some (s.time.now + fieldOf s (linReg c 4) 8 8 * 1000000) else none })
  else setLin s c { l with pulse := false }

/-- A response that is erroneous after an event-triggered header: the collision is counted, and the ALT table runs once (R435). -/
def linCollision (c alt : Nat) (s : State) : State :=
  let l := linOf s c
  let s := bump s (linReg c 0x18) 16 16 1
  if alt = 0xFF then s
  else setLin s c { l with table := alt, back := some (l.back.getD l.table), pos := 0 }

/-- A response arrived on the bus (R434, R435). -/
def linResponse (c : Nat) (stamp : Stamp) (pid cksum : Nat) (data : Bytes) (bitErr : Bool) (s : State) : State :=
  let l := linOf s c
  let fid := pid % 64
  let hdr := l.header
  let s := setLin s c { l with header := none }
  let coll := fun (s : State) => match hdr with
    | some (_, 1, alt) => if linMaster s c then linCollision c alt s else s
    | _ => s
  match respRec s c fid with
  | none => s
  | some r =>
    if fieldLE r 2 1 ≠ 2 then s
    else if bitErr then coll (bump s (linReg c 0x14) 16 16 1)
    else if cksum ≠ linCksum (fieldLE r 4 1) pid data then coll (bump s (linReg c 0x14) 0 16 1)
    else
      let body := [byte pid, byte data.length, byte cksum, byte (fieldLE r 4 1)] ++ data
      submitAt (48 + c) stamp stamp 0 2 body false 0 (bump s (linReg c 0x10) 0 16 1)

end Sys2Proof.Machine
end

