-- ==== Sys2Proof/Machine/Can.lean ====
section
/-! DEFINITION. CAN FD controllers (chapter 10). -/

namespace Sys2Proof.Machine

open Sys2Proof

/-! ## Controllers by number: 0 to 23 on the host die, 24 to 31 FCAN0 to FCAN7 on the field die -/

/-- The state of a controller. -/
def canOf (s : State) (n : Nat) : Can :=
  if n < 24 then nth s.h.can n Can.reset else nth s.f.can (n - 24) Can.reset

/-- The state with a controller replaced. -/
def setCan (s : State) (n : Nat) (c : Can) : State :=
  if n < 24 then { s with h.can := s.h.can.set n c } else { s with f.can := s.f.can.set (n - 24) c }

/-- The register key of a controller's page: FCAN pages of the FS address space stand apart from their mirrors on the host die (R419, R420). -/
def canReg (n off : Nat) : Nat := (if n < 24 then 0 else 0x20000000) + 0x400000 + n * 0x1000 + off

/-- The combinations of Table CAN-1 beside the fields' own ranges (R397): SJW within TSEG2, a nominal rate of 10 to 1,000 kbit/s and a data rate from the nominal rate to 8,000 kbit/s of the 80 MHz clock. -/
def canTimingOk (nbt dbt : Nat) : Bool :=
  let n := bits nbt 0 6 * (1 + bits nbt 6 9 + bits nbt 15 8)
  let d := bits dbt 0 6 * (1 + bits dbt 6 6 + bits dbt 12 5)
  decide (bits nbt 23 8 ≤ bits nbt 15 8) && decide (bits dbt 17 5 ≤ bits dbt 12 5) &&
  decide (80 ≤ n) && decide (n ≤ 8000) && decide (10 ≤ d) && decide (d ≤ n)

/-- Whether a controller blocks its port: bus-off, recovery or transmit stall (Table QUE-2, R407, R416). -/
def canBlocks (c : Can) : Bool := c.state == 4 || c.state == 5 || c.stall

/-- The port of a host controller entered into or removed from the blocked ports; the ports of FCAN0 to FCAN7 follow their mirrors (R421). -/
def canPortState (n : Nat) (s : State) : State :=
  if n < 24 then setBlocked (16 + n) (canBlocks (canOf s n)) s else s

/-- The state a running controller takes by its error counters (R406). PRESUMED, log entry 10: the limits of ISO 11898-1:2015, error-passive above 127, bus-off above 255. -/
def errState (tec rec : Nat) : Nat :=
  if 255 < tec then 4 else if 127 < tec ∨ 127 < rec then 3 else 2

/-- A controller that takes part in the bus. -/
def canActive (c : Can) : Bool := c.state == 2 || c.state == 3

/-- Restricted operation (R404). -/
def canRestricted (c : Can) : Bool := bits c.cfg 2 2 == 1

/-- The end of an error or a count: the controller takes the state of its counters; entry into bus-off is counted, raises its source and blocks the port (R407, R408). -/
def settleErrors (n : Nat) (c : Can) (s : State) : State :=
  if !canActive c then setCan s n c
  else
    let st := errState c.tec c.rxErr
    if st = 4 then
      let c := { c with state := if bit c.cfg 4 then 4 else 5, wire := none }
      canPortState n (raise (if n < 24 then n else 0x100 + (n - 24)) (if n < 24 then n else n - 24)
        (bump (setCan s n c) (canReg n 0x34) 0 16 1))
    else setCan s n { c with state := st }

/-- The slot that is in an attempt. -/
def attemptSlot (c : Can) : Option Nat := (List.range 8).find? (fun i =>
  match nth c.slots i none with | some x => x.attempt | none => false)

/-- The occupied slots of a controller with their numbers. -/
def usedSlots (c : Can) : List (Nat × Slot) :=
  (List.range 8).filterMap (fun i => (nth c.slots i none).map (fun x => (i, x)))

/-- The transmit stall ends when a transmission completes or the slots become empty (R416). -/
def endStall (n : Nat) (done : Bool) (s : State) : State :=
  let c := canOf s n
  if c.stall ∧ (done ∨ (usedSlots c).isEmpty) then canPortState n (setCan s n { c with stall := false }) else s

/-- A stop requested during an attempt takes place at the attempt's end (R399, R442). -/
def finishStop (n : Nat) (s : State) : State :=
  let c := canOf s n
  if c.stopReq then canPortState n (setCan s n { c with state := 0, stopReq := false, wire := none }) else s

/-- The arbitration key of a slot's frame (R411). -/
def arbKey (idw : Nat) : Nat :=
  let rtr := if bit idw 31 then 0 else bits idw 29 1
  if bit idw 30 then bits idw 18 11 * 2 ^ 21 + 2 ^ 20 + 2 ^ 19 + bits idw 0 18 * 2 + rtr
  else bits idw 0 11 * 2 ^ 21 + rtr * 2 ^ 20

/-- A slot is eligible where no slot holds an older frame of the same queue (R412). -/
def slotEligible (c : Can) (x : Slot) : Bool :=
  (usedSlots c).all (fun p => p.2.queue != x.queue || decide (x.order ≤ p.2.order))

/-- The slot the controller offers (R412): the eligible slot of the lowest arbitration key, the earliest placed among equals. -/
def offerSlot (c : Can) : Option Nat :=
  let es := (usedSlots c).filter (fun p => slotEligible c p.2)
  (es.foldl (fun (best : Option (Nat × Slot)) p => match best with
    | none => some p
    | some b => if keyLe [arbKey (canIdw b.2.body), b.2.order] [arbKey (canIdw p.2.body), p.2.order] then some b else some p)
    none).map (fun p => p.1)

/-- The frame as the controller sends it (R405): ESI from its own state in an FD frame, BRS of an FD frame as the body holds it, none otherwise. -/
def wireFrame (c : Can) (b : Bytes) : Bytes :=
  let fd := bit (canIdw b) 31
  let fl := if fd then bits (fieldLE b 4 1) 0 1 + 2 * b2n (c.state == 3) else 0
  overlay b 4 [byte fl]

/-- The checks of a body at its placement into a slot (R410). -/
def placeOk (c : Can) (b : Bytes) : Bool :=
  let w := canIdw b
  decide (8 ≤ b.length) && b.length == 8 + canLen w (fieldLE b 5 1) &&
  !(bit w 31 && !bit c.cfg 0) && !(bit w 31 && bit w 29) && !(!bit w 30 && decide (bits w 11 18 ≠ 0))

/-- The lowest free slot. -/
def freeSlot (c : Can) : Option Nat := (List.range 8).find? (fun i => (nth c.slots i none).isNone)

/-- A frame placed into the lowest free slot, or discarded as malformed (R409, R410). -/
def placeFrame (n : Nat) (body : Bytes) (queue : Nat) (pres : Stamp) (s : State) : State :=
  let c := canOf s n
  match freeSlot c with
  | none => s
  | some i =>
    if placeOk c body then
      setCan s n { c with slots := c.slots.set i (some ⟨body, queue, pres, c.placed, 0, false, false⟩), placed := c.placed + 1 }
    else bump s (canReg n 0x28) 0 16 1

/-! ## Effects of the commands -/

/-- CAN.CTL.INIT written (R398, R399): 0 to 1 stops the controller after the attempt in progress; 1 to 0 applies the held timing and starts integration. -/
def canInitEffect (n : Nat) (old new : Bool) (s : State) : State :=
  let c := canOf s n
  if !old && new then
    if (attemptSlot c).isSome then setCan s n { c with stopReq := true }
    else canPortState n (setCan s n { c with state := 0, wire := none })
  else if old && !new then
    canPortState n (setCan s n { c with
      state := 1, stopReq := false, nbt := reg s (canReg n 0x08), dbt := reg s (canReg n 0x0C),
      tdc := reg s (canReg n 0x10), cfg := reg s (canReg n 0x04) })
  else s

/-- CAN.CTL.RECOVER written 1: the recovery count starts where BOREC is 1 (R407). -/
def canRecoverEffect (n : Nat) (s : State) : State :=
  let c := canOf s n
  if c.state = 4 ∧ bit c.cfg 4 then setCan s n { c with state := 5 } else s

/-- CAN.TXABORT written (R415): slots not in an attempt are emptied; one in an attempt is marked. -/
def canAbortEffect (n mask : Nat) (s : State) : State :=
  let s := (List.range 8).foldl (fun s i =>
    let c := canOf s n
    match nth c.slots i none with
    | none => s
    | some x =>
      if !bit mask i then s
      else if x.attempt then setCan s n { c with slots := c.slots.set i (some { x with abort := true }) }
      else bump (setCan s n { c with slots := c.slots.set i none, lastAbort := s.time.now }) (canReg n 0x24) 16 16 1) s
  endStall n false s

/-- The controller integrates after 11 recessive bits (R399). -/
def canIntegrate (n : Nat) (s : State) : State :=
  let c := canOf s n
  if c.state = 1 then settleErrors n { c with state := 2 } s else s

/-- Bus-off recovery ends (R407). -/
def canRecovered (n : Nat) (s : State) : State :=
  let c := canOf s n
  if c.state = 5 then canPortState n (setCan s n { c with state := 2, tec := 0, rxErr := 0 }) else s

/-- An attempt starts (R412, R413): the offered slot's frame goes to the bus; with BRS and TDCEN the measured delay is kept (R400). -/
def canAttempt (n measured : Nat) (s : State) : State :=
  let c := canOf s n
  if !canActive c || canRestricted c || (attemptSlot c).isSome then s
  else match offerSlot c with
  | none => s
  | some i =>
    match nth c.slots i none with
    | none => s
    | some x =>
      let w := wireFrame c x.body
      let brs := bit (canIdw w) 31 && bit (fieldLE w 4 1) 0
      setCan s n { c with
        slots := c.slots.set i (some { x with attempt := true, tries := satAdd 16 x.tries 1 }),
        tdcv := if brs && bit c.tdc 16 && decide (measured ≤ 127) then measured else c.tdcv,
        wire := some w }

/-- A frame completes (R414): its slot is freed, the count and the reference move, TEC falls by 1, and a transmit stall ends. -/
def canComplete (n : Nat) (s : State) : State :=
  let c := canOf s n
  match attemptSlot c with
  | none => s
  | some i =>
    let c := { c with slots := c.slots.set i none, lastDone := s.time.now, wire := none,
                      tec := if canRestricted c then c.tec else c.tec - 1 }
    finishStop n (endStall n true (settleErrors n c (bump s (canReg n 0x24) 0 16 1)))

/-- An attempt has failed: its frame stays for another, or a waiting abort removes it (R413, R415). -/
def canAttemptOver (n : Nat) (s : State) : State :=
  let c := canOf s n
  match attemptSlot c with
  | none => s
  | some i =>
    match nth c.slots i none with
    | none => s
    | some x =>
      if x.abort then
        endStall n false (bump (setCan s n { c with slots := c.slots.set i none, lastAbort := s.time.now, wire := none })
          (canReg n 0x24) 16 16 1)
      else setCan s n { c with slots := c.slots.set i (some { x with attempt := false }), wire := none }

/-- An error of the controller recorded: its count, and its code by phase (R408). -/
def canErrCode (n code : Nat) (dataPhase : Bool) (s : State) : State :=
  let c := canOf s n
  bump (setCan s n (if dataPhase then { c with dlec := code } else { c with lec := code })) (canReg n 0x2C) 0 16 1

/-- The transmit stall (R416): some slot is occupied and STALLMS ms have passed since the reference. -/
def stallDue (s : State) (n : Nat) : Bool :=
  let c := canOf s n
  match (usedSlots c).map (fun p => p.2.pres) with
  | [] => false
  | p :: r =>
    let ref := max (max c.lastDone c.lastAbort) (r.foldl min p)
    decide (ref + bits c.cfg 8 8 * 1000000 ≤ s.time.now)

/-- REC after a frame received without error (R406). PRESUMED, log entry 10: ISO 11898-1:2015 lowers it by 1, or, above 127, sets it to a value from 119 to 127, which stays free. -/
def recAfterRx (free rec : Nat) : Nat := if rec ≤ 127 then rec - 1 else 119 + free % 9

/-- An error while receiving (R406): REC rises by 1, unless the error is a bit error in an active error or overload flag, by 8 for a dominant bit after the error flag, and by 8 for each further step ISO 11898-1:2015 states (PRESUMED, log entry 10). -/
def recAfterError (rec : Nat) (flagBit firstDominant : Bool) (more : Nat) : Nat :=
  min 255 (rec + (if flagBit then 8 else 1) + (if firstDominant then 8 else 0) + 8 * more)

/-- TEC after an error of a transmitter (R406): +8, but for the exceptions of ISO 11898-1:2015 (PRESUMED, log entry 10): an error-passive transmitter's acknowledgement error with no dominant bit in its passive error flag, and a stuff error in arbitration; and +8 for each further step. -/
def tecAfterError (c : Can) (code : Nat) (noDominant stuffArb : Bool) (more : Nat) : Nat :=
  let spare := (c.state == 3 && code == 3 && noDominant) || (code == 1 && stuffArb)
  min 511 (c.tec + (if spare then 0 else 8) + 8 * more)

/-- CAN.STAT as it reads on a controller's own page. -/
def canStat (s : State) (n : Nat) : Nat :=
  let c := canOf s n
  c.state + 8 * b2n (canBlocks c) + 16 * b2n c.stall + 2 ^ 8 * c.lec + 2 ^ 12 * c.dlec + 2 ^ 16 * c.tdcv

/-- CAN.TXSTAT: occupied slots and the slot in an attempt. -/
def canTxstat (c : Can) : Nat :=
  (usedSlots c).foldl (fun n p => n + 2 ^ p.1 + (if p.2.attempt then 2 ^ (8 + p.1) else 0)) 0

end Sys2Proof.Machine
end

