-- ==== Sys2Proof/Machine/Faults.lean ====
section
/-! DEFINITION. Fault collection, classification, capture and reporting (chapter 18). -/

namespace Sys2Proof.Machine

open Sys2Proof

/-! ## Sources (R755) -/

/-- Whether a source is implemented (Tables FLT-1 and FLT-2). -/
def srcImpl (s : Nat) : Bool :=
  decide (s ≤ 0x3D) || (decide (0x40 ≤ s) && decide (s ≤ 0x70)) || (decide (0x90 ≤ s) && decide (s ≤ 0xA3)) ||
  (decide (0x100 ≤ s) && decide (s ≤ 0x119)) || (decide (0x120 ≤ s) && decide (s ≤ 0x124))

/-- The unit of a source as a duty code of its island kind: what ISOLATE and REPAIR act on (Tables FLT-1, FLT-2). -/
def srcDuty (s detail : Nat) : Option Nat :=
  if s ≤ 0x17 then some (0x500 + s)
  else if s ≤ 0x2F then some (0x500 + s - 0x18)
  else if s ≤ 0x37 then some (0x600 + s - 0x30)
  else if 0x90 ≤ s ∧ s ≤ 0xA1 then some ((s - 0x90) * 256 + detail)
  else if 0x100 ≤ s ∧ s ≤ 0x107 then some (0x2000 + s - 0x100)
  else if 0x108 ≤ s ∧ s ≤ 0x10F then some (0x2000 + s - 0x108)
  else if 0x120 ≤ s ∧ s ≤ 0x122 then some ((s - 0x100) * 256 + detail)
  else none

/-- A fault policy's decision on a source: N, W, CLASS, REACT, ENABLE. -/
structure Policy where
  n : Nat
  w : Nat
  cls : Nat
  react : Nat
  enable : Bool
deriving DecidableEq, Repr

/-- The FAULT_POLICY record of a source in the host die's image, or in the field die's sections. -/
def policyOf (s : State) (src : Nat) : Option Policy :=
  let rs := if src < 0x100 then recs s 8 0
    else match s.f.sects.find? (fun c => c.typ == 8 && c.inst == 1) with | some c => c.recs | none => []
  (rs.find? (fun r => fieldLE r 0 2 == src)).map (fun r =>
    ⟨fieldLE r 2 1, fieldLE r 4 4, fieldLE r 3 1, fieldLE r 8 1, bit (fieldLE r 9 1) 0⟩)

/-- The policy in force (R59, R762): before the image's policy has been loaded, every host source has N 1, CLASS 2 and REACT 4. -/
def policyNow (s : State) (src : Nat) : Option Policy :=
  if src < 0x100 ∧ !s.h.flt.active then some ⟨1, 1, 2, 4, true⟩ else policyOf s src

/-- The collector of a source. -/
def fltOf (s : State) (src : Nat) : Faults := if src < 0x100 then s.h.flt else s.f.flt

/-- The state with the collector of a source replaced. -/
def setFlt (src : Nat) (c : Faults) (s : State) : State :=
  if src < 0x100 then { s with h.flt := c } else { s with f.flt := c }

/-- The base address of a collector's registers. -/
def fltBase (src : Nat) : Nat := if src < 0x100 then 0x50000 else 0x810000

/-- The sticky bit of a source: its register and bit (Table FLT-7). -/
def stkPlace (src : Nat) : Nat × Nat := (fltBase src + 0x10 + 4 * (src % 256 / 32), src % 32)

/-- The ring of a source after an event (R762): the unit index appended, the oldest dropped beyond N, and whether N events fall within W. -/
def ringStep (p : Policy) (ring : List Nat) (u : Nat) : List Nat × Bool :=
  let r := ring ++ [u]
  let r := r.drop (r.length - p.n)
  if decide (r.length = p.n) && decide (u - r.headD u < p.w) then ([], true) else (r, false)

/-- What a classification step says to its die: nothing, a minor event whose sticky bit changed, or a class with its reaction. -/
inductive Verdict
  | silent
  | minor
  | classified (cls react : Nat)
deriving DecidableEq, Repr

/-- One event counted, classified and captured by its collector (R762, R765, R766). -/
def classifyFault (e : FEvent) (s : State) : State × Verdict :=
  let c := fltOf s e.src
  let c := { c with events := KMap.put c.events e.src (satAdd 16 (KMap.getD c.events e.src 0) 1) }
  match policyNow s e.src with
  | none => (setFlt e.src c s, .silent)
  | some p =>
    if !p.enable then (setFlt e.src c s, .silent)
    else
      let (ring, hit) := ringStep p (KMap.getD c.rings e.src []) (e.stamp / 1024)
      let c := { c with rings := if ring.isEmpty then KMap.del c.rings e.src else KMap.put c.rings e.src ring }
      if hit then
        let c := { c with classified := KMap.put c.classified e.src (satAdd 16 (KMap.getD c.classified e.src 0) 1) }
        let c := match c.latch with
          | none => { c with latch := some ⟨e.src, p.cls, p.react, e.detail, e.stamp⟩ }
          | some _ => { c with ovf := true }
        (setFlt e.src c s, .classified p.cls p.react)
      else
        let (a, b) := stkPlace e.src
        let was := bit (reg s a) b
        (setField (setFlt e.src c s) a b 1 1, if was then .silent else .minor)

/-- A write of 1 to SEV: it takes effect after the events of its tick (R164). -/
def clearLatch (src : Nat) (s : State) : State := setFlt src { fltOf s src with clear := true } s

/-- The latch emptied by a write of 1 to SEV in the tick committed (R767). -/
def settleLatch (src : Nat) (s : State) : State :=
  let c := fltOf s src
  if c.clear then setFlt src { c with latch := none, ovf := false, clear := false } s else s

/-! ## Reporting (R775 to R779) -/

/-- A fault notice submitted at port 68 (R777, Table FLT-4). -/
def notice (src cls react detail : Nat) (stamp : Stamp) (s : State) : State :=
  let n := s.h.flt.nseq
  submitMsg 68 (le 2 0x0E41 ++ [1, byte detail] ++ le 2 src ++ [byte cls, byte react] ++ le 8 stamp ++ le 4 n ++ le 4 0) 0
    { s with h.flt.nseq := (n + 1) % 2 ^ 32 }

/-- The journal's fault entry, the interrupt and the notice of an event (R775 to R777). -/
def reportFault (tick src cls react detail : Nat) (stamp : Stamp) (s : State) : State :=
  let s := jChange (tick * 8) 6 [(5, 2, le 2 src ++ [byte react, byte cls] ++ le 4 0)] s
  let s := setInt (if cls = 0 then 4 else 3) s
  notice src cls react detail stamp s

/-- A field report placed in the queue of 16 (R778). -/
def fieldReport (src cls react : Nat) (stamp : Stamp) (s : State) : State :=
  if 16 ≤ s.f.flt.reports.length then bump s 0x810048 16 16 1
  else { s with f.flt.reports := s.f.flt.reports ++ [le 2 src ++ [byte cls, byte react] ++ le 4 0 ++ le 8 stamp] }

end Sys2Proof.Machine
end

