-- ==== Sys2Proof/Machine/ImageFmt.lean ====
section
/-! DEFINITION. The structure image: its parts as bytes, sections parsed, and register values loaded from it (chapter 03). -/

namespace Sys2Proof.Machine

open Sys2Proof

/-! ## Sections (Tables IMG-1 to IMG-4) -/

/-- RECSIZE of a section type: that of Table IMG-4, or the body header's own for LIVE_TABLE. -/
def recSize (typ : Nat) : Option Nat :=
  match typ with
  | 0x1 => some 8 | 0x2 => some 4 | 0x3 => none | 0x4 => none | 0x5 => some 8 | 0x6 => some 16 | 0x7 => some 8
  | 0x8 => some 12 | 0x9 => some 8 | 0xA => some 4 | 0xC => some 20 | 0xD => some 44
  | _ => none

/-- The records of a body after its header. -/
def cutRecs (size : Nat) : Nat → Bytes → List Bytes
  | 0, _ => []
  | n + 1, b => slice b 0 size :: cutRecs size n (b.drop size)

/-- A section from its table entry's TYPE, INST and DIE and its bytes (R107): the code of FIRMWARE stands as one record. -/
def parseSect (typ inst die : Nat) (b : Bytes) : Sect :=
  if typ = 0x0B then
    ⟨typ, inst, die, 0, fieldLE b 8 4, 0, 0, fieldLE b 12 4, [slice b 16 (fieldLE b 4 4)]⟩
  else
    ⟨typ, inst, die, fieldLE b 2 2, fieldLE b 8 4, fieldLE b 12 1, fieldLE b 13 1, fieldLE b 14 2,
      cutRecs (fieldLE b 2 2) (fieldLE b 4 4) (b.drop 16)⟩

/-- The section table entries of an image (Table IMG-2). -/
def sectEntries (img : Bytes) : List Bytes :=
  (List.range (fieldLE img 0x18 2)).map (fun i => slice img (0x40 + 48 * i) 48)

/-- The bytes of the section an entry names. -/
def sectBytes (img e : Bytes) : Bytes := slice img (fieldLE e 4 4) (fieldLE e 8 4)

/-- The sections of an image. -/
def parseSects (img : Bytes) : List Sect :=
  (sectEntries img).map (fun e => parseSect (fieldLE e 0 2) (fieldLE e 2 1) (fieldLE e 3 1) (sectBytes img e))

/-- Register values of REG_INIT records (R112): each record's VALUE in its field. -/
def loadRegInit (rs : List Bytes) (m : KMap Word) : KMap Word :=
  rs.foldl (fun m r =>
    let a := fieldLE r 0 4
    let old := (RegFile.get m a).toNat
    RegFile.set m a (BitVec.ofNat 32 (putBits old (fieldLE r 4 1) (fieldLE r 5 1) (fieldLE r 8 4)))) m

/-- One field of a register file set. -/
def RegFile.setBits (m : KMap Word) (a lo w x : Nat) : KMap Word :=
  RegFile.set m a (BitVec.ofNat 32 (putBits (RegFile.get m a).toNat lo w x))

/-! ## The boot flash -/

/-- One byte of the boot flash; an erased byte reads 0xFF. -/
def Flash.get (f : Flash) (a : Nat) : Byte :=
  match f.mem.find? (fun c => c.1 == a) with
  | some c => c.2
  | none => 0xFF

/-- A run of bytes of the boot flash. -/
def Flash.read (f : Flash) (a n : Nat) : Bytes := (List.range n).map (fun i => f.get (a + i))

/-- One cell put into a list of cells with rising addresses. -/
def Flash.putCell : List Host.Cell → Nat → Byte → List Host.Cell
  | [], a, v => if v = 0xFF then [] else [(a, v)]
  | c :: r, a, v =>
    if a < c.1 then (if v = 0xFF then c :: r else (a, v) :: c :: r)
    else if c.1 = a then (if v = 0xFF then r else (a, v) :: r)
    else c :: Flash.putCell r a v

/-- One byte of the boot flash set; an erased byte is not listed. -/
def Flash.set (f : Flash) (a : Nat) (v : Byte) : Flash := { f with mem := Flash.putCell f.mem a v }

/-- Bytes programmed: a flash bit goes from 1 to 0 only. -/
def Flash.program (f : Flash) (a : Nat) : Bytes → Flash
  | [] => f
  | b :: r => Flash.program (f.set a (f.get a &&& b)) (a + 1) r

/-- A run of bytes erased. -/
def Flash.erase (f : Flash) (a n : Nat) : Flash := { f with mem := f.mem.filter (fun c => !(decide (a ≤ c.1) && decide (c.1 < a + n))) }

/-- The cells of the boot flash rise strictly from an address on, and none holds an erased byte. -/
def Flash.cellsOk : Option Nat → List Host.Cell → Bool
  | _, [] => true
  | lo, c :: r => (match lo with | none => true | some l => decide (l < c.1)) && decide (c.2 ≠ 0xFF) && Flash.cellsOk (some c.1) r

/-- The boot flash is in its canonical form. -/
def Flash.wf (f : Flash) : Bool := Flash.cellsOk none f.mem

/-- The flash address of a slot: 0 A, 1 B (R100). -/
def slotBase (slot : Nat) : Nat := slot * 0x1000000

/-- The bytes a slot has on this flash (R233). -/
def slotSpace (f : Flash) (slot : Nat) : Nat :=
  let d := f.dens * 0x100000
  if slot = 0 then min d 0x1000000 else if d ≤ 0x1000000 then 0 else min (d - 0x1000000) 0x1000000

end Sys2Proof.Machine
end

