-- ==== Sys2Proof/Machine/Tahr.lean ====
section
/-! DEFINITION. The Tahr link between the dies: frames, sequencing, the message catalogue and the barrier, heartbeats, time alignment, permission, and what crosses (chapter 14). -/

namespace Sys2Proof.Machine

open Sys2Proof

/-! ## The two ends -/

/-- One die's end of the link. -/
def endOf (s : State) (field : Bool) : LinkEnd := if field then s.f.fe else s.h.tahr.fe

/-- The state with an end replaced. -/
def setEnd (field : Bool) (e : LinkEnd) (s : State) : State :=
  if field then { s with f.fe := e } else { s with h.tahr.fe := e }

/-- The clock of a die: SYSCNT, or the follower. -/
def dieNow (s : State) (field : Bool) : Stamp := if field then fnow s else s.time.now

/-- The active lanes of the direction an end receives (R598). -/
def activeLanes (e : LinkEnd) : Nat := min 4 ((List.range 6).filter (fun l => !bit e.retired l)).length

/-! ## Frames (R604) -/

/-- CRC-32C over a byte string. -/
def crc32c (bs : Bytes) : Nat :=
  let step1 := fun (c : Nat) => if c % 2 = 1 then Nat.xor (c / 2) 0x82F63B78 else c / 2
  Nat.xor (bs.foldl (fun c b => (List.range 8).foldl (fun c _ => step1 c) (Nat.xor c b.toNat)) 0xFFFFFFFF) 0xFFFFFFFF

/-- The remote horizon an end sends (R170): the lowest tick whose ordered messages have not all been sent. -/
def sentHorizon (s : State) (field : Bool) : Nat :=
  ((endOf s field).waiting ++ (endOf s field).unacked).foldl (fun m f => min m (tickOf f.xstamp)) (tickOf (dieNow s field))

/-- The bytes of a frame as an end sends it (Table TAHR-2). -/
def frameBytes (s : State) (field : Bool) (f : TFrame) : Bytes :=
  let e := endOf s field
  let ty := f.typ % 64 + 64 * b2n f.first + 128 * b2n f.last
  let body := [byte ty, byte f.seq, byte (e.rxNext + 255), byte (e.nak.getD 0), byte f.payload.length,
    byte (b2n e.nak.isSome + 2 * b2n (decide (1 < f.sends))), byte f.origin, byte (e.laneReq.getD 0)] ++
    le 4 f.xstamp ++ le 4 (sentHorizon s field) ++ f.payload
  body ++ le 4 (crc32c body)

/-- A received frame is sound (R608): its delimiters, its length, and its CRC. -/
def frameOk (b : Bytes) (delim : Bool) : Bool :=
  delim && decide (20 ≤ b.length) && decide (fieldLE b 4 1 ≤ 128) && b.length == 20 + fieldLE b 4 1 &&
  fieldLE b (b.length - 4) 4 == crc32c (b.take (b.length - 4))

/-- The value congruent to a 32-bit value that lies nearest to a reference (R605). -/
def extend32 (ref v : Nat) : Nat :=
  let base := ref / 2 ^ 32 * 2 ^ 32 + v
  if base + 2 ^ 31 ≤ ref then base + 2 ^ 32
  else if ref + 2 ^ 31 < base ∧ 2 ^ 32 ≤ base then base - 2 ^ 32 else base

/-! ## The catalogue (R611, R616) -/

/-- The reasons of R616. -/
inductive Barrier
  | typ | len | origin | minint
deriving DecidableEq, Repr

/-- A catalogue entry: direction (0 host to field, 1 field to host, 2 both), whether it is ordered, least and greatest length, MININT in µs, and the origins allowed (none: hardware). -/
structure CatEntry where
  dir : Nat
  ordered : Bool
  lo : Nat
  hi : Nat
  minint : Nat
  origins : Option Nat
deriving DecidableEq, Repr

/-- The MSG_CATALOGUE records a die has loaded. -/
def catalogue (s : State) (field : Bool) : List Bytes :=
  if field then (match s.f.sects.find? (fun c => c.typ == 5) with | some c => c.recs | none => [])
  else recs s 5 0

/-- The catalogue entry of a type on a die (Table TAHR-3, MSG_CATALOGUE). -/
def catEntry (s : State) (field : Bool) (typ : Nat) : Option CatEntry :=
  match typ with
  | 1 => some ⟨2, false, 64, 64, 0, none⟩
  | 2 => some ⟨2, false, 32, 32, 0, none⟩
  | 3 => some ⟨2, false, 8, 1040, 0, none⟩
  | 4 => some ⟨1, true, 16, 16, 8, none⟩
  | 5 => some ⟨0, true, 8, 8, 10, none⟩
  | 6 => some ⟨2, false, 16, 1024, 0, none⟩
  | 7 => some ⟨1, true, 16, 128, 8, none⟩
  | 8 => some ⟨2, true, 12, 76, 20, none⟩
  | 9 => some ⟨1, true, 32, 32, 4, none⟩
  | t =>
    if 16 ≤ t ∧ t ≤ 63 then
      ((catalogue s field).find? (fun r => fieldLE r 0 1 == t)).map
        (fun r => ⟨fieldLE r 1 1, true, fieldLE r 2 2, fieldLE r 2 2, fieldLE r 4 2, some (fieldLE r 6 2)⟩)
    else none

/-- The source of a message within its type: the FCAN controller or its status source, the origin of an image-defined type, one unit otherwise (R611, R612). -/
def msgSource (typ origin : Nat) (payload : Bytes) : Nat :=
  if typ = 8 then (if bit (fieldLE payload 0 1) 7 then 8 else fieldLE payload 0 1 % 8)
  else if 16 ≤ typ then origin else 0

/-- The check of a message at a die, for the direction it runs (R616): `refs` holds the crossing stamps of the last accepted messages by type and source. -/
def barrier (s : State) (field : Bool) (dir : Nat) (refs : KMap Stamp) (typ origin : Nat) (xstamp : Stamp) (payload : Bytes) : Option Barrier :=
  match catEntry s field typ with
  | none => some .typ
  | some c =>
    if c.dir ≠ 2 ∧ c.dir ≠ dir then some .typ
    else if payload.length < c.lo ∨ c.hi < payload.length then some .len
    else if (match c.origins with | some m => !bit m origin | none => false) then some .origin
    else if c.ordered then
      match KMap.get? refs (typ * 16 + msgSource typ origin payload) with
      | some t => if xstamp < t + c.minint * 1000 then some .minint else none
      | none => none
    else none

/-- A barrier drop counted by its reason on the receiving die (Tables TAHR-6, TAHR-12). -/
def countXdrop (field : Bool) (r : Barrier) (s : State) : State :=
  if field then
    match r with
    | .typ => bump s 0x82002C 0 16 1
    | .len => bump s 0x82002C 16 16 1
    | .minint => bump s 0x820030 16 16 1
    | .origin => bump s 0x820034 0 16 1
  else
    match r with
    | .typ => bump s 0x60000C 0 16 1
    | .len => bump s 0x60000C 16 16 1
    | .origin => bump s 0x600010 0 16 1
    | .minint => bump s 0x600010 16 16 1

/-! ## Sending (R606, R607, R610) -/

/-- The frames of a message (R606); sequence numbers are given when they are sent. -/
def segments (typ origin : Nat) (xstamp : Stamp) (payload : Bytes) : List TFrame :=
  let n := max 1 (ceilDiv payload.length 128)
  (List.range n).map (fun i =>
    ⟨typ, 0, origin, xstamp, i == 0, i + 1 == n, (payload.drop (128 * i)).take 128, 0⟩)

/-- Whether a type is ordered on a die. -/
def orderedType (s : State) (field : Bool) (typ : Nat) : Bool :=
  match catEntry s field typ with | some c => c.ordered | none => false

/-- The sending rank of a waiting message by its first frame (R610): ordered frames by crossing tick, type and source; a control frame after them unless it has waited 20 µs; IMAGE frames last. -/
def sendRank (s : State) (field : Bool) (f : TFrame) : List Nat :=
  if orderedType s field f.typ then [1, tickOf f.xstamp, f.typ, msgSource f.typ f.origin f.payload]
  else if f.typ = 6 then [3, 0, 0, 0]
  else if f.xstamp + 20000 ≤ dieNow s field then [0, tickOf f.xstamp, f.typ, 0]
  else [2, tickOf f.xstamp, f.typ, 0]

/-- The frames of the message that stands at an index, and the others. -/
def splitMsg (l : List TFrame) (i : Nat) : List TFrame × List TFrame :=
  let n := ((l.drop i).findIdx (fun f => f.last)) + 1
  ((l.drop i).take n, l.take i ++ l.drop (i + n))

/-- The waiting frames with the frame to be sent next at the head: an open message goes on, else the message of the least rank starts. -/
def arrange (s : State) (field : Bool) (l : List TFrame) : List TFrame :=
  match l with
  | [] => []
  | f :: _ =>
    if !f.first then l
    else
      let firsts := (l.zipIdx).filter (fun p => p.1.first)
      let best := firsts.foldl (fun (b : Option (List Nat × Nat)) p =>
        let k := sendRank s field p.1
        match b with
        | none => some (k, p.2)
        | some x => if keyLe x.1 k then b else some (k, p.2)) none
      match best with
      | none => l
      | some (_, i) => let (m, r) := splitMsg l i; m ++ r

/-- Frames sent while the window of 32 is open and the link is not training (R603, R607); the count bounds the frames of one turn. -/
def pump (field : Bool) : Nat → State → State
  | 0, s => s
  | n + 1, s =>
    let e := endOf s field
    if 32 ≤ e.unacked.length ∨ e.waiting.isEmpty ∨ e.train then s
    else
      match arrange s field e.waiting with
      | [] => s
      | f :: r =>
        pump field n (setEnd field { e with
          waiting := r, unacked := e.unacked ++ [{ f with seq := e.nextSeq, sends := 1 }],
          nextSeq := (e.nextSeq + 1) % 256, lastTx := dieNow s field } s)

/-- A message accepted for sending, its segments queued and sent while the window allows. -/
def enqueueMsg (field : Bool) (typ origin : Nat) (xstamp : Stamp) (payload : Bytes) (s : State) : State :=
  let e := endOf s field
  let key := typ * 16 + msgSource typ origin payload
  pump field 32 (setEnd field { e with
    waiting := e.waiting ++ segments typ origin xstamp payload,
    txRef := if orderedType s field typ then KMap.put e.txRef key xstamp else e.txRef } s)

/-- A message committed for sending on a die, with the refusal of R616 if the sender refuses it: refused messages count in TAHR.TXREF on the host die. -/
def sendMsg (field : Bool) (typ origin : Nat) (xstamp : Stamp) (payload : Bytes) (s : State) : State × Option Barrier :=
  match barrier s field (b2n field) (endOf s field).txRef typ origin xstamp payload with
  | some r => (if field then s else bump s 0x600014 0 16 1, some r)
  | none => (enqueueMsg field typ origin xstamp payload s, none)

/-- Whether MININT has passed since the previous message of a hardware source. -/
def minintOver (s : State) (field : Bool) (typ src : Nat) : Bool :=
  match KMap.get? (endOf s field).txRef (typ * 16 + src), catEntry s field typ with
  | some t, some c => decide (t + c.minint * 1000 ≤ dieNow s field)
  | _, _ => true

/-! ## Held messages of ALONE (R629) -/

/-- Whether an outbound ordered message is held in ALONE. -/
def holdsType (s : State) (typ : Nat) : Bool :=
  let c := reg s 0x820014
  if typ = 9 then true
  else if typ = 8 then bit c 0
  else if typ = 7 then bit c 1
  else if typ = 4 then bit c 2
  else if 16 ≤ typ then bit c 3
  else false

/-- The held store's use in bytes. -/
def heldBytes (s : State) : Nat := s.f.held.foldl (fun n m => n + m.payload.length) 0

/-- An ordered message of the field die with a crossing stamp sent, or, in ALONE, held or dropped (R629). -/
def fieldSendAt (typ origin : Nat) (x : Stamp) (payload : Bytes) (s : State) : State :=
  if s.f.state = .alone then
    if holdsType s typ then
      if heldBytes s + payload.length ≤ 32768 then
        { s with f.held := s.f.held ++ [⟨typ, origin, x, payload, 0⟩] }
      else bump s 0x820018 16 16 1
    else s
  else (sendMsg true typ origin x payload s).1

/-- An ordered message of the field die committed now. -/
def fieldSend (typ origin : Nat) (payload : Bytes) (s : State) : State := fieldSendAt typ origin (fnow s) payload s

/-- The held messages released at FRUN entry, in their original order, each committed anew (R630). -/
def releaseHeld (s : State) : State :=
  let ms := s.f.held
  ms.foldl (fun s m => enqueueMsg true m.typ m.origin (fnow s) m.payload s) { s with f.held := [] }

/-! ## Receiving (R604 to R608, R616) -/

/-- The presentation stamp of an ordered message (R169). -/
def presStamp (s : State) (x : Stamp) : Stamp := x + fieldOf s 0x30018 0 12 * 8

/-- A whole message at the barrier of a die: dropped by reason, dropped as late (R171), or delivered. -/
def deliverMsg (field : Bool) (m : XMsg) (s : State) : State :=
  let e := endOf s field
  match barrier s field (1 - b2n field) e.rxRef m.typ m.origin m.xstamp m.payload with
  | some r => countXdrop field r s
  | none =>
    let ord := orderedType s field m.typ
    let key := m.typ * 16 + msgSource m.typ m.origin m.payload
    let s := setEnd field { e with rxRef := if ord then KMap.put e.rxRef key m.xstamp else e.rxRef } s
    let pres := presStamp s m.xstamp
    if ord && decide (tickOf pres < tickOf (dieNow s field)) then raise 0x052 0 (bump s 0x30020 16 16 1)
    else
      let e := endOf s field
      setEnd field { e with inbox := e.inbox ++ [{ m with pres := if ord then pres else m.xstamp }] } s

/-- One segment in sequence: it starts or continues the message being assembled, and a LAST segment delivers it. -/
def takeSegment (field : Bool) (f : TFrame) (s : State) : State :=
  let e := endOf s field
  let m : XMsg := match e.part with
    | some p => if f.first then ⟨f.typ, f.origin, f.xstamp, f.payload, 0⟩ else { p with payload := p.payload ++ f.payload }
    | none => ⟨f.typ, f.origin, f.xstamp, f.payload, 0⟩
  if f.last then deliverMsg field m (setEnd field { e with part := none } s)
  else setEnd field { e with part := some m } s

/-- Frames held after a gap that are now in sequence, taken in turn. -/
def takeHeld (field : Bool) : Nat → State → State
  | 0, s => s
  | n + 1, s =>
    let e := endOf s field
    match e.rxHeld.find? (fun f => f.seq == e.rxNext) with
    | none => s
    | some f =>
      takeHeld field n (takeSegment field f (setEnd field { e with
        rxHeld := e.rxHeld.filter (fun g => g.seq != f.seq), rxNext := (e.rxNext + 1) % 256, nak := none } s))

/-- What a frame's header says to the end that receives it: frames acknowledged, a frame to send again, a lane to retire, the remote horizon. -/
def takeHeader (field : Bool) (b : Bytes) (s : State) : State :=
  let e := endOf s field
  let ack := fieldLE b 2 1
  let gone := fun (f : TFrame) => decide ((ack + 256 - f.seq) % 256 < 128)
  let e := { e with unacked := e.unacked.filter (fun f => !gone f) }
  let rhz := extend32 (tickOf (dieNow s field)) (fieldLE b 12 4)
  let e := { e with rhz := max e.rhz rhz }
  let s := setEnd field e s
  let s := if bit (fieldLE b 5 1) 0 then
      let n := fieldLE b 3 1
      let again := e.unacked.any (fun f => f.seq == n && decide (f.sends < 3))
      let s := if again ∧ !field then bump s 0x600008 0 16 1 else s
      setEnd field { endOf s field with
        unacked := (endOf s field).unacked.map (fun f => if f.seq = n ∧ f.sends < 3 then { f with sends := f.sends + 1 } else f) } s
    else s
  pump field 32 s

/-- A frame arrives at a die (R604 to R608). -/
def frameRx (field : Bool) (b : Bytes) (delim : Bool) (s : State) : State :=
  let e := endOf s field
  if !frameOk b delim then setEnd field { e with nak := some e.rxNext } s
  else
    let s := takeHeader field b s
    let e := endOf s field
    let seq := fieldLE b 1 1
    let typ := fieldLE b 0 1 % 64
    let ahead := (seq + 256 - e.rxNext) % 256
    if typ = 0 then
      (if ahead = 0 ∨ 128 ≤ ahead then s else setEnd field { e with nak := some e.rxNext } s)
    else
      let f : TFrame := ⟨typ, seq, fieldLE b 6 1, extend32 (dieNow s field) (fieldLE b 8 4),
        bit (fieldLE b 0 1) 6, bit (fieldLE b 0 1) 7, slice b 16 (fieldLE b 4 1), 0⟩
      if ahead = 0 then
        takeHeld field 32 (takeSegment field f (setEnd field { e with rxNext := (e.rxNext + 1) % 256, nak := none } s))
      else if ahead < 33 then
        setEnd field { e with nak := some e.rxNext,
                              rxHeld := if e.rxHeld.any (fun g => g.seq == seq) ∨ 32 ≤ e.rxHeld.length then e.rxHeld else e.rxHeld ++ [f] } s
      else s

/-- The first whole message of a type, and with a test, taken out of an inbox. -/
def takeInbox (field : Bool) (p : XMsg → Bool) (s : State) : Option (XMsg × State) :=
  let e := endOf s field
  match e.inbox.findIdx? p with
  | none => none
  | some i =>
    match e.inbox[i]? with
    | none => none
    | some m => some (m, setEnd field { e with inbox := e.inbox.eraseIdx i } s)

/-- An ordered message whose presentation tick has committed on its die. -/
def dueMsg (s : State) (field : Bool) (m : XMsg) : Bool := decide (tickOf m.pres ≤ tickOf (dieNow s field))

/-! ## Lanes and training -/

/-- A lane of the direction a die receives is retired (R601, R634): its source is raised, the request goes in the next frame, and on the host die the lane counts. -/
def retireLane (field : Bool) (l : Nat) (s : State) : State :=
  let e := endOf s field
  if 6 ≤ l ∨ bit e.retired l then s
  else
    let s := setEnd field { e with retired := e.retired + 2 ^ l, laneReq := some (l + 1), nak := some e.rxNext } s
    if field then raise 0x116 0 s else raise 0x054 0 (bump s 0x600008 24 8 1)

/-- A retrain (R609): both dies train, keep their sequence state, and send their unacknowledged frames again. -/
def retrain (s : State) : State :=
  let again := fun (field : Bool) (s : State) =>
    let e := endOf s field
    setEnd field { e with train := true, unacked := e.unacked.map (fun f => { f with sends := 1 }) } s
  raise 0x117 0 (raise 0x055 0 (bump (again true (again false s)) 0x600008 16 8 1))

/-- Training completes (R603): where the link was down on the host die, both ends start their sequence numbers again (log entry 17); waiting frames are sent. -/
def trained (s : State) : State :=
  let fresh := fun (e : LinkEnd) =>
    if s.h.tahr.link then { e with train := false }
    else { e with train := false, unacked := [], nextSeq := 0, rxNext := 0, rxHeld := [], part := none, nak := none, inbox := [] }
  pump true 32 (pump false 32 (setEnd false (fresh (endOf s false)) (setEnd true (fresh (endOf s true)) s)))

/-! ## Permission (R622 to R627) -/

/-- The conditions of R623. -/
def permitMet (s : State) : Bool :=
  s.f.state == .frun && !s.f.hold && s.f.hostGrant && bit (reg s 0x820004) 0 && !s.f.wdExpired && !s.f.rberr

/-- Permission withdrawn for a cause (R626, Table TAHR-9): the pins stand static; any cause but the hold line, the host's state and GRANT 0 itself clears FSUP.PERMIT.GRANT. -/
def withdraw (cause : Nat) (s : State) : State :=
  let had := s.f.granted
  let g := bit (reg s 0x820004) 0
  let s := { s with f.granted := false, f.permit := false }
  if cause ≤ 3 then (if had then { s with f.cause := cause } else s)
  else if had ∨ g then setField { s with f.cause := cause } 0x820004 0 1 0
  else s

/-- Permission given once the conditions hold; the pins start at the next rising instant (R624). -/
def permitUpdate (s : State) : State := if permitMet s then { s with f.granted := true } else s

/-- The first rising instant of PERMIT_A: the pins toggle (R624). -/
def permitStart (s : State) : State :=
  if s.f.granted ∧ permitMet s then { s with f.permit := true } else s

/-- The hold line as the field die sees it (R622). -/
def setHoldSeen (h : Bool) (s : State) : State :=
  if h then withdraw 1 { s with f.hold := true } else permitUpdate { s with f.hold := false }

/-- The host's permit state as the field die last saw it (R623). -/
def setHostGrant (g : Bool) (s : State) : State :=
  if g then permitUpdate { s with f.hostGrant := true } else withdraw 2 { s with f.hostGrant := false }

/-- A readback mismatch (R625, R633). -/
def readbackMismatch (s : State) : State := raise 0x112 0 (withdraw 5 { s with f.rberr := true })

/-- The host permit state sent (R623): a PERMIT message with the grant. -/
def sendPermit (g : Bool) (s : State) : State :=
  (sendMsg false 5 0 s.time.now (byte (b2n g) :: List.replicate 7 0) s).1

/-! ## The watchdog (R597) -/

/-- The watchdog's interval in ns. -/
def wdInterval (s : State) : Nat := fieldOf s 0x820010 0 7 * 1000000

/-- The watchdog expires: permission is withdrawn and its source raised. -/
def wdExpire (s : State) : State :=
  match s.f.wdog with
  | none => s
  | some t =>
    if t ≤ fnow s then raise 0x110 0 (withdraw 4 { s with f.wdExpired := true, f.wdog := none }) else s

/-- A write of FSUP.WDT by the FS: the key refreshes the interval, another value is a missed refresh. -/
def wdRefresh (v : Nat) (s : State) : State :=
  if v = 0xA5C3 then
    permitUpdate { s with f.wdog := some (fnow s + wdInterval s), f.wdExpired := false }
  else raise 0x110 0 (withdraw 4 { s with f.wdExpired := true, f.wdog := none })

/-! ## Reports of the field die -/

/-- A change the field die reports (R245): a JOURNAL message of its own, waiting for its turn (R246). -/
def fieldJournal (stamp addr value origin level : Nat) (s : State) : State :=
  { s with f.jout := s.f.jout ++ [le 8 stamp ++ le 4 addr ++ le 4 value ++ [byte origin, byte level] ++ List.replicate 14 0] }

/-- The next JOURNAL message sent, where MININT allows and the link or the held store takes it (R246, R612, R629). -/
def sendJournal (s : State) : State :=
  match s.f.jout with
  | [] => s
  | p :: r =>
    if (s.f.state = .frun ∨ s.f.state = .fhold) ∧ minintOver s true 9 0 then fieldSend 9 0 p { s with f.jout := r } else s

/-- The free entries of an FCAN inbox, its CREDIT (R613). -/
def fcanCredit (s : State) (n : Nat) : Nat := 2 - (nth s.f.inbox n []).length

/-- The registers of a status record (Table TAHR-3). -/
def statusWords (s : State) (n part : Nat) : List Nat :=
  let c := canOf s (24 + n)
  if part = 0 then
    [reg s (canReg (24 + n) 0x00), reg s (canReg (24 + n) 0x04), reg s (canReg (24 + n) 0x08), reg s (canReg (24 + n) 0x0C),
     reg s (canReg (24 + n) 0x10), canStat s (24 + n), c.tec + 0x10000 * c.rxErr, canTxstat c,
     reg s (canReg (24 + n) 0x24), reg s (canReg (24 + n) 0x28), reg s (canReg (24 + n) 0x2C), reg s (canReg (24 + n) 0x30),
     reg s (canReg (24 + n) 0x34)]
  else
    (List.range 8).map (fun i => match nth c.slots i none with | some x => canIdw x.body | none => 0) ++
    (List.range 8).map (fun i => match nth c.slots i none with | some x => x.tries | none => 0)

/-- A status record's payload. -/
def statusPayload (s : State) (n part : Nat) : Bytes :=
  [byte (n + 64 * part + 128), byte (fcanCredit s n), 0, 0] ++ (statusWords s n part).flatMap (le 4)

/-- The mirror addresses of a status record on the host die, in its order. -/
def mirrorAddrs (n part : Nat) : List Nat :=
  let page := 0x400000 + (24 + n) * 0x1000
  if part = 0 then [0x00, 0x04, 0x08, 0x0C, 0x10, 0x14, 0x18, 0x1C, 0x24, 0x28, 0x2C, 0x30, 0x34].map (fun o => page + o)
  else (List.range 16).map (fun i => page + 0x40 + 4 * i)

/-- A status record takes effect on the mirrors (R421); the port follows the mirror's BLOCKED. -/
def takeStatus (p : Bytes) (s : State) : State :=
  let n := fieldLE p 0 1 % 8
  let part := bits (fieldLE p 0 1) 6 1
  let s := ((mirrorAddrs n part).zipIdx).foldl (fun s a => setReg s a.1 (fieldLE p (4 + 4 * a.2) 4)) s
  if part = 0 then setBlocked (40 + n) (bit (reg s (0x400014 + (24 + n) * 0x1000)) 3) s else s

/-- The credit that an FCAN message from the field die brings (R613). -/
def takeCredit (p : Bytes) (s : State) : State :=
  { s with h.tahr.credits := s.h.tahr.credits.set (fieldLE p 0 1 % 8) (fieldLE p 1 1) }

/-! ## Heartbeats and the link (R628, R630) -/

/-- A die's heartbeat payload (Table TAHR-3). -/
def heartbeat (s : State) (field : Bool) : Bytes :=
  if field then [byte s.f.state.code, byte (b2n s.f.permit)] ++ List.replicate 14 (byte 0) ++ padTo 48 s.f.digest
  else [byte s.sys.mode.code, byte (fieldOf s 0x600004 0 1)] ++ List.replicate 14 (byte 0) ++
    padTo 48 (match s.h.img.image with | some im => im.digest | none => [])

/-- The link goes down on the host die (R48, R628, R631). -/
def hostLinkDown (s : State) : State :=
  if s.h.tahr.link then
    let s := { s with h.tahr.svc := false, h.tahr.fgrant := false, h.tahr.syncN := 0, h.tahr.fe.train := true, h.tahr.startSent := false,
                      h.tahr.xferWait := false, h.tahr.fe.waiting := s.h.tahr.fe.waiting.filter (fun f => f.typ != 6) }
    let s := setFmode false 0 0 s
    let s := (List.range 8).foldl (fun s n => expressPurge (40 + n) s) (expressPurge 69 s)
    raise 0x057 0 (setInt 8 s)
  else s

/-- The link goes down on the field die (R25, R628): ALONE from FRUN, permission withdrawn, the source raised. -/
def fieldLinkDown (s : State) : State :=
  if s.f.state = .frun then
    raise 0x115 0 { withdraw 6 { s with f.state := .alone } with f.aligned := false, f.fe.train := true }
  else { s with f.fe.train := true }

/-- A heartbeat handled by the host die: the link comes up or stays up, and the field state, permit state and digest are reported. -/
def hostHeartbeat (m : XMsg) (s : State) : State :=
  let was := s.h.tahr.link
  let old := fmode s
  let st := fieldLE m.payload 0 1
  let s := { s with h.tahr.fgrant := bit (fieldLE m.payload 1 1) 0, h.tahr.fdigest := slice m.payload 16 48,
                    h.tahr.fe.lastHb := s.time.now }
  let s := setFmode true st (if st = 5 then 6 else 0) s
  let s := if was then s else setInt 8 s
  let mine := match s.h.img.image with | some im => padTo 48 im.digest | none => []
  let s := if st = 3 ∨ st = 5 then { s with h.tahr.svc := true } else s
  if s.sys.mode.live && (!s.h.tahr.xferWait || old == 2) && (st == 1 || (st == 4 && s.h.tahr.fdigest != mine)) then
    { s with h.tahr.xferWait := true }
  else s

/-- A heartbeat handled by the field die. -/
def fieldHeartbeat (m : XMsg) (s : State) : State :=
  setHostGrant (bit (fieldLE m.payload 1 1) 0) { s with f.fe.lastHb := fnow s, f.newDigest := if s.f.state = .alone then slice m.payload 16 48 else s.f.newDigest }

/-! ## Time alignment (R620, R621, R174) -/

/-- An offset measured: reported, and three successive measurements beyond 4 ns raise the alignment source. -/
def reportOffset (o : Int) (s : State) : State :=
  let big := decide (4 < o) || decide (o < -4)
  let s := { s with h.tahr.ofs := o, time.falign := clampInt (-127) 127 o,
                    time.fbad := if big then s.time.fbad + 1 else 0, time.fgood := if big then 0 else min 3 (s.time.fgood + 1) }
  if s.time.fbad = 3 then raise 0x053 0 { s with time.fbad := 0 } else s

/-- The offset of an exchange: half of (t2 − t1) − (t4 − t3), rounded toward 0 (log entry 17). -/
def exchangeOffset (t1 t2 t3 t4 : Int) : Int := Int.tdiv ((t2 - t1) - (t4 - t3)) 2

/-- The field die takes the offset of the last exchange (R621): outside FRUN it steps the whole offset at the first exchange; in FRUN it slews by at most 1 ns per µs, 100 ns per exchange. A step empties the fault rings (R764). -/
def takeOffset (o : Int) (s : State) : State :=
  let s := if s.f.state = .frun then { s with f.ofs := s.f.ofs - clampInt (-100) 100 o }
    else if s.f.synced then s
    else { s with f.ofs := s.f.ofs - o, f.synced := true, f.flt.rings := [] }
  { s with f.aligned := decide (-4 ≤ o) && decide (o ≤ 4) || !(s.f.state == .frun) }

/-! ## The field die's image transfer (R124, R611, R631) -/

/-- A field reset (Table MOD-3): every register block of the field die at its reset value, in a new state; the link end and the pins' inputs go on. -/
def fieldReset (st : FState) (keepLink : Bool) (s : State) : State :=
  let isField := fun (k : Nat) => decide (0x20000000 ≤ k) || (decide (0x800000 ≤ k % 0x1000000) && decide (k % 0x1000000 < 0x830000) && decide (k < 0x20000000))
  { s with
    regs := dropRegs s.regs isField
    f := { FieldDie.reset with
      state := st, ofs := s.f.ofs, hold := s.f.hold, hostGrant := s.f.hostGrant,
      fe := if keepLink then s.f.fe else LinkEnd.reset } }

/-- A field start message (R98): accepted in WAIT, FBUILD and ALONE, and in FRUN and FHOLD while the hold line is asserted; dropped and counted otherwise. -/
def fieldStart (m : XMsg) (s : State) : State :=
  let ok := match s.f.state with
    | .wait => true | .fbuild => true | .alone => true
    | .frun => s.f.hold | .fhold => s.f.hold
    | _ => false
  if ok then
    let s := fieldReset .fbuild true s
    { s with f.newDigest := slice m.payload 8 48, f.fe.train := true, h.tahr.fe.train := true }
  else countXdrop true .typ s

/-- The result of a section transfer sent to the host die (Table TAHR-3). -/
def sendResult (result idx : Nat) (s : State) : State :=
  (sendMsg true 6 0 (fnow s) ([byte result, byte s.f.state.code] ++ le 2 idx ++ List.replicate 12 0) s).1

/-- An IMAGE ENTRY message: the section table entry of an index; an entry that names no section of the field die is a FORMAT error. -/
def imageEntry (m : XMsg) (s : State) : State :=
  if s.f.state ≠ .fbuild then s
  else
    let idx := fieldLE m.payload 2 2
    let e := slice m.payload 8 48
    if m.payload.length ≠ 56 ∨ 2 < fieldLE e 3 1 ∨ fieldLE e 3 1 = 0 then sendResult 3 idx s
    else if fieldLE e 8 4 > 0x1000000 then sendResult 2 idx s
    else { s with f.entries := s.f.entries.filter (fun x => x.1 != idx) ++ [(idx, e)],
                  f.data := s.f.data.filter (fun x => x.1 != idx) ++ [(idx, [])] }

/-- An IMAGE DATA message: bytes of a section in order; a whole section is checked against its HASH and its result reported (R124). -/
def imageData (m : XMsg) (s : State) : State :=
  if s.f.state ≠ .fbuild then s
  else
    let idx := fieldLE m.payload 2 2
    match s.f.entries.find? (fun x => x.1 == idx), s.f.data.find? (fun x => x.1 == idx) with
    | some (_, e), some (_, d) =>
      let len := fieldLE e 8 4
      if fieldLE m.payload 4 4 ≠ d.length then sendResult 3 idx s
      else if len < d.length + (m.payload.length - 8) then sendResult 2 idx s
      else
        let d := d ++ m.payload.drop 8
        let s := { s with f.data := s.f.data.map (fun x => if x.1 = idx then (idx, d) else x) }
        if d.length = len then sendResult (if padTo 32 (Config.sha256 d) = slice e 16 32 then 0 else 1) idx s else s
    | _, _ => sendResult 3 idx s

/-- Every section the field die was told of is whole and matches its HASH. -/
def fieldVerified (s : State) : Bool :=
  !s.f.entries.isEmpty && s.f.entries.all (fun e =>
    match s.f.data.find? (fun x => x.1 == e.1) with
    | some (_, d) => d.length == fieldLE e.2 8 4 && padTo 32 (Config.sha256 d) == slice e.2 16 32
    | none => false)

/-- An IMAGE ABORT message: the transfer is abandoned (R631). -/
def imageAbort (s : State) : State := { s with f.entries := [], f.data := [] }

/-- An IMAGE message sent by the host die. -/
def sendImage (op idx off : Nat) (rest : Bytes) (s : State) : State :=
  (sendMsg false 6 0 s.time.now ([byte op, 0] ++ le 2 idx ++ le 4 off ++ rest ++ List.replicate (8 - rest.length) 0) s).1

/-- The DATA messages of a section: at most 1,016 bytes each, and never fewer than the 8 that LEN 16 asks for. -/
def sendData (idx : Nat) (b : Bytes) : Nat → Nat → State → State
  | 0, _, s => s
  | n + 1, off, s =>
    if b.length ≤ off then s
    else
      let left := b.length - off
      let p := (b.drop off).take (if left ≤ 1016 then left else if left < 1024 then 1008 else 1016)
      sendData idx b n (off + p.length) ((sendMsg false 6 0 s.time.now ([byte 3, byte 0] ++ le 2 idx ++ le 4 off ++ p) s).1)

/-- The field and both-die sections of an image sent, entries first, then their bytes (Table IMG-7 step 4). -/
def sendFieldSections (img : Bytes) (s : State) : State :=
  let es := ((sectEntries img).zipIdx).filter (fun p => fieldLE p.1 3 1 != 0)
  let s := es.foldl (fun s p => sendImage 2 p.2 0 p.1 s) s
  es.foldl (fun s p => let b := sectBytes img p.1; sendData p.2 b (b.length + 1) 0 s) s

/-- A field start message sent with the digest of the image it announces (R75). -/
def sendStart (digest : Bytes) (s : State) : State :=
  sendImage 1 0 0 (padTo 48 digest) { s with h.tahr.startSent := true }

/-! ## Remote accesses (R617) -/

/-- A REMOTE request sent: one outstanding for each origin. -/
def remoteSend (o : Origin) (op : Nat) (es : List (Nat × Nat)) (seq : Nat) (s : State) : State :=
  let rid := s.h.tahr.nextRid
  let s := { s with h.tahr.remote := s.h.tahr.remote ++ [⟨o.code, rid, op, es, seq⟩], h.tahr.nextRid := (rid + 1) % 65536 }
  (sendMsg false 3 o.code s.time.now ([byte op, byte es.length] ++ le 2 rid ++ le 4 0 ++ es.flatMap (fun e => le 4 e.1 ++ le 4 e.2)) s).1

/-- Whether an origin has a REMOTE request outstanding. -/
def remoteBusy (s : State) (o : Origin) : Bool := s.h.tahr.remote.any (fun r => r.origin == o.code)

/-- A REMOTE response sent by the field die. -/
def remoteReply (o rid st failix stamp : Nat) (ws : List Word) (s : State) : State :=
  (sendMsg true 3 o (fnow s) (le 2 rid ++ [byte st, byte failix] ++ le 4 0 ++ le 8 stamp ++ ws.flatMap (fun w => le 4 w.toNat)) s).1

end Sys2Proof.Machine
end

