-- ==== Sys2Proof/Machine/Modes.lean ====
section
/-! DEFINITION. Modes, resets, supplies, standby and the wake arbiter (chapter 02). -/

namespace Sys2Proof.Machine

open Sys2Proof

/-! ## Reinitialising the host die (R68) -/

/-- A register key of the host die's own blocks, banks included. -/
def isHostReg (k : Nat) : Bool :=
  decide (k < 0x20000000) && (decide (k % 0x1000000 < 0x800000) || decide (0x830000 ≤ k % 0x1000000))

/-- The host die's registers and units at their reset values; SYS.RSTCAUSE and the wake record are kept (R68). -/
def reinitHost (s : State) : State :=
  let m := dropRegs s.regs isHostReg
  { s with
    regs := regsReset.foldl (fun m p => RegFile.set m p.1 p.2) m
    h := HostDie.reset
    time := { s.time with rate := 0, rateNext := none, nowh := 0, ptpofs := 0, ofslHeld := none, falign := 0, fbad := 0, fgood := 0, rhorizon := 0 }
    sys.noImg := false, sys.entering := false, sys.int0 := false, sys.int1 := false, sys.degOrigin := 6 }

/-- The bits of SYS.RSTCAUSE (Table MOD-11). -/
def causePor : Nat := 1
@[inherit_doc causePor] def causePin : Nat := 2
@[inherit_doc causePor] def causeHostCmd : Nat := 4
@[inherit_doc causePor] def causeSupMon : Nat := 8
@[inherit_doc causePor] def causeClkMon : Nat := 16
@[inherit_doc causePor] def causeTempMon : Nat := 32
@[inherit_doc causePor] def causeKeepLost : Nat := 64
@[inherit_doc causePor] def causeFromHold : Nat := 128
@[inherit_doc causePor] def causeWake : Nat := 256

/-- A host-die reset is accepted (R66, R67, R68, R69, R70, R88): SYSCNT stops, every block of the host die is reinitialised, the wake arbiter stops recording; a source that joins a reset under way adds its bit. -/
def hostReset (cause : Nat) (s : State) : State :=
  match s.sys.inReset with
  | some c => { s with sys.inReset := some (Nat.lor c cause) }
  | none =>
    let c := cause + (if s.sys.mode = .hold then causeFromHold else 0)
    modePins { reinitHost s with
      sys.inReset := some c, sys.rstCause := c, sys.mode := .build, time.running := false,
      sys.wake.recording := false, sys.wake.armed := false,
      sys.wake.primary := (if bit cause 0 then 0x1F else s.sys.wake.primary), sys.wake.second := (if bit cause 0 then 0x1F else s.sys.wake.second),
      sys.wake.seen := (if bit cause 0 then 0 else s.sys.wake.seen), sys.wake.t1 := (if bit cause 0 then 0 else s.sys.wake.t1),
      sys.wake.t2 := (if bit cause 0 then 0 else s.sys.wake.t2) }

/-- A host-die reset ends (R71): SYSCNT starts one keeper count above the keeper counter, or at 0 with KEEPLOST where the counter is lost; the mode is BUILD. -/
def resetEnd (s : State) : State :=
  match s.sys.inReset with
  | none => s
  | some c =>
    let lost := s.keeper.lost
    let t := if lost then 0 else (s.keeper.ctr + 1) * 32768
    modePins { s with
      sys.inReset := none, sys.rstCause := Nat.lor c (if lost then causeKeepLost else 0),
      sys.keepOk := !lost, keeper.lost := false, keeper.ctr := t / 32768,
      time.now := t, time.edge := t * 2 ^ 32, time.running := true, sys.mode := .build, sys.buildAt := t }

/-- The keeper domain's contents lost (Tables MOD-3, KEY-1, KEY-2). A part in BLANK stays BLANK; any other state becomes KEEPER_LOST, to be reported at the next BUILD (R511). -/
def loseKeeper (s : State) : State :=
  let blank := s.keeper.rootState == 3
  { s with keeper := { Keeper.reset with rootState := if blank then 3 else 2, lostReport := !blank } }

/-- VSUP_H is lost (R77, R78, R95): SYSCNT stops into the keeper counter, and KEEP follows, or No supply where VKEEP is absent. -/
def supplyLoss (s : State) : State :=
  if !s.sys.vsupH then s
  else
    let ctr := if s.time.running then s.time.now / 32768 else s.keeper.ctr
    let s := { reinitHost s with sys.vsupH := false, sys.inReset := none, time.running := false, keeper.ctr := ctr,
                                 sys.wake := Wake.reset }
    if s.sys.vkeep then modePins { s with sys.mode := .keep }
    else modePins (loseKeeper { s with sys.mode := .noSupply })

/-! ## HOLD and DEGRADED -/

/-- SYS.DEGCAUSE.NOSPARE (R61, R806): a duty of either die is out of service. -/
def noSpare (s : State) : Bool := !s.h.rep.out.isEmpty

/-- SYS.DEGCAUSE as it reads. -/
def degCause (s : State) : Nat := fieldOf s 0x1C 0 1 + 2 * b2n (noSpare s)

/-- HOLD entered by a reaction (R58, R92, R129, R770): in BUILD no image is in force afterwards and the slot being tried reports HOLD. -/
def enterHold (s : State) : State :=
  match s.sys.mode with
  | .build =>
    let s := match s.h.img.trying with
      | some 0 => { s with h.img.codeA := 0x0F }
      | some _ => { s with h.img.codeB := 0x0F }
      | none => s
    modePins (setInt 5 { s with sys.mode := .hold, sys.noImg := true, h.img.trying := none, h.img.rest := [], h.img.image := none })
  | .run => setMode .hold 6 s
  | .degraded => setMode .hold 6 s
  | .standby => if s.sys.entering then setMode .hold 6 { s with sys.entering := false } else s
  | _ => s

/-- A DEGRADE reaction (R61, R768, R787). -/
def degrade (s : State) : State :=
  let s := setField s 0x1C 0 1 1
  if s.sys.mode = .run then setMode .degraded 6 s else s

/-- The change between RUN and DEGRADED at a commit horizon (Table MOD-2), with the origin of Table JRN-13. -/
def modeTick (s : State) : State :=
  match s.sys.mode with
  | .run => if degCause s ≠ 0 then setMode .degraded s.sys.degOrigin s else s
  | .degraded => if degCause s = 0 then setMode .run s.sys.degOrigin s else s
  | _ => s

/-! ## STANDBY -/

/-- A request for STANDBY takes effect (R62 steps 1 to 3, R63, R88): the hold line is asserted, permission withdrawn, listeners armed, the wake record cleared, and the drain limit starts. -/
def enterStandby (origin : Nat) (s : State) : State :=
  if !s.sys.mode.live then s
  else
    let s := sendPermit false (setMode .standby origin s)
    let en := reg s 0x24
    { s with
      sys.entering := true, sys.drainAt := s.time.now + fieldOf s 0x20 0 8 * 1000000
      sys.wake := { Wake.reset with recording := true, armed := true, pulse := s.sys.wake.pulse, out := s.sys.wake.out }
      h.listeners := (List.range 8).map (fun i => ⟨bit en (1 + i), 0, false⟩) }

/-- Every frame still queued purged and counted as a hold-limit purge (R62 step 4). -/
def purgeAll (s : State) : State := (s.h.fab.queues.flatMap (fun p => p.2)).foldl purgeFrame s

/-- The frames of CAN slots lost at STANDBY entry (R445): each is counted. -/
def loseSlots (s : State) : State :=
  (List.range 24).foldl (fun s n =>
    let k := (usedSlots (canOf s n)).length
    if k = 0 then s else setCan (bump s (canReg n 0x28) 16 16 k) n { canOf s n with slots := List.replicate 8 none, wire := none }) s

/-- The last steps of the entry into STANDBY (R62 steps 4 to 6, R264, R789, R830, R857): queues purged, the link stopped, every island outside the wake domain and the timebase powered down. The registers the wake domain reads stay. -/
def finishStandby (s : State) : State :=
  if s.sys.mode ≠ .standby ∨ !s.sys.entering then s
  else
    let s := loseSlots (purgeAll s)
    modePins { s with
      sys.entering := false
      h := { HostDie.reset with listeners := s.h.listeners, touch := s.h.touch, eth := { EthAll.reset with ports := s.h.eth.ports }, lin := s.h.lin, port := s.h.port } }

/-! ## The wake arbiter (R82 to R91) -/

/-- Whether SYS.WAKEEN enables a source (Table MOD-14); the host resume is always enabled. -/
def wakeEnabled (s : State) (src : Nat) : Bool :=
  let en := reg s 0x24
  if src = 0 then true
  else if src = 1 then bit en 0
  else if src ≤ 9 then bit en (src - 1)
  else if src ≤ 0x0D then bit en (src - 1)
  else if src = 0x0E then bit en 13
  else if src = 0x0F then bit en 14
  else false

/-- The earlier of two wake events by (tick, code). -/
def earlier (a b : Nat × Stamp) : Nat × Stamp := if keyLe [tickOf a.2, a.1] [tickOf b.2, b.1] then a else b

/-- The second source (R83): the earliest event of a source other than the primary. -/
def wakeSecond (w : Wake) : Option (Nat × Stamp) :=
  if !w.decided then none
  else match w.cands.filter (fun c => c.1 != w.primary) with
  | [] => none
  | c :: r => some (r.foldl earlier c)

/-- The second source kept in the record (Tables MOD-15, MOD-16). -/
def noteSecond (w : Wake) : Wake :=
  match wakeSecond w with
  | some c => { w with second := c.1, t2 := c.2 }
  | none => w

/-- A wake event (R83, R91): recorded from the arming of the listeners until RUN. -/
def wakeEvent (src : Nat) (t : Stamp) (s : State) : State :=
  let w := s.sys.wake
  if !w.recording || !wakeEnabled s src || 31 < src then s
  else
    let w := { w with seen := Nat.lor w.seen (2 ^ src), cands := w.cands ++ [(src, t)] }
    { s with sys.wake := noteSecond w }

/-- The wake decision (R83 to R86, R68): where a candidate is past the horizon and the entry is complete, the least by (tick, code) is primary; its pulse starts unless it is the host resume; BUILD follows with SYS.RSTCAUSE at WAKE. -/
def wakeDecide (s : State) : State :=
  let w := s.sys.wake
  if s.sys.mode ≠ .standby ∨ s.sys.entering ∨ w.decided ∨ !w.recording then s
  else if !(w.cands.any (fun c => decide (tickOf c.2 + 2 ≤ sysTick s))) then s
  else match w.cands with
  | [] => s
  | c :: r =>
    let p := r.foldl earlier c
    let fec := s.h.listeners
    let pulse := fieldOf s 0x20 8 8
    let w := noteSecond { w with decided := true, armed := false, primary := p.1, t1 := p.2,
                                 pulse := if p.1 = 0 then w.pulse else some (s.time.now + pulse * 100000),
                                 out := w.out || p.1 != 0 }
    let s := reinitHost s
    modePins { s with sys.wake := w, sys.mode := .build, sys.rstCause := causeWake, sys.buildAt := s.time.now,
                      h.listeners := fec.map (fun l => { l with armed := false }) }

/-- A WAKE_OUT pulse ends (R86). -/
def pulseEnd (s : State) : State :=
  match s.sys.wake.pulse with
  | some t => if t ≤ s.time.now then { s with sys.wake.pulse := none, sys.wake.out := false } else s
  | none => s

/-- The recording ends at RUN entry (R88). -/
def wakeStop (s : State) : State := { s with sys.wake.recording := false }

/-- The status that answers a RESUME (R87, R217): ACCEPTED where it is, or will be, the primary source. -/
def resumeStatus (t : Stamp) (s : State) : Nat :=
  let w := s.sys.wake
  match s.sys.mode with
  | .standby =>
    if w.decided then 0x11
    else
      let all := w.cands ++ [(0, t)]
      (match all with
       | [] => 0x12
       | c :: r => if (r.foldl earlier c).1 = 0 then 0x10 else 0x11)
  | .build => if w.recording && w.decided then 0x11 else 0x12
  | _ => 0x12

end Sys2Proof.Machine
end

