-- ==== Sys2Proof/Machine/Power.lean ====
section
/-! DEFINITION. The power-budget arbiters of the two dies (chapter 20). -/

namespace Sys2Proof.Machine

open Sys2Proof

/-- The arbiter of a die. -/
def arbOf (s : State) (field : Bool) : Arbiter := if field then s.f.arb else s.h.arb

/-- The state with an arbiter replaced. -/
def setArb (field : Bool) (a : Arbiter) (s : State) : State :=
  if field then { s with f.arb := a } else { s with h.arb := a }

/-- The register that holds COST, PRIO and TIMEOUT of a kind (Tables PWR-10, PWR-14). -/
def kindReg (field : Bool) (k : Nat) : Nat := if field then 0x820C00 + 4 * k else 0x20010 + 4 * (k - 1)

/-- COST, PRIO and TIMEOUT of a kind. -/
def budCost (s : State) (field : Bool) (k : Nat) : Nat := fieldOf s (kindReg field k) 0 10
@[inherit_doc budCost] def budPrio (s : State) (field : Bool) (k : Nat) : Nat := fieldOf s (kindReg field k) 12 3
@[inherit_doc budCost] def budTimeout (s : State) (field : Bool) (k : Nat) : Nat := fieldOf s (kindReg field k) 16 16

/-- The limit in force. -/
def budLimit (s : State) (field : Bool) : Nat := if field then fieldOf s 0x820C00 0 10 else fieldOf s 0x20004 0 10

/-- The counters of a die's arbiter (Tables PWR-12, PWR-14). -/
def budCnt (field : Bool) : Nat := if field then 0x820C0C else 0x20034

/-- Only the long LME job is a shared kind (Table PWR-5). -/
def budShared (field : Bool) (k : Nat) : Bool := !field && k == 1

/-- The units charged to held grants. -/
def inUse (a : Arbiter) : Nat := a.held.foldl (fun n g => n + g.charge) 0

/-- PWR.PEAK raised to the present count (R850). -/
def notePeak (field : Bool) (s : State) : State :=
  if field then s
  else if fieldOf s 0x20038 0 10 < inUse s.h.arb then setField s 0x20038 0 10 (inUse s.h.arb) else s

/-- A request of a kind and instance, with the stamp of its event (R844); one request or grant of each at a time. -/
def askLeave (field : Bool) (kind inst : Nat) (stamp : Stamp) (s : State) : State :=
  let a := arbOf s field
  if a.q.any (fun b => b.kind == kind && b.inst == inst) then s
  else setArb field { a with q := a.q ++ [⟨kind, inst, stamp, 0⟩] } s

/-- A grant to be released at the commit of the present tick (R845 step 1). -/
def giveLeave (field : Bool) (kind inst : Nat) (s : State) : State :=
  let a := arbOf s field
  setArb field { a with release := a.release ++ [(kind, inst)] } s

/-- A request to be withdrawn at the commit of the present tick (R845 step 1, R852). -/
def dropLeave (field : Bool) (kind inst : Nat) (s : State) : State :=
  let a := arbOf s field
  setArb field { a with withdraw := a.withdraw ++ [(kind, inst)] } s

/-- Whether a grant is held. -/
def holdsLeave (s : State) (field : Bool) (kind inst : Nat) : Bool :=
  (arbOf s field).held.any (fun b => b.kind == kind && b.inst == inst)

/-- One grant released: the units of a shared kind pass to another grant of it while one is held (R840). -/
def releaseOne (field : Bool) (a : Arbiter) (k : Nat × Nat) : Arbiter :=
  match a.held.find? (fun b => b.kind == k.1 && b.inst == k.2) with
  | none => a
  | some g =>
    let rest := a.held.filter (fun b => !(b.kind == k.1 && b.inst == k.2))
    match rest.findIdx? (fun b => b.kind == k.1) with
    | some i => if budShared field k.1 then { a with held := updNth rest i (fun b => { b with charge := max b.charge g.charge }) } else { a with held := rest }
    | none => { a with held := rest }

/-- Step 1 of R845: releases, then withdrawals. -/
def budStep1 (field : Bool) (s : State) : State :=
  let a := arbOf s field
  let a' := a.release.foldl (releaseOne field) a
  let gone := fun (b : Bud) => a.withdraw.any (fun w => w.1 == b.kind && w.2 == b.inst)
  setArb field { a' with q := a'.q.filter (fun b => !gone b), release := [], withdraw := [] } s

/-- Whether a request is past its TIMEOUT at the commit of tick j (R845 step 2). -/
def budExpired (s : State) (field : Bool) (j : Nat) (b : Bud) : Bool :=
  decide (tickOf b.stamp + msTicks (budTimeout s field b.kind) < j)

/-- The tick the arbiter of a die commits at present. -/
def budTick (s : State) (field : Bool) : Nat := tickOf (dieNow s field)

/-- The request that times out, if any: removed and counted. -/
def budTimeoutOne (field : Bool) (s : State) : Option (Bud × State) :=
  let a := arbOf s field
  match a.q.find? (budExpired s field (budTick s field)) with
  | none => none
  | some b =>
    some (b, bump (setArb field { a with q := a.q.filter (fun x => !(x.kind == b.kind && x.inst == b.inst)) } s) (budCnt field) 16 16 1)

/-- The order of step 3: descending PRIO, then tick, kind and instance. -/
def budKey (s : State) (field : Bool) (b : Bud) : List Nat := [7 - budPrio s field b.kind, tickOf b.stamp, b.kind, b.inst]

/-- The first request in the order of step 3, granted where it fits under the limit (R845 step 3: no overtaking). -/
def budGrantOne (field : Bool) (s : State) : Option (Bud × State) :=
  let a := arbOf s field
  match sortBy (budKey s field) (a.q.filter (fun b => decide (tickOf b.stamp ≤ budTick s field))) with
  | [] => none
  | b :: _ =>
    let c := if budShared field b.kind && a.held.any (fun x => x.kind == b.kind) then 0 else budCost s field b.kind
    if budLimit s field < inUse a + c then none
    else
      let a := { a with q := a.q.filter (fun x => !(x.kind == b.kind && x.inst == b.inst)), held := a.held ++ [{ b with charge := c }] }
      let s := notePeak field (bump (setArb field a s) (budCnt field) 0 16 1)
      let us := (dieNow s field - b.stamp) / 1000
      let s := if !field && decide (reg s 0x2003C < us) then setReg s 0x2003C (min us 0xFFFFFFFF) else s
      some (b, s)

/-- PWR.HELD: the grants held of each kind (Table PWR-11). -/
def heldWord (a : Arbiter) : Nat :=
  (List.range 8).foldl (fun n k => if k = 0 then n else n + min 15 ((a.held.filter (fun b => b.kind == k)).length) * 16 ^ k) 0

end Sys2Proof.Machine
end

