-- ==== Sys2Proof/Machine/Repair.lean ====
section
/-! DEFINITION. Islands, duties, replay, REPAIR and ISOLATE, defect maps, the shed cycle and returns to service (chapter 19). -/

namespace Sys2Proof.Machine

open Sys2Proof

/-! ## Kinds and islands (Tables REP-1, REP-2) -/

/-- Whether a kind stands on the field die. -/
def fieldKind (k : Nat) : Bool := decide (0x20 ≤ k) && decide (k < 0x30)

/-- The repair controller of a kind's die. -/
def repOf (s : State) (kind : Nat) : Repair := if fieldKind kind then s.f.rep else s.h.rep

/-- The state with the controller of a kind's die replaced. -/
def setRep (kind : Nat) (r : Repair) (s : State) : State :=
  if fieldKind kind then { s with f.rep := r } else { s with h.rep := r }

/-- Duties and physical islands of a kind (Table REP-1). -/
def kindSize (k : Nat) : Nat × Nat :=
  match k with
  | 0x00 => (1, 2) | 0x01 => (2, 3) | 0x02 => (4, 5) | 0x03 => (6, 7) | 0x04 => (6, 6) | 0x05 => (24, 25)
  | 0x06 => (8, 9) | 0x07 => (16, 18) | 0x08 => (16, 17) | 0x09 => (16, 17) | 0x0A => (16, 17) | 0x0B => (1, 2)
  | 0x0C => (4, 5) | 0x0D => (4, 5) | 0x0E => (2, 3) | 0x0F => (1, 2) | 0x10 => (4, 5) | 0x11 => (1, 1)
  | 0x20 => (8, 9) | 0x21 => (3, 4) | 0x22 => (8, 9) | 0x30 => (4, 6) | 0x31 => (4, 6)
  | _ => (0, 0)

/-- Kinds with spares, to which ISLAND_MAP applies (R792). -/
def mapKinds : List Nat := [0x00, 0x01, 0x02, 0x03, 0x05, 0x06, 0x07, 0x08, 0x09, 0x0A, 0x0B, 0x0C, 0x0D, 0x0E, 0x0F, 0x10, 0x20, 0x21, 0x22, 0x30, 0x31]

/-- The check source of a kind. -/
def checkSrc (k : Nat) : Nat := if k ≤ 0x11 then 0x90 + k else if fieldKind k then 0x100 + k else if k = 0x30 then 0x116 else 0x054

/-- Kinds that replay from a checkpoint (Table REP-3). -/
def replays (k : Nat) : Bool := [0x07, 0x08, 0x09, 0x0A, 0x10, 0x22].contains k

/-- The island of a code; an island the controller does not list is OUT of its map. -/
def islandOf (s : State) (code : Nat) : Island := KMap.getD (repOf s (code / 256)).islands code ⟨2, 0xFF, 0⟩

/-- The state with an island replaced. -/
def setIsland (code : Nat) (i : Island) (s : State) : State :=
  let r := repOf s (code / 256)
  setRep (code / 256) { r with islands := KMap.put r.islands code i } s

/-- The island that serves a duty. -/
def servingIsland (s : State) (duty : Nat) : Option Nat :=
  ((repOf s (duty / 256)).islands.find? (fun e => e.1 / 256 == duty / 256 && e.2.role == 0 && e.2.duty == duty % 256)).map (fun e => e.1)

/-- The lowest-numbered RESERVE island of a kind. -/
def reserveOf (s : State) (kind : Nat) : Option Nat :=
  ((repOf s kind).islands.find? (fun e => e.1 / 256 == kind && e.2.role == 1)).map (fun e => e.1)

/-- Islands of a kind in a role. -/
def roleCount (s : State) (kind role : Nat) : Nat :=
  ((repOf s kind).islands.filter (fun e => e.1 / 256 == kind && e.2.role == role)).length

/-- A duty is out of service. -/
def dutyOut (s : State) (duty : Nat) : Bool := (repOf s (duty / 256)).out.contains duty

/-! ## Duties out of service (Table REP-4) -/

/-- The ports a duty's loss puts out of service (Table REP-4). -/
def dutyPorts (duty : Nat) : List Nat :=
  let k := duty / 256
  let d := duty % 256
  let run := fun (b n : Nat) => (List.range n).map (fun i => b + i)
  match k with
  | 0x01 => [d] | 0x02 => [2 + d] | 0x03 => [6 + d] | 0x04 => [6 + d]
  | 0x05 => [16 + d] | 0x06 => [48 + d] | 0x20 => [40 + d]
  | 0x07 => run (16 * d) 16 | 0x08 => run (16 * d) 16 | 0x0A => run (16 * d) 16
  | 0x0D => run (64 * d) 64
  | _ => []

/-- The ports out of service follow the duties out of service, those of the field die as it reported them; a port that goes out has its express queues purged (R326). -/
def refreshOut (s : State) : State :=
  let now := ((s.h.rep.out.flatMap dutyPorts).dedup).filter (fun p => !reservedPort p)
  let fresh := now.filter (fun p => !s.h.fab.outSvc.contains p)
  let mid := (s.h.rep.out.filter (fun d => d / 256 == 0x09)).map (fun d => d % 256)
  let s := { s with h.fab.outSvc := now, h.fab.midOut := mid }
  fresh.foldl (fun s p => expressPurge p s) s

/-- Whether the pipelines or ingress stages of a port are out, so that its ingress events are dropped and counted (Table REP-4). -/
def ingressOut (s : State) (port : Nat) : Bool :=
  s.h.rep.out.any (fun d => (d / 256 == 0x07 || d / 256 == 0x08) && d % 256 == port / 16 || d / 256 == 0x0D && d % 256 == port / 64)

/-- The measurement channels of a field duty: those of a converter, or of a filter island. -/
def dutyChannels (s : State) (duty : Nat) : List Nat :=
  let rs := match s.f.sects.find? (fun c => c.typ == 6 && c.inst == 0) with | some c => c.recs | none => []
  let chs := rs.map (fun r => (fieldLE r 0 1, fieldLE r 9 1))
  if duty / 256 = 0x21 then (chs.filter (fun p => p.2 == duty % 256)).map (fun p => p.1)
  else if duty / 256 = 0x22 then (chs.filter (fun p => p.1 / 16 == duty % 256)).map (fun p => p.1)
  else []

/-- Channels stopped, their open windows discarded (Table REP-4). -/
def stopChannels (chs : List Nat) (m : Meas) : Meas :=
  { m with chans := m.chans.map (fun e => if chs.contains e.1 then (e.1, { e.2 with run := false, outs := 0, count := 0, nsamp := 0, excl := 0, flags := 0 }) else e) }

/-- A duty put out of service (R805, R806). -/
def putOut (duty origin : Nat) (s : State) : State :=
  let r := repOf s (duty / 256)
  if r.out.contains duty then s
  else
    let s := setRep (duty / 256) { r with out := r.out ++ [duty] } s
    let s := if s.sys.mode = .run ∧ !fieldKind (duty / 256) then { s with sys.degOrigin := origin } else s
    let s := refreshOut s
    match duty / 256 with
    | 0x00 => hostReset causeClkMon s
    | 0x0B => allPorts.foldl (fun s p => expressPurge p s) s
    | 0x0C => raise 0x050 0 s
    | 0x11 => { s with h.meas := stopChannels (List.range 16) s.h.meas }
    | 0x21 => { s with f.meas := stopChannels (dutyChannels s duty) s.f.meas }
    | 0x22 => { s with f.meas := stopChannels (dutyChannels s duty) s.f.meas }
    | _ => s

/-- The host die's view of a field duty changed by a swap report (R804): out of service where no island takes over, in service otherwise. -/
def mirrorSwap (duty taking : Nat) (s : State) : State :=
  let out := s.h.rep.out.filter (fun d => d != duty)
  refreshOut { s with h.rep.out := if taking = 0xFFFF then out ++ [duty] else out, sys.degOrigin := 7 }

/-- A duty back in service (R822). -/
def putBack (duty origin : Nat) (s : State) : State :=
  let r := repOf s (duty / 256)
  let s := setRep (duty / 256) { r with out := r.out.filter (fun d => d != duty) } s
  refreshOut (if s.sys.mode = .degraded then { s with sys.degOrigin := origin } else s)

/-! ## Moves (R797, R802 to R804) -/

/-- A change of the serving island recorded (R804): the host die's own EVENT entry, or a JOURNAL message of the field die. 0xFFFF stands for no island. -/
def swapEvent (stamp : Stamp) (duty leaving taking : Nat) (s : State) : State :=
  if fieldKind (duty / 256) then fieldJournal stamp (0xFFFF0000 + duty) (leaving * 65536 + taking) 7 0 s
  else
    let s := if taking = 0xFFFF then s else bump s 0x6001C 16 16 1
    jChange stamp 7 [(5, 3, le 2 duty ++ le 2 leaving ++ le 2 taking ++ le 2 0)] s

/-- What the takeover of a duty by its spare does to a frame or a job of it (Table REP-3, R427, R590, R801). -/
def takeover (duty : Nat) (s : State) : State :=
  let d := duty % 256
  match duty / 256 with
  | 0x01 => if (KMap.get? s.h.fab.txing d).isSome then bump s 0x60020 0 16 1 else s
  | 0x02 => if (KMap.get? s.h.fab.txing (2 + d)).isSome then bump s 0x60020 0 16 1 else s
  | 0x03 => if (KMap.get? s.h.fab.txing (6 + d)).isSome then bump s 0x60020 0 16 1 else s
  | 0x05 => if (canOf s d).wire.isSome then canAttemptOver d (bump s (canReg d 0x34) 16 16 1) else s
  | 0x20 => if (canOf s (24 + d)).wire.isSome then canAttemptOver (24 + d) (bump s (canReg (24 + d) 0x34) 16 16 1) else s
  | 0x06 =>
    if (linOf s d).header.isSome then setLin (bump s (linReg d 0x10) 16 16 1) d { linOf s d with header := none } else s
  | _ => s

/-- The engine kinds of SP jobs: island kind to engine number of a job. -/
def kindEngine (k : Nat) : Option Nat := match k with | 0x0D => some 2 | 0x0E => some 3 | 0x0F => some 1 | _ => none

/-- Jobs that an engine held run again from their start after a fault's move (R590): each is counted, keeps its context and loses its progress. -/
def rerunJobs (duty : Nat) (s : State) : State :=
  match kindEngine (duty / 256) with
  | none => s
  | some e =>
    let mine := fun (j : SpJob) => j.engine == e && j.ctx.isSome && (e != 3 || (match j.ctx with | some c => c / 8 == duty % 256 | none => false))
    let n := (s.h.sp.jobs.filter mine).length
    let s := if e = 1 then { s with h.sp.lme := s.h.sp.lme.map (fun c => c.map (fun x => { x with acc := 0, issued := none })), h.sp.lmeRun := none } else s
    bump s 0x80004 24 8 n

/-- A duty moved to the lowest RESERVE island of its kind, or put out of service where there is none (R797 step 3, R802): the island that leaves takes a role with a cause. -/
def moveDuty (stamp : Stamp) (duty role cause origin : Nat) (s : State) : State :=
  if dutyOut s duty then s
  else
    let old := servingIsland s duty
    let left := old.getD 0xFFFF
    let s := match old with | some o => setIsland o ⟨role, 0xFF, cause⟩ s | none => s
    match reserveOf s (duty / 256) with
    | some t => takeover duty (swapEvent stamp duty left t (setIsland t ⟨0, duty % 256, 0⟩ s))
    | none => putOut duty origin (swapEvent stamp duty left 0xFFFF s)

/-! ## Defect maps (R807 to R809) -/

/-- An entry put into the ageing map at its lowest empty index, or counted where the map is full (R809). -/
def ageAdd (typ cause code index : Nat) (s : State) : State :=
  match (List.range 64).find? (fun i => (KMap.get? s.keeper.ageing i).isNone) with
  | none => bump s 0x60020 24 8 1
  | some i =>
    { s with keeper.ageing := KMap.put s.keeper.ageing i ([byte typ, byte cause] ++ le 2 code ++ le 2 index ++ le 2 0 ++ le 8 s.time.now) }

/-- An island marked DEFECTIVE with a cause, recorded in the ageing map (R797, R816). -/
def markDefective (code cause : Nat) (s : State) : State :=
  ageAdd 1 cause code 0 (setIsland code ⟨4, 0xFF, cause⟩ s)

/-- The entry of the defect maps at an index: 0 to 127 factory, 128 to 191 ageing (R807). -/
def defectEntry (s : State) (i : Nat) : Bytes :=
  if i < 128 then padTo 16 (nth s.otp.defects i []) else if i < 192 then padTo 16 (KMap.getD s.keeper.ageing (i - 128) []) else List.replicate 16 0

/-- Whether a defect map marks an island. -/
def mapDefect (s : State) (code : Nat) : Option Nat :=
  ((List.range 192).find? (fun i => fieldLE (defectEntry s i) 0 1 == 1 && fieldLE (defectEntry s i) 2 2 == code)).map
    (fun i => fieldLE (defectEntry s i) 1 1)

/-! ## Visits and returns (R814 to R827) -/

/-- A visit of a kind ends (R815 step 6, R858): leave is released, and the next visit waits INTERVAL ms from now. -/
def endVisit (field : Bool) (kind : Nat) (s : State) : State :=
  let k := if field then 0x20 else 0
  let r := repOf s k
  let s := setRep k { r with visit := none, lastEnd := dieNow s field } s
  if kind = 0x21 then s
  else if holdsLeave s field (if field then 1 else 2) kind then giveLeave field (if field then 1 else 2) kind s
  else dropLeave field (if field then 1 else 2) kind s

/-- A return ends with a result (R823). -/
def endReturn (field : Bool) (kind res : Nat) (s : State) : State :=
  let k := if field then 0x20 else 0
  let r := repOf s k
  let s := setRep k { r with ret := none, retRes := res } s
  if holdsLeave s field (if field then 1 else 2) kind then giveLeave field (if field then 1 else 2) kind s
  else dropLeave field (if field then 1 else 2) kind s

/-- A duty handed from one island to another in a visit or return (R815, R804): the island that leaves takes a role. -/
def handDuty (duty fromI toI role : Nat) (s : State) : State :=
  let d := duty % 256
  let s := setIsland toI ⟨0, d, 0⟩ (setIsland fromI ⟨role, if role = 6 then d else 0xFF, 0⟩ s)
  swapEvent (dieNow s (fieldKind (duty / 256))) duty fromI toI s

/-- A mismatch of a shadow (R816): the shadowing island is DEFECTIVE with CAUSE 3, the visit or return ends, and the kind's check source is raised. -/
def shadowMismatch (code : Nat) (s : State) : State :=
  let kind := code / 256
  let field := fieldKind kind
  let d := (islandOf s code).duty
  let s := raise (checkSrc kind) d (markDefective code 3 s)
  let r := repOf s kind
  match r.visit, r.ret with
  | some v, some w =>
    if v.kind = kind ∧ (v.spare = code ∨ v.freed = code) then endVisit field kind s
    else if w.kind = kind ∧ w.freed = code then endReturn field kind 3 s else s
  | some v, none => if v.kind = kind then endVisit field kind s else s
  | none, some w => if w.kind = kind then endReturn field kind 3 s else s
  | none, none => s

/-- A REPAIR of a duty (R802, R824, R825, R786). -/
def repairDuty (stamp : Stamp) (duty : Nat) (s : State) : State :=
  let kind := duty / 256
  let field := fieldKind kind
  if dutyOut s duty then s
  else match (repOf s kind).visit with
  | none => moveDuty stamp duty 3 0 6 s
  | some v =>
    if v.kind ≠ kind then moveDuty stamp duty 3 0 6 s
    else if v.duty = duty % 256 then
      if v.step ≤ 3 ∧ 2 ≤ v.step then
        -- the spare is SHADOW for this duty: it takes the duty now
        endVisit field kind (moveDuty stamp duty 3 0 6 (setIsland v.spare ⟨1, 0xFF, 0⟩ s))
      else if 4 ≤ v.step then
        -- the spare serves already: the island under test stays OUT
        endVisit field kind (setIsland v.freed ⟨3, 0xFF, 0⟩ s)
      else moveDuty stamp duty 3 0 6 (endVisit field kind s)
    else if (reserveOf s kind).isSome then moveDuty stamp duty 3 0 6 s
    else if 4 ≤ v.step then
      -- the kind's only spare serves another duty of the visit: that duty goes back to its own island
      let s := handDuty (kind * 256 + v.duty) v.spare v.freed 1 s
      moveDuty stamp duty 3 0 6 (endVisit field kind s)
    else if 2 ≤ v.step then moveDuty stamp duty 3 0 6 (endVisit field kind (setIsland v.spare ⟨1, 0xFF, 0⟩ s))
    else moveDuty stamp duty 3 0 6 s

/-- An ISOLATE of a duty (R803): its island is OUT and the duty out of service. -/
def isolateDuty (stamp : Stamp) (duty : Nat) (s : State) : State :=
  if dutyOut s duty then s
  else
    let old := servingIsland s duty
    let s := match old with | some o => setIsland o ⟨3, 0xFF, 0⟩ s | none => s
    putOut duty 6 (swapEvent stamp duty (old.getD 0xFFFF) 0xFFFF s)

/-- The built-in action of an island-check event (R794, R797, R800, R816, R827): `again` tells that the duty's replay had not caught up. -/
def islandCheck (code : Nat) (again : Bool) (s : State) : State :=
  let kind := code / 256
  let i := islandOf s code
  let r := repOf s kind
  if i.role = 5 then shadowMismatch code s
  else if i.role ≠ 0 then raise (checkSrc kind) i.duty s
  else
    let duty := kind * 256 + i.duty
    let s := raise (checkSrc kind) i.duty s
    if replays kind then
      if again ∧ r.replay.contains duty then
        let s := setRep kind { repOf s kind with replay := r.replay.filter (fun d => d != duty) } s
        moveDuty (dieNow s (fieldKind kind)) duty 4 1 7 (ageAdd 1 1 code 0 s)
      else
        setRep kind { repOf s kind with replay := (if r.replay.contains duty then r.replay else r.replay ++ [duty]) } (bump s 0x6001C 0 16 1)
    else if kind = 0x04 ∨ kind = 0x11 then
      putOut duty 7 (swapEvent (dieNow s (fieldKind kind)) duty code 0xFFFF (setIsland code ⟨3, 0xFF, 0⟩ s))
    else moveDuty (dieNow s (fieldKind kind)) duty 3 0 7 (rerunJobs duty s)

/-- Kinds the shed cycle never visits (R814). -/
def neverVisited (k : Nat) : Bool := k == 0x04 || k == 0x11 || k == 0x30 || k == 0x31

/-- The duties a die's shed cycle may visit now, in rotation order (R814). -/
def visitable (s : State) (field : Bool) : List Nat :=
  ((mapKinds.filter (fun k => fieldKind k == field && (reserveOf s k).isSome)).flatMap
    (fun k => (List.range (kindSize k).1).map (fun d => k * 256 + d))).filter (fun d => (servingIsland s d).isSome)

/-- The duty visited next: the one asked for, else the next of the rotation. -/
def nextVisit (s : State) (field : Bool) : Option Nat :=
  let r := repOf s (if field then 0x20 else 0)
  let all := visitable s field
  match r.asked with
  | some (k, d) => if all.contains (k * 256 + d) then some (k * 256 + d) else (all.filter (fun x => decide (r.rotation < x))).head?.or all.head?
  | none => (all.filter (fun x => decide (r.rotation < x))).head?.or all.head?

/-- A visit starts (R814, R815 step 1, R818): INTERVAL ms after the last one, with a request for leave; a visit to a converter is a request for its calibration (R669). -/
def visitStart (field : Bool) (s : State) : State :=
  let k0 := if field then 0x20 else 0
  let r := repOf s k0
  let on := bit (reg s 0x60004) 0 && (if field then s.f.state == .frun else s.sys.mode.live)
  let due := decide (r.lastEnd + fieldOf s 0x60004 4 12 * 1000000 ≤ dieNow s field)
  if !on || r.visit.isSome || !due then s
  else match nextVisit s field with
  | none => s
  | some duty =>
    let kind := duty / 256
    let d := duty % 256
    let r := { r with visit := some ⟨kind, d, 1, 0, 0, 0⟩, shedKind := kind, shedDuty := d,
                      asked := none, rotation := if r.asked = some (kind, d) then r.rotation else duty }
    let s := setRep k0 r s
    if kind = 0x21 then { s with f.meas.calReq := if s.f.meas.calReq.contains d then s.f.meas.calReq else s.f.meas.calReq ++ [d] }
    else askLeave field (if field then 1 else 2) kind (dieNow s field) s

/-- A visit changed to another step. -/
def setVisit (field : Bool) (v : Visit) (s : State) : State :=
  let k := if field then 0x20 else 0
  setRep k { repOf s k with visit := some v } s

/-- A return changed to another step. -/
def setReturn (field : Bool) (v : Visit) (s : State) : State :=
  let k := if field then 0x20 else 0
  setRep k { repOf s k with ret := some v } s

/-- The length of a shadow in ticks (R815, R820). -/
def shadowTicks (s : State) : Nat := fieldOf s 0x60004 24 8 * 64

/-- Kinds whose visits move without shadowing (R818). -/
def noShadow (k : Nat) : Bool := k == 0x0D || k == 0x0E || k == 0x0F

/-- Leave granted to a visit or a return (R815 step 2, R821). -/
def visitGranted (field : Bool) (kind : Nat) (s : State) : State :=
  let r := repOf s (if field then 0x20 else 0)
  match r.visit with
  | some v =>
    if v.kind = kind ∧ v.step = 1 then
      match reserveOf s kind with
      | none => endVisit field kind s
      | some sp =>
        if noShadow kind then setVisit field { v with step := 3, spare := sp } s
        else setVisit field { v with step := 2, spare := sp, shadowEnd := tickOf (dieNow s field) + shadowTicks s } (setIsland sp ⟨5, v.duty, 0⟩ s)
    else s
  | none =>
    match r.ret with
    | some v => if v.kind = kind ∧ v.step = 1 then setReturn field { v with step := 4 } (setIsland v.freed ⟨6, v.duty, 0⟩ s) else s
    | none => s

/-- Leave refused to a visit or a return (Table PWR-6). -/
def visitRefused (field : Bool) (kind : Nat) (s : State) : State :=
  let r := repOf s (if field then 0x20 else 0)
  match r.visit with
  | some v =>
    if v.kind = kind ∧ v.step = 1 then endVisit field kind (bump s 0x60020 16 8 1)
    else (match r.ret with | some w => if w.kind = kind then endReturn field kind 4 s else s | none => s)
  | none => (match r.ret with | some w => if w.kind = kind then endReturn field kind 4 s else s | none => s)

/-- A shadow of a visit or return ends without mismatch (R815, R821): the next handover point is awaited. -/
def shadowEnd (field : Bool) (s : State) : State :=
  let r := repOf s (if field then 0x20 else 0)
  let now := tickOf (dieNow s field)
  match r.visit with
  | some v =>
    if v.step = 2 ∧ v.shadowEnd ≤ now then setVisit field { v with step := 3 } s
    else if v.step = 5 ∧ v.shadowEnd ≤ now then setVisit field { v with step := 6 } s
    else s
  | none =>
    match r.ret with
    | some v => if v.step = 5 ∧ v.shadowEnd ≤ now then setReturn field { v with step := 6 } s else s
    | none => s

/-- Whether a handover point of a kind stands (R426, R447): for a CAN duty, the bus is idle and the controller neither stopped nor recovering. -/
def handoverPoint (s : State) (duty : Nat) : Bool :=
  match duty / 256 with
  | 0x05 => (canOf s (duty % 256)).wire.isNone && canActive (canOf s (duty % 256))
  | 0x20 => (canOf s (24 + duty % 256)).wire.isNone && canActive (canOf s (24 + duty % 256))
  | 0x01 => (KMap.get? s.h.fab.txing (duty % 256)).isNone
  | 0x02 => (KMap.get? s.h.fab.txing (2 + duty % 256)).isNone
  | 0x03 => (KMap.get? s.h.fab.txing (6 + duty % 256)).isNone
  | 0x06 => (linOf s (duty % 256)).header.isNone
  | _ => true

/-- The handover of a visit (R815 step 3): the spare takes the duty and the freed island enters TEST. -/
def visitHandover (field : Bool) (s : State) : State :=
  match (repOf s (if field then 0x20 else 0)).visit with
  | none => s
  | some v =>
    let duty := v.kind * 256 + v.duty
    if v.step ≠ 3 ∨ !handoverPoint s duty then s
    else match servingIsland s duty with
    | none => s
    | some old => setVisit field { v with step := 4, freed := old } (handDuty duty old v.spare 6 s)

/-- The self-test of a freed or returning island ends (R815 steps 4 and 5, R816, R821). -/
def selftestDone (field pass : Bool) (s : State) : State :=
  let r := repOf s (if field then 0x20 else 0)
  let t := tickOf (dieNow s field) + shadowTicks s
  match r.visit with
  | some v =>
    if v.step ≠ 4 then s
    else if !pass then endVisit field v.kind (raise (checkSrc v.kind) v.duty (markDefective v.freed 2 s))
    else if noShadow v.kind then setVisit field { v with step := 6 } s
    else setVisit field { v with step := 5, shadowEnd := t } (setIsland v.freed ⟨5, v.duty, 0⟩ s)
  | none =>
    match r.ret with
    | some v =>
      if v.step ≠ 4 then s
      else if !pass then endReturn field v.kind 2 (raise (checkSrc v.kind) v.duty (markDefective v.freed 2 s))
      else if v.spare ≠ 0 ∧ !noShadow v.kind then setReturn field { v with step := 5, shadowEnd := t } (setIsland v.freed ⟨5, v.duty, 0⟩ s)
      else setReturn field { v with step := 6 } (if v.spare ≠ 0 then s else setIsland v.freed ⟨1, 0xFF, 0⟩ s)
    | none => s

/-- The handback of a visit (R815 steps 5 and 6). -/
def visitHandback (field : Bool) (s : State) : State :=
  match (repOf s (if field then 0x20 else 0)).visit with
  | none => s
  | some v =>
    let duty := v.kind * 256 + v.duty
    if v.step ≠ 6 ∨ !handoverPoint s duty then s
    else endVisit field v.kind (handDuty duty v.spare v.freed 1 s)

/-- No handover point within WAITMS (R817): the visit is deferred to the next round and counted; islands that do not serve stand in reserve. -/
def visitDefer (field : Bool) (s : State) : State :=
  match (repOf s (if field then 0x20 else 0)).visit with
  | none => s
  | some v =>
    if (v.step = 3 ∨ v.step = 6) ∧ v.shadowEnd + msTicks (fieldOf s 0x60004 16 8) ≤ tickOf (dieNow s field) then
      let idle := if v.step = 3 then v.spare else v.freed
      endVisit field v.kind (bump (setIsland idle ⟨1, 0xFF, 0⟩ s) 0x60020 16 8 1)
    else s

/-- A write of REP.RETCTL with GO 1 (R821, R823): where a visit or a return holds the kind the answer is BUSY; else the island's return asks leave. -/
def returnStart (code : Nat) (s : State) : State :=
  let kind := code / 256
  let field := fieldKind kind
  let k0 := if field then 0x20 else 0
  let r := repOf s k0
  let busy := r.ret.isSome || (match r.visit with | some v => v.kind == kind | none => false)
  if busy then setRep k0 { r with retRes := 5 } s
  else
    -- the island's former duty, where a spare serves it
    let last := (List.range (kindSize kind).1).find? (fun d => match servingIsland s (kind * 256 + d) with
      | some i => i != code && decide ((kindSize kind).1 ≤ i % 256)
      | none => false)
    let v : Visit := ⟨kind, last.getD 0, 1, (match last with | some d => (servingIsland s (kind * 256 + d)).getD 0 | none => 0), code, 0⟩
    askLeave field (if field then 1 else 2) kind (dieNow s field) (setRep k0 { r with ret := some v, retRes := 0 } s)

/-- A return completes (R821 to R823): the island takes its duty from the spare, or takes the first duty of its kind that is out of service, or stands in reserve. -/
def returnComplete (field : Bool) (s : State) : State :=
  match (repOf s (if field then 0x20 else 0)).ret with
  | none => s
  | some v =>
    let duty := v.kind * 256 + v.duty
    if v.step ≠ 6 then s
    else if v.spare ≠ 0 then
      if handoverPoint s duty then endReturn field v.kind 1 (handDuty duty v.spare v.freed 1 s) else s
    else
      match ((repOf s v.kind).out.filter (fun d => d / 256 == v.kind)).foldl (fun (m : Option Nat) d => minOpt m (some d)) none with
      | some d =>
        endReturn field v.kind 1 (putBack d 7 (swapEvent (dieNow s field) d 0xFFFF v.freed (setIsland v.freed ⟨0, d % 256, 0⟩ s)))
      | none => endReturn field v.kind 1 s

/-- A Tahr link loss ends the field die's visit and return in progress (R832): a spare that only shadowed is in reserve again, and an island under test or not yet returned is OUT (log entry 18). -/
def endFieldWork (s : State) : State :=
  let s := match (repOf s 0x20).visit with
    | none => s
    | some v =>
      endVisit true v.kind (if 4 ≤ v.step then setIsland v.freed ⟨3, 0xFF, 0⟩ s
        else if v.step = 2 ∨ (v.step = 3 ∧ !noShadow v.kind) then setIsland v.spare ⟨1, 0xFF, 0⟩ s else s)
  match (repOf s 0x20).ret with
  | none => s
  | some v => endReturn true v.kind 0 (setIsland v.freed ⟨3, 0xFF, 0⟩ s)

/-! ## SRAM (R811 to R813) -/

/-- A corrected error of a row (R811, R812): its source is raised, and a second one within 1 s asks for the row's replacement. -/
def sramCorrected (field : Bool) (arr row : Nat) (s : State) : State :=
  let k0 := if field then 0x20 else 0
  let s := raise (if field then 0x123 else 0x0A2) 0 s
  let r := repOf s k0
  let key := arr * 512 + row
  let now := dieNow s field
  match KMap.get? r.rowErr key with
  | some t => if now < t + 1000000000 then setRep k0 { r with rowErr := KMap.del r.rowErr key, rowPend := r.rowPend ++ [(arr, row)] } s
              else setRep k0 { r with rowErr := KMap.put r.rowErr key now } s
  | none => setRep k0 { r with rowErr := KMap.put r.rowErr key now } s

/-- A row replaced by a spare row, with its ageing entry of CAUSE 4; with no spare row left the row stays in use (R812). -/
def sramReplace (field : Bool) (s : State) : State :=
  let k0 := if field then 0x20 else 0
  let r := repOf s k0
  match r.rowPend with
  | [] => s
  | (arr, row) :: rest =>
    let used := KMap.getD r.rowsUsed arr 0
    if 8 ≤ used then setRep k0 { r with rowPend := rest } s
    else ageAdd 2 4 arr row (setRep k0 { r with rowPend := rest, rowsUsed := KMap.put r.rowsUsed arr (used + 1) } s)

/-- An island's role as REP.IINFO shows it (R793). A Tahr lane is OUT once its receiver has retired it; of the others the lowest-numbered four are active (R598, R602), and what the map excludes or marks defective stays so (log entry 18). -/
def islandView (s : State) (code : Nat) : Island :=
  let i := islandOf s code
  let k := code / 256
  if (k ≠ 0x30 ∧ k ≠ 0x31) ∨ i.role = 2 ∨ i.role = 4 then i
  else
    let e := if k = 0x30 then s.f.fe else s.h.tahr.fe
    let rank := ((List.range (code % 256)).filter (fun l => !bit e.retired l)).length
    if bit e.retired (code % 256) then ⟨3, 0xFF, 0⟩ else if rank < 4 then ⟨0, rank, 0⟩ else ⟨1, 0xFF, 0⟩

/-- REP.KSTAT of a kind (Table REP-13). -/
def kindStat (s : State) (k : Nat) : Nat :=
  if k = 0x30 ∨ k = 0x31 then
    let n := fun (role : Nat) => ((List.range 6).filter (fun l => (islandView s (k * 256 + l)).role == role)).length
    n 0 + 2 ^ 8 * n 1 + 2 ^ 16 * (4 - n 0) + 2 ^ 24 * n 4
  else
    roleCount s k 0 + 2 ^ 8 * roleCount s k 1 +
    2 ^ 16 * ((repOf s k).out.filter (fun d => d / 256 == k)).length + 2 ^ 24 * roleCount s k 4

/-- A duty's islands after a reset or an entry into STANDBY are rebuilt by BUILD (R830): the roles of an ISLAND_MAP with the defect maps applied (R110, R125). -/
def mapIslands (s : State) (rs : List Bytes) (field : Bool) : KMap Island × List Nat :=
  let mine := rs.filter (fun r => fieldKind (fieldLE r 2 2 / 256) == field)
  let m : KMap Island := mine.foldl (fun m r =>
    let code := fieldLE r 2 2
    let role := fieldLE r 4 1
    match mapDefect s code with
    | some c => if role = 2 then KMap.put m code ⟨2, 0xFF, 0⟩ else KMap.put m code ⟨4, 0xFF, c⟩
    | none => KMap.put m code ⟨role, if role = 0 then fieldLE r 0 2 % 256 else 0xFF, 0⟩) []
  let fixed := if field then [] else ((List.range 6).map (fun d => 0x400 + d)) ++ [0x1100]
  let m := fixed.foldl (fun m c => match mapDefect s c with
    | some x => KMap.put m c ⟨4, 0xFF, x⟩
    | none => KMap.put m c ⟨0, c % 256, 0⟩) m
  let duties := (mine.filter (fun r => fieldLE r 4 1 == 0)).map (fun r => fieldLE r 0 2)
  let gone := fixed.filter (fun c => (mapDefect s c).isSome)
  duties.foldl (fun (acc : KMap Island × List Nat) d =>
    let (m, out) := acc
    if m.any (fun e => e.1 / 256 == d / 256 && e.2.role == 0 && e.2.duty == d % 256) then acc
    else match m.find? (fun e => e.1 / 256 == d / 256 && e.2.role == 1) with
    | some e => (KMap.put m e.1 ⟨0, d % 256, 0⟩, out)
    | none => (m, out ++ [d])) (m, gone)

end Sys2Proof.Machine
end

