-- ==== Sys2Proof/Machine/Meas.lean ====
section
/-! DEFINITION. Measurement: sinc filters, accumulators, trackers, mains tracking, records, calibration and touch channels (chapter 15). -/

namespace Sys2Proof.Machine

open Sys2Proof

/-! ## Channels and their sequences (R641 to R644) -/

/-- A cluster's state: the field die's, or the host sense converter's. -/
def measOf (s : State) (host : Bool) : Meas := if host then s.h.meas else s.f.meas

/-- The state with a cluster replaced. -/
def setMeas (host : Bool) (m : Meas) (s : State) : State := if host then { s with h.meas := m } else { s with f.meas := m }

/-- The MEAS_GRAPH records of a cluster. -/
def measGraph (s : State) (host : Bool) : List Bytes :=
  if host then recs s 6 1
  else match s.f.sects.find? (fun c => c.typ == 6 && c.inst == 0) with | some c => c.recs | none => []

/-- The MEAS_GRAPH record of a channel. -/
def graphRec (s : State) (host : Bool) (ch : Nat) : Option Bytes := (measGraph s host).find? (fun r => fieldLE r 0 1 == ch)

/-- Numbers in ascending order without repeats. -/
def ascend (l : List Nat) : List Nat := sortBy (fun n => [n]) l.dedup

/-- The input sequence of a converter duty (R642). -/
def convSeq (s : State) (host : Bool) (d : Nat) : List Nat :=
  ascend (((measGraph s host).filter (fun r => fieldLE r 9 1 == d)).map (fun r => fieldLE r 1 1))

/-- PER of a converter duty. -/
def convPer (s : State) (host : Bool) (d : Nat) : Nat := if host then fieldOf s 0x580000 0 16 else fieldOf s (0x800000 + 4 * d) 0 16

/-- The address of CHCTL and CHWIN of a channel. -/
def chctlReg (host : Bool) (ch : Nat) : Nat := (if host then 0x580200 else 0x800200) + 4 * ch
@[inherit_doc chctlReg] def chwinReg (host : Bool) (ch : Nat) : Nat := (if host then 0x580240 else 0x800400) + 4 * ch

/-- The clock of a cluster. -/
def measNow (s : State) (host : Bool) : Stamp := dieNow s (!host)

/-- The stamp of a channel's sample in the first cycle that starts after an instant (R642 to R644), and the channel's sample period. -/
def nextCycle (s : State) (host : Bool) (r : Bytes) (t : Stamp) : Stamp × Nat :=
  let d := fieldLE r 9 1
  let q := convSeq s host d
  let per := convPer s host d
  let cyc := q.length * per
  let c := t / (max 1 cyc) + 1
  ((c * q.length + q.findIdx (fun i => i == fieldLE r 1 1)) * per, cyc)

/-- A channel as it starts (R644, R648): sample 0 in the next cycle, an event at sample 0, its L and WIN. -/
def freshChan (s : State) (host : Bool) (r : Bytes) (l : Nat) : MChan :=
  let (o, p) := nextCycle s host r (measNow s host)
  { run := true, origin := o, period := p, n := 0, l := l, fm := MFilt.reset, fs := MFilt.reset, fp := MFilt.reset,
    evAt := 0, lexcl := 0, outs := 0, count := 0, nsamp := 0, sum := 0, sumsq := 0, sumprod := 0, excl := 0, min := 0, max := 0,
    tmin := 0, tmax := 0, flags := 0, wseq := 0, open_ := o, win := reg s (chwinReg host (fieldLE r 0 1)) }

/-- A channel starts (R644). -/
def startChan (host : Bool) (ch : Nat) (s : State) : State :=
  match graphRec s host ch with
  | none => s
  | some r =>
    let m := measOf s host
    setMeas host { m with chans := KMap.put m.chans ch (freshChan s host r (fieldLE r 4 4)), last := KMap.del m.last ch } s

/-- A channel stops and its open window is discarded (R679). -/
def stopChan (host : Bool) (ch : Nat) (s : State) : State :=
  let m := measOf s host
  setMeas host { m with chans := KMap.del m.chans ch } s

/-- Every enabled channel of a cluster starts (R644). -/
def startAll (host : Bool) (s : State) : State :=
  (measGraph s host).foldl (fun s r => if bit (reg s (chctlReg host (fieldLE r 0 1))) 0 then startChan host (fieldLE r 0 1) s else s) s

/-- A write of CHCTL.EN (R644, R679). -/
def chctlEffect (host : Bool) (ch : Nat) (old new : Bool) (s : State) : State :=
  if new && !old then startChan host ch s else if old && !new then stopChan host ch s else s

/-! ## The sinc filter (R646, R647) -/

/-- Division rounded half up (R647), for a positive divisor. -/
def rdiv (a b : Int) : Int := Int.fdiv (2 * a + b) (2 * b)

/-- One sample through K integrators: the integrators after it. -/
def integStep : List Int → Int → List Int
  | [], _ => []
  | i :: r, u => (i + u) :: integStep r (i + u)

/-- The combs at an output: their stored inputs after it, and the output. -/
def combStep : List Int → Int → List Int × Int
  | [], c => ([], c)
  | p :: r, c => let (r', y) := combStep r (c - p); (c :: r', y)

/-- A filter of order K fed with the samples of one output: the filter after it and y (R646). -/
def filterRun (k : Nat) (f : MFilt) (us : List Int) : MFilt × Int :=
  let i0 := (f.integ ++ List.replicate k 0).take k
  let c0 := (f.comb ++ List.replicate k 0).take k
  let ig := us.foldl integStep i0
  let (cb, y) := combStep c0 (ig.getLastD 0)
  (⟨ig, cb⟩, y)

/-! ## Mains tracking (R652 to R654) -/

/-- One sample of the reference channel at the detector. -/
def mainsStep (ncyc hys : Nat) (m : Mains) (x : Int) : Mains :=
  let cross := decide ((hys : Int) ≤ x) && m.below
  { m with n := m.n + 1,
           cross := if cross then (m.n :: m.cross).take (ncyc + 1) else m.cross,
           below := if x ≤ -(hys : Int) then true else if (hys : Int) ≤ x then false else m.below }

/-- The successive intervals of crossings, newest first. -/
def intervals : List Nat → List Nat
  | a :: b :: r => (a - b) :: intervals (b :: r)
  | _ => []

/-- Whether the tracker is locked (R653). -/
def mainsLocked (s : State) : Bool :=
  let m := s.f.meas.mains
  let c := reg s 0x800018
  let p := reg s 0x80001C
  m.cross.length == bits c 8 4 + 1 &&
  (intervals m.cross).all (fun d => decide (bits p 0 16 ≤ d) && decide (d ≤ bits p 16 16)) &&
  (match m.cross with | x :: _ => decide (m.n - 1 - x ≤ bits p 16 16) | [] => false)

/-- L_new (R654). -/
def newL (s : State) : Nat :=
  let m := s.f.meas.mains
  let c := reg s 0x800018
  let d := m.cross.headD 0 - m.cross.getLastD 0
  min 65536 (max 16 (rdiv ((d * bits c 12 4 : Nat) : Int) ((max 1 (bits c 8 4) : Nat) : Int)).toNat)

/-! ## Outputs (R648 to R650, R656, R657) -/

/-- An output is excluded by a converter event at sample e (R648). -/
def evExcludes (e : Int) (b k l : Nat) : Bool := decide (e ≤ (b : Int)) && decide ((b : Int) < e + (k * l + 2 : Nat))

/-- A channel's next output from the samples it covers and those of its pair (R646 to R657): the channel after it, with y_main and whether the output was excluded. -/
def chanOutput (r : Bytes) (c : MChan) (pairEv : Option Int) (code : Int) (xs xps : List Int) : MChan × Int × Bool :=
  let k := fieldLE r 3 1
  let flags := fieldLE r 8 1
  let l := xs.length
  let last := c.n + l - 1
  let stamp := c.origin + last * c.period
  let (fm, y) := filterRun k c.fm xs
  let (fs, ys) := filterRun k c.fs (xs.map (fun x => x * x))
  let (fp, yp) := filterRun k c.fp (List.zipWith (fun x p => x * p) xs xps)
  let ex := evExcludes c.evAt last k l || decide (0 < c.lexcl) ||
    (match pairEv with | some e => evExcludes e last k l | none => false)
  let here := decide ((c.n : Int) ≤ c.evAt) && decide (c.evAt ≤ (last : Int))
  let clip := xs.any (fun x => decide (x ≤ -code) || decide (code - 1 ≤ x))
  let f := c.flags
  let f := if clip then putBits f 6 1 1 else f
  let f := if here then (if c.evAt = 0 then putBits f 7 1 1 else putBits f 2 1 1) else f
  let c := { c with n := c.n + l, fm := fm, fs := fs, fp := fp, lexcl := c.lexcl - 1, outs := c.outs + 1, flags := f }
  if ex then ({ c with excl := c.excl + 1 }, y, true)
  else
    let p1 : Int := (l ^ (k - 1) : Nat)
    let acc := bit flags 2
    let c := { c with count := c.count + 1, nsamp := c.nsamp + l }
    let c := if acc then { c with sum := c.sum + rdiv y p1, sumsq := c.sumsq + rdiv ys p1,
                                  sumprod := if fieldLE r 2 1 = 0xFF then 0 else c.sumprod + rdiv yp p1 } else c
    let v := rdiv (256 * y) (l ^ k : Nat)
    let c := if !bit flags 1 then c
      else
        let firstOut := decide (c.count = 1)
        let c := if firstOut ∨ v < c.min then { c with min := v, tmin := stamp } else c
        if firstOut ∨ c.max < v then { c with max := v, tmax := stamp } else c
    (c, y, false)

/-- A channel's filter completes an output (R656): the mains detector and the touch channels take what is theirs. -/
def filterOutput (host : Bool) (ch : Nat) (xs xps : List Int) (s : State) : State :=
  let m := measOf s host
  match graphRec s host ch, KMap.get? m.chans ch with
  | some r, some c =>
    if !c.run || xs.length != c.l || decide (c.win ≤ c.outs) || (fieldLE r 2 1 != 0xFF && xps.length != c.l) then s
    else
      let pairEv := if fieldLE r 2 1 = 0xFF then none else (KMap.get? m.chans (fieldLE r 2 1)).map (fun p => p.evAt)
      let (c', y, ex) := chanOutput r c pairEv (if host then 32768 else 131072) xs xps
      let m := { m with chans := KMap.put m.chans ch c' }
      let m := if !host ∧ ch = fieldOf s 0x800018 0 7 then
          { m with mains := xs.foldl (mainsStep (fieldOf s 0x800018 8 4) (fieldOf s 0x800018 16 16)) m.mains } else m
      let s := setMeas host m s
      if host ∧ !ex then
        let rd := rdiv y (c.l ^ fieldLE r 3 1 : Nat)
        let at_ := c'.origin + (c'.n - 1) * c'.period
        { s with h.touch := s.h.touch.zipIdx.map (fun p =>
            if bit (reg s (0x580304 + 0x10 * p.2)) 7 && fieldOf s (0x580308 + 0x10 * p.2) 8 4 == ch then { p.1 with reading := some (rd, at_) } else p.1) }
      else s
  | _, _ => s

/-! ## Windows and records (R659, R661, R662) -/

/-- The measurement record of a channel's window (Table MEAS-4), closed at a sample index with flags. -/
def recordBytes (host : Bool) (ch : Nat) (r : Bytes) (c : MChan) (closeN flags : Nat) : Bytes :=
  let fl := fieldLE r 8 1
  let short := decide (c.count < 16)
  let f := putBits (putBits (putBits flags 0 1 (bits fl 2 1)) 1 1 (bits fl 1 1)) 3 1 (b2n short)
  let acc := bit fl 2 && !short
  let trk := bit fl 1 && !short
  let z := fun (b : Bool) (n : Nat) (v : Int) => le n (if b then ofSigned (8 * n) v else 0)
  [byte 1, byte (b2n host), byte ch, byte (fieldLE r 3 1)] ++ le 2 f ++ [byte (fieldLE r 2 1), byte 0] ++ le 2 (c.l - 1) ++
  le 2 c.excl ++ le 4 c.wseq ++ le 4 c.count ++ le 4 0 ++ le 8 c.open_ ++ le 8 (c.origin + closeN * c.period) ++
  le 8 (if bit fl 2 then c.nsamp else 0) ++ z acc 8 c.sum ++ z acc 12 c.sumsq ++ z (acc && fieldLE r 2 1 != 0xFF) 12 c.sumprod ++
  z trk 4 c.min ++ z trk 4 c.max ++ le 8 (if trk then c.tmin else 0) ++ le 8 (if trk then c.tmax else 0)

/-- A closed record placed: on the field die in the queue of 64, or dropped, counted and raised (R662); on the host die for the publisher (R663). -/
def placeRecord (host : Bool) (ch : Nat) (b : Bytes) (s : State) : State :=
  let m := measOf s host
  let m := { m with last := KMap.put m.last ch b }
  if host then setMeas host { m with queue := m.queue ++ [(curTick s, b)] } s
  else if 64 ≤ m.queue.length then raise 0x118 0 (bump (setMeas host m s) 0x800024 16 8 1)
  else setMeas host { m with queue := m.queue ++ [(tickOf (fnow s), b)] } s

/-- A channel's window is reset for the next one, with its L and flags (R649, R654). -/
def nextWindow (s : State) (host : Bool) (ch : Nat) (r : Bytes) (c : MChan) : MChan :=
  let mains := bit (fieldLE r 8 1) 0 && !host
  let lock := mainsLocked s
  let l := if mains && lock then newL s else c.l
  { c with l := l, lexcl := if l = c.l then c.lexcl else fieldLE r 3 1 - 1, outs := 0, count := 0, nsamp := 0, sum := 0, sumsq := 0,
           sumprod := 0, excl := 0, min := 0, max := 0, tmin := 0, tmax := 0,
           flags := (if l = c.l then 0 else 16) + (if mains && !lock then 32 else 0),
           wseq := (c.wseq + 1) % 2 ^ 32, open_ := c.origin + c.n * c.period, win := reg s (chwinReg host ch) }

/-- A channel's window of WIN outputs closes (R654, R659, R661, R679). -/
def windowClose (host : Bool) (ch : Nat) (s : State) : State :=
  let m := measOf s host
  match graphRec s host ch, KMap.get? m.chans ch with
  | some r, some c =>
    if c.outs < c.win ∨ c.outs = 0 then s
    else
      let b := recordBytes host ch r c (c.n - 1) c.flags
      let c' := nextWindow s host ch r c
      let m := { m with chans := KMap.put m.chans ch c',
                        mains := if bit (fieldLE r 8 1) 0 && !host && mainsLocked s then { m.mains with lcur := c'.l } else m.mains }
      placeRecord host ch b (setMeas host m s)
  | _, _ => s

/-- A step of the follower (R676): every open field window closes at its last sample before the step with TSTEP set, and every field channel starts again. -/
def followerStep (before : Stamp) (s : State) : State :=
  let m := s.f.meas
  let s := m.chans.foldl (fun s e =>
    match graphRec s false e.1 with
    | none => s
    | some r =>
      let c := e.2
      let lastN := if before < c.origin then 0 else (before - 1 - c.origin) / (max 1 c.period)
      if c.run ∧ c.origin < before then placeRecord false e.1 (recordBytes false e.1 r c lastN (putBits c.flags 8 1 1)) s else s) s
  let wseqs := s.f.meas.chans.map (fun e => (e.1, e.2.run))
  wseqs.foldl (fun s e => if e.2 then
      (let keep := s.f.meas.last; let s' := startChan false e.1 s; { s' with f.meas.last := keep }) else s) s

/-- The head of the field record queue is committed for sending (R662, R678). -/
def recordSend (s : State) : State :=
  let m := s.f.meas
  let k := tickOf (fnow s)
  match m.queue with
  | [] => s
  | (t, b) :: r =>
    if (match m.lastSend with | some x => decide (k < x + 1000) | none => false) || decide (k < t) then s
    else
      let s := { s with f.meas.queue := r, f.meas.lastSend := some k }
      if s.f.state = .alone then
        (if bit (reg s 0x820014) 1 then fieldSend 7 0 b (bump s 0x800024 0 16 1) else bump s 0x800024 24 8 1)
      else fieldSend 7 0 b (bump s 0x800024 0 16 1)

/-! ## The publisher (R663 to R665) -/

/-- A record published, or withheld while the root is not VALID. -/
def publishRecord (b : Bytes) (s : State) : State :=
  let n := s.h.pseq
  let s := { s with h.pseq := (n + 1) % 2 ^ 32 }
  let body := le 2 0x0E31 ++ [byte 1, byte 0] ++ le 4 n ++ padTo 104 b
  match internalKeyOf s 2 with
  | none => bump s 0x580104 0 32 1
  | some k => submitMsg 67 (body ++ cmacBytes k (s.otp.uid ++ body)) 0 s

/-- A touch event published. -/
def publishTouch (e : Nat × Nat × Stamp) (s : State) : State :=
  let n := s.h.pseq
  let s := { s with h.pseq := (n + 1) % 2 ^ 32 }
  let body := le 2 0x0E32 ++ [byte 1, byte 0] ++ le 4 n ++ [byte e.1, byte e.2.1] ++ List.replicate 6 0 ++ le 8 e.2.2
  let mac := match internalKeyOf s 2 with | some k => cmacBytes k (s.otp.uid ++ body) | none => List.replicate 16 0
  submitMsg 67 (body ++ mac) 0 s

/-- The publisher's submissions at the commit of tick j (R663, R684): field records presented in it, host sense records closed in it, touch events, band records. -/
def publishTick (j : Nat) (field : List Bytes) (s : State) : State :=
  let s := field.foldl (fun s b => publishRecord b s) s
  let due := s.h.meas.queue.filter (fun e => decide (e.1 ≤ j))
  let s := { s with h.meas.queue := s.h.meas.queue.filter (fun e => !decide (e.1 ≤ j)) }
  let s := (sortBy (fun e : Nat × Bytes => [fieldLE e.2 2 1]) due).foldl (fun s e => publishRecord e.2 s) s
  let ev := s.h.touchEv.filter (fun e => decide (tickOf e.2.2 ≤ j))
  let s := { s with h.touchEv := s.h.touchEv.filter (fun e => !decide (tickOf e.2.2 ≤ j)) }
  let s := (sortBy (fun e : Nat × Nat × Stamp => [e.1]) ev).foldl (fun s e => publishTouch e s) s
  let bs := s.h.aud.bandOut.filter (fun e => decide (e.1 ≤ j))
  let s := { s with h.aud.bandOut := s.h.aud.bandOut.filter (fun e => !decide (e.1 ≤ j)) }
  (sortBy (fun e : Nat × Bytes => [fieldLE e.2 2 1]) bs).foldl (fun s e => publishRecord e.2 s) s

/-! ## Calibration (R667 to R670, R677) -/

/-- The next request enters service (R667, R668): with no spare in service it ends with ERR 4. -/
def calNext (s : State) : State :=
  let m := s.f.meas
  match m.cal, ascend m.calReq with
  | none, d :: _ =>
    if (reserveOf s 0x21).isNone then
      let s := { s with f.meas := { m with calErr := 4, calReq := m.calReq.filter (fun x => x != d) } }
      (match s.f.rep.visit with | some v => if v.kind = 0x21 ∧ v.duty = d then endVisit true 0x21 s else s | none => s)
    else askLeave true 2 d (fnow s) { s with f.meas := { m with cal := some ⟨d, 1⟩ } }
  | _, _ => s

/-- A request ends (R667 step 5, R668): its bit clears unless it was written again, leave is given back, and the next one enters service. -/
def calEnd (err done : Nat) (s : State) : State :=
  match s.f.meas.cal with
  | none => s
  | some c =>
    let m := s.f.meas
    let again := m.calAgain.contains c.duty
    let req := m.calReq.filter (fun x => x != c.duty)
    let s := { s with f.meas := { m with cal := none, calErr := err, calReq := if again then req ++ [c.duty] else req,
                                         calAgain := m.calAgain.filter (fun x => x != c.duty) } }
    let s := if holdsLeave s true 2 c.duty then giveLeave true 2 c.duty s else dropLeave true 2 c.duty s
    let s := if done = 0 then s else bump s 0x800014 16 16 done
    let s := match s.f.rep.visit with | some v => if v.kind = 0x21 ∧ v.duty = c.duty then endVisit true 0x21 s else s | none => s
    calNext s

/-- A write of MEAS.CALCTL.REQ (R667, R677). -/
def calRequest (mask : Nat) (s : State) : State :=
  calNext ((List.range 3).foldl (fun s d =>
    let m := s.f.meas
    if !bit mask d then s
    else match m.cal with
    | some c => if c.duty = d then { s with f.meas.calAgain := if m.calAgain.contains d then m.calAgain else m.calAgain ++ [d] }
                else { s with f.meas.calReq := if m.calReq.contains d then m.calReq else m.calReq ++ [d] }
    | none => { s with f.meas.calReq := if m.calReq.contains d then m.calReq else m.calReq ++ [d] }) s)

/-- The calibration in service moved to another step. -/
def calStep (n : Nat) (s : State) : State :=
  match s.f.meas.cal with
  | some c => { s with f.meas.cal := some { c with step := n } }
  | none => s

/-- Calibration of the spare ends (R667 step 2, R668). -/
def spareCalibrated (ok : Bool) (s : State) : State :=
  match s.f.meas.cal with
  | none => s
  | some c =>
    if c.step ≠ 2 then s
    else if ok then calStep 3 s
    else
      let s := match reserveOf s 0x21 with | some i => setIsland i ⟨3, 0xFF, 0⟩ s | none => s
      calEnd 2 0 (raise 0x119 0 s)

/-- The calibrated spare connects to the duty (R667 step 3): the duty moves, and every channel of it has a converter event at the next cycle's sample. -/
def converterSwap (s : State) : State :=
  match s.f.meas.cal with
  | none => s
  | some c =>
    let duty := 0x2100 + c.duty
    match reserveOf s 0x21, servingIsland s duty with
    | some sp, some old =>
      if c.step ≠ 3 then s
      else
        let s := handDuty duty old sp 6 s
        let now := fnow s
        let chs := (measGraph s false).filter (fun r => fieldLE r 9 1 == c.duty)
        let m := s.f.meas
        let chans := chs.foldl (fun (m : KMap MChan) r =>
          match KMap.get? m (fieldLE r 0 1) with
          | some x => KMap.put m (fieldLE r 0 1) { x with evAt := if now ≤ x.origin then 0 else ceilDiv (now - x.origin) (max 1 x.period) }
          | none => m) m.chans
        { s with f.meas := { m with chans := chans, cal := some { c with step := 4 } } }
    | _, _ => s

/-- The freed converter's calibration ends (R667 steps 4 and 5, R668). -/
def calibrationDone (ok : Bool) (s : State) : State :=
  match s.f.meas.cal with
  | none => s
  | some c =>
    if c.step ≠ 4 then s
    else
      let freed := (s.f.rep.islands.find? (fun e => e.1 / 256 == 0x21 && e.2.role == 6)).map (fun e => e.1)
      let s := match freed with | some i => setIsland i ⟨if ok then 1 else 3, 0xFF, 0⟩ s | none => s
      if ok then calEnd 0 1 s else calEnd 3 1 (raise 0x119 0 s)

/-- MEAS.CONVSTAT as it reads (Table MEAS-7). -/
def convStat (s : State) : Nat :=
  let p := fun d => (servingIsland s (0x2100 + d)).getD 0x2100 % 256 % 4
  let sp := reserveOf s 0x21
  p 0 + 4 * p 1 + 16 * p 2 + 64 * (sp.getD 0x2100 % 256 % 4) + 256 * b2n sp.isNone + 512 * b2n s.f.meas.cal.isSome

/-- A write of HSNS.CALCTL.REQ (R670). -/
def hsnsCalRequest (s : State) : State :=
  if s.h.meas.cal.isSome then { s with h.meas.calAgain := [0] }
  else askLeave false 6 0 s.time.now { s with h.meas.cal := some ⟨0, 0⟩, h.meas.calReq := [0] }

/-- Host sense calibration ends with an error code, its leave given back; a request written meanwhile is served again. -/
def hsnsCalEnd (err done : Nat) (s : State) : State :=
  let again := !s.h.meas.calAgain.isEmpty
  let s := { s with h.meas.cal := none, h.meas.calErr := err, h.meas.calReq := [], h.meas.calAgain := [] }
  let s := if holdsLeave s false 6 0 then giveLeave false 6 0 s else s
  let s := if done = 0 then s else bump s 0x580008 16 16 done
  if again then hsnsCalRequest s else s

/-- The host sense converter resumes after its calibration (R648, R670): the samples of the gap do not exist, and the first one after it is a converter event. -/
def hsnsResume (ok : Bool) (s : State) : State :=
  match s.h.meas.cal with
  | none => s
  | some c =>
    if c.step = 0 then s
    else
      let m := s.h.meas
      let chans := m.chans.map (fun e =>
        match graphRec s true e.1 with
        | none => e
        | some r =>
          let x := e.2
          let taken := if c.step ≤ x.origin then 0 else ceilDiv (c.step - x.origin) (max 1 x.period)
          let (o, _) := nextCycle s true r s.time.now
          (e.1, { x with origin := o - taken * x.period, evAt := taken }))
      let s := { s with h.meas := { m with chans := chans } }
      if ok then hsnsCalEnd 0 1 s else hsnsCalEnd 3 1 (raise 0x065 0 s)

/-! ## Touch channels (R672, R673) -/

/-- The settings of a touch channel: TH, HYS, DEB, TRACKDIV, STEP, HOLDS, WAKETH, INIT. -/
def touchTh (s : State) (t : Nat) : Int := fieldOf s (0x580300 + 0x10 * t) 0 16
@[inherit_doc touchTh] def touchHys (s : State) (t : Nat) : Int := fieldOf s (0x580300 + 0x10 * t) 16 16
@[inherit_doc touchTh] def touchDeb (s : State) (t : Nat) : Nat := fieldOf s (0x580304 + 0x10 * t) 0 4
@[inherit_doc touchTh] def touchDiv (s : State) (t : Nat) : Nat := fieldOf s (0x580304 + 0x10 * t) 8 8
@[inherit_doc touchTh] def touchStepSize (s : State) (t : Nat) : Int := fieldOf s (0x580304 + 0x10 * t) 16 16
@[inherit_doc touchTh] def touchHold (s : State) (t : Nat) : Nat := fieldOf s (0x580308 + 0x10 * t) 0 8 * 1000000000
@[inherit_doc touchTh] def touchWake (s : State) (t : Nat) : Int := fieldOf s (0x580308 + 0x10 * t) 16 16
@[inherit_doc touchTh] def touchInit (s : State) (t : Nat) : Int := toSigned 32 (reg s (0x58030C + 0x10 * t))

/-- The rule of R672 for one reading: the channel after it and the event, if any (1 PRESS, 2 RELEASE, 3 STUCK, 4 READY). -/
def touchRule (s : State) (t : Nat) (c : Touch) (r : Int) (stamp : Stamp) : Touch × Nat :=
  let th := touchTh s t
  let deb := touchDeb s t
  let low := decide (r ≤ c.base + th - touchHys s t)
  let run := fun (b : Bool) => if b then c.run + 1 else 0
  if c.first then
    let d := if r - touchInit s t < 0 then touchInit s t - r else r - touchInit s t
    if d ≤ th then ({ c with first := false, base := r, st := 1, run := 0, div := 0 }, 0)
    else ({ c with first := false, hi := r, st := 3, run := 0 }, 0)
  else match c.st with
  | 3 =>
    let hi := max c.hi r
    let n := run (decide (r ≤ hi - th))
    if deb ≤ n then ({ c with hi := hi, base := r, st := 1, run := 0, div := 0 }, 4) else ({ c with hi := hi, run := n }, 0)
  | 1 =>
    let n := run (decide (c.base + th ≤ r))
    if deb ≤ n then ({ c with st := 2, run := 0, t0 := stamp }, 1)
    else
      let dv := c.div + 1
      if dv < touchDiv s t then ({ c with run := n, div := dv }, 0)
      else
        let d := r - c.base
        let mv := if d < 0 then -(min (-d) (touchStepSize s t)) else min d (touchStepSize s t)
        ({ c with run := n, div := 0, base := c.base + mv }, 0)
  | 2 =>
    let n := run low
    if deb ≤ n then ({ c with st := 1, run := 0, div := 0 }, 2)
    else if c.t0 + touchHold s t ≤ stamp then ({ c with st := 4, run := 0 }, 3)
    else ({ c with run := n }, 0)
  | 4 =>
    let n := run low
    if deb ≤ n then ({ c with base := r, st := 1, run := 0, div := 0 }, 2) else ({ c with run := n }, 0)
  | _ => (c, 0)

/-- A touch channel takes the reading that waits (R672): its event goes to the publisher, a press is counted, STUCK raises its source. -/
def touchReading (t : Nat) (s : State) : State :=
  let c := nth s.h.touch t Touch.reset
  match c.reading with
  | none => s
  | some (r, stamp) =>
    let (c', ev) := touchRule s t c r stamp
    let s := { s with h.touch := s.h.touch.set t { c' with reading := none } }
    let s := if ev = 0 then s else { s with h.touchEv := s.h.touchEv ++ [(t, ev, stamp)] }
    let s := if ev = 1 then bump s 0x580344 (8 * t) 8 1 else s
    if ev = 3 then raise (0x061 + t) 0 s else s

/-- Whether the reading that waits makes the channel STUCK. -/
def touchStuckDue (s : State) (t : Nat) : Bool :=
  let c := nth s.h.touch t Touch.reset
  match c.reading with
  | some (r, stamp) => (touchRule s t c r stamp).2 == 3
  | none => false

/-- One scan of a touch channel in STANDBY (R673). -/
def touchScan (t : Nat) (r : Int) (stamp : Stamp) (s : State) : State :=
  let c := nth s.h.touch t Touch.reset
  if s.sys.mode ≠ .standby ∨ !bit (reg s 0x24) 14 ∨ !bit (reg s (0x580304 + 0x10 * t)) 7 then s
  else if !(c.st == 1 || c.scanOk) then
    let n := if r ≤ c.base + touchTh s t - touchHys s t then c.scan + 1 else 0
    { s with h.touch := s.h.touch.set t (if touchDeb s t ≤ n then { c with scanOk := true, scan := 0 } else { c with scan := n }) }
  else
    let n := if c.base + touchWake s t ≤ r then c.scan + 1 else 0
    let s := { s with h.touch := s.h.touch.set t { c with scan := if 2 ≤ n then 0 else n } }
    if 2 ≤ n then wakeEvent 0x0F stamp s else s

/-- HSNS.TSTAT (Table MEAS-15). -/
def touchStat (s : State) : Nat := (s.h.touch.zipIdx).foldl (fun n p => n + p.1.st * 2 ^ (3 * p.2)) 0

/-- The touch channels at BUILD commit: enabled ones await their first reading (R672, R97). -/
def touchStart (s : State) : State := { s with h.touch := List.replicate 4 Touch.reset }

end Sys2Proof.Machine
end

