-- ==== Sys2Proof/Machine/AudioPorts.lean ====
section
/-! DEFINITION. Audio ports and streams: TDM ports, IEC 60958 transmitters and receivers, and AAF endpoints (chapter 16). -/

namespace Sys2Proof.Machine

open Sys2Proof

/-! ## Ports -/

/-- A framed audio port: 0 to 3 TDM, 4 and 5 transmitters BPT, 6 and 7 receivers BPR. -/
def portOf (s : State) (i : Nat) : APort :=
  if i < 4 then nth s.h.aud.tdm i APort.reset
  else if i < 6 then nth s.h.aud.bpt (i - 4) APort.reset
  else nth s.h.aud.bpr (i - 6) APort.reset

/-- The state with a framed audio port replaced. -/
def setPort (i : Nat) (p : APort) (s : State) : State :=
  if i < 4 then { s with h.aud.tdm := s.h.aud.tdm.set i p }
  else if i < 6 then { s with h.aud.bpt := s.h.aud.bpt.set (i - 4) p }
  else { s with h.aud.bpr := s.h.aud.bpr.set (i - 6) p }

/-- The base address of a framed audio port's registers (Tables AUDP-4, AUDP-5). -/
def portBase (i : Nat) : Nat :=
  if i < 4 then 0x500000 + i * 0x100 else if i < 6 then 0x500400 + (i - 4) * 0x100 else 0x500600 + (i - 6) * 0x100

/-- A configuration register as the running port applies it (R714), or as it stands. -/
def cfgOf (s : State) (i off : Nat) : Nat :=
  match KMap.get? (portOf s i).cfg off with
  | some v => v
  | none => reg s (portBase i + off)

/-- The bits of a slot width code (Table AUDP-1). -/
def widthBits (c : Nat) : Nat := match c with | 0 => 8 | 1 => 16 | 2 => 20 | 3 => 24 | _ => 32

/-- The slots that a mask selects. -/
def popcount (m : Nat) : Nat := ((List.range 32).filter (fun i => bit m i)).length

/-- FS and the anchor S of a master port or a transmitter (R689, R700). -/
def portRate (s : State) (i : Nat) : Nat := if i < 4 then bits (cfgOf s i 0x0C) 0 18 else bits (cfgOf s i 0x04) 0 18
@[inherit_doc portRate] def portAnchor (s : State) (i : Nat) : Nat :=
  if i < 4 then cfgOf s i 0x1C + cfgOf s i 0x20 * 2 ^ 32 else cfgOf s i 0x08 + cfgOf s i 0x0C * 2 ^ 32

/-- The lattice instant of frame k (R689). -/
def frameAt (s : State) (i k : Nat) : Stamp := portAnchor s i + k * 1000000000 / max 1 (portRate s i)

/-- The least frame whose edge lies after an instant (R690). -/
def frameAfter (s : State) (i : Nat) (t : Stamp) : Nat :=
  if t < portAnchor s i then 0 else ceilDiv ((t - portAnchor s i + 1) * portRate s i) 1000000000

/-- Whether a port is clocked by the device. -/
def portMaster (s : State) (i : Nat) : Bool := if i < 4 then bit (reg s (portBase i)) 1 else decide (i < 6)

/-- Whether a port is lattice-synchronous (R724). -/
def latticeSync (s : State) (i : Nat) : Bool :=
  decide (i < 6) && portMaster s i && portRate s i == 48000 && portAnchor s i % 62500 == 0

/-- The frame of a lattice-synchronous port that coincides with a graph sample, where there is one (R724). -/
def syncFrame (s : State) (i g : Nat) : Option Nat :=
  let o := 3 * portAnchor s i / 62500
  if o ≤ g then some (g - o) else none

/-! ## Block stamps (R693, R694) -/

/-- A block stamp made by a port: into its FIFO of 16, or counted as not kept, and to the graph. -/
def pushBlock (i : Nat) (b : BStamp) (first : Nat) (s : State) : State :=
  let p := portOf s i
  let full := decide (16 ≤ p.fifo.length)
  let p := { p with fifo := if full then p.fifo else p.fifo ++ [b], b1 := p.b2, b2 := some (b.stamp, first), resync := false }
  let s := setPort i p s
  if full ∧ i < 4 then bump s (portBase i + 0x28) 16 16 1 else s

/-- The offset of a port's block-stamp registers. -/
def bstOff (i : Nat) : Nat := if i < 4 then 0x30 else 0x74

/-- A read of BST0 (R694): the head stamp popped, BST1 and BST2 loaded; the value read. -/
def popBlock (i : Nat) (s : State) : State × Nat :=
  let p := portOf s i
  let a := portBase i + bstOff i
  match p.fifo with
  | [] => (setReg (setReg s (a + 4) 0) (a + 8) 0, 0)
  | b :: r =>
    (setReg (setReg (setPort i { p with fifo := r } s) (a + 4) (b.stamp / 2 ^ 32)) (a + 8)
      (b.block % 2 ^ 24 + 2 ^ 24 + 2 ^ 25 * b2n b.resync + 2 ^ 28 * r.length), b.stamp % 2 ^ 32)

/-! ## History for the sample-rate converters and the graph -/

/-- A received sample of a source channel kept for the graph, newest first; no converter looks back further than 5,000 µs (R730). -/
def keepSample (kind idx f : Nat) (v : Int) (s : State) : State :=
  if (recs s 7 0).any (fun r => fieldLE r 0 1 == kind && fieldLE r 1 1 == idx) then
    { s with h.aud.hist := KMap.put s.h.aud.hist (kind * 256 + idx) (((f, v) :: KMap.getD s.h.aud.hist (kind * 256 + idx) []).take 1200) }
  else s

/-- The received samples of a source channel forgotten, at a start or a loss of lock. -/
def forgetPort (i : Nat) (s : State) : State :=
  let mine := fun (k : Nat) =>
    if i < 4 then decide (0x100 + i * 32 ≤ k) && decide (k < 0x100 + i * 32 + 32)
    else decide (0x300 + (i - 6) * 2 ≤ k) && decide (k < 0x300 + (i - 6) * 2 + 2) && decide (6 ≤ i)
  { s with h.aud.hist := s.h.aud.hist.filter (fun e => !mine e.1) }

/-- The sample-rate converters whose domain is a port (R730). -/
def asrcOf (s : State) (i : Nat) : List Nat :=
  let (k, x) := if i < 4 then (0, i) else if i < 6 then (2, i - 4) else (1, i - 6)
  (List.range 8).filter (fun a => fieldOf s (0x501000 + 0x20 * a) 1 2 == k && fieldOf s (0x501000 + 0x20 * a) 3 3 == x &&
    fieldOf s (0x501000 + 0x20 * a) 6 4 != 0)

/-- The first graph sample whose tick is after the current one (R722, R729). -/
def nextGraph (s : State) : Nat := ceilDiv ((curTick s + 1) * 8 * 3) 62500

/-- A port loses lock: its converters ramp to 0 and count it (R752). -/
def loseLock (i : Nat) (s : State) : State :=
  let p := portOf s i
  if p.lock then
    let s := forgetPort i (setPort i { p with lock := false, count := 0, b1 := none, b2 := none } s)
    (asrcOf s i).foldl (fun s a =>
      bump { s with h.aud.asrcOff := KMap.put s.h.aud.asrcOff a (nextGraph s) } (0x501004 + 0x20 * a) 16 16 1) s
  else setPort i { p with count := 0, b1 := none, b2 := none } s

/-! ## Enabling (R690, R692, R714, R715) -/

/-- The offsets whose writes a running port holds (R714). -/
def heldOffs (i : Nat) : List Nat :=
  if i < 4 then [0x04, 0x08, 0x0C, 0x10, 0x14, 0x18, 0x1C, 0x20] else if i < 6 then [0x04, 0x08, 0x0C] else []

/-- A port starts: the configuration as it stands takes effect; a master port's first frame is the least after this instant. -/
def portStart (i : Nat) (s : State) : State :=
  let p := portOf s i
  let s := setPort i { p with
    run := true, stopReq := false, lock := false, count := 0, good := 0, lastEdge := none, whole := false,
    resync := false, b1 := none, b2 := none, sent := [], mute := false, lastA := 0, lastB := 0,
    cfg := (heldOffs i).map (fun o => (o, reg s (portBase i + o))) } s
  let k := if portMaster s i then frameAfter s i s.time.now else 0
  forgetPort i (setPort i { portOf s i with frame := k } s)

/-- A port stops; its rings and its stamps stay (R715). -/
def portStop (i : Nat) (s : State) : State :=
  setPort i { portOf s i with run := false, stopReq := false, lock := false, cfg := [], sent := [] } s

/-- EN of a port written (R690, R692, R715). -/
def portEnable (i : Nat) (old new : Bool) (s : State) : State :=
  let p := portOf s i
  if !old && new then (if p.run then setPort i { p with stopReq := false } s else portStart i s)
  else if old && !new then
    (if p.run ∧ (portMaster s i ∨ p.lastEdge.isSome) then setPort i { p with stopReq := true } s else portStop i s)
  else s

/-! ## TDM (R686 to R697) -/

/-- The ring place of a slot's sample (R696). -/
def ringIndex (s : State) (n off slot f : Nat) : Nat :=
  let m := cfgOf s n off
  f % max 1 (bits (cfgOf s n 0x18) 0 12) * popcount m + popcount (m % 2 ^ slot)

/-- The sample of a slot as its ring word holds it: the first width bits, 0 below (R696). -/
def slotWord (s : State) (n : Nat) (w : Word) : Nat :=
  let wd := widthBits (bits (cfgOf s n 0x04) 8 3)
  w.toNat / 2 ^ (32 - wd) * 2 ^ (32 - wd)

/-- The receive words of a frame put into the ring and kept for the graph (R696, R697). -/
def tdmReceive (n f : Nat) (slots : List Word) (s : State) : State :=
  let m := cfgOf s n 0x10
  let used := (List.range 32).filter (fun k => bit m k)
  let s := used.foldl (fun s k =>
    let v := slotWord s n (nth slots k 0)
    let p := portOf s n
    keepSample 1 (n * 32 + popcount (m % 2 ^ k)) f (toSigned 32 v)
      (setPort n { p with rx := KMap.put p.rx (ringIndex s n 0x10 k f) (BitVec.ofNat 32 v) } s)) s
  let p := portOf s n
  setPort n { p with rxf := f % max 1 (bits (cfgOf s n 0x18) 0 12), count := min 4 (p.count + 1) } s

/-- The words of the frame on the wire, by slot: the ring words of the slots that TXMASK selects, 0 in the others (R688, R692, R697). -/
def tdmLatch (n : Nat) (s : State) : State :=
  let p := portOf s n
  let m := cfgOf s n 0x14
  let live := portMaster s n || p.lock
  let ws := (List.range (bits (cfgOf s n 0x04) 0 6)).map (fun k =>
    if bit m k ∧ live then
      BitVec.ofNat 32 (slotWord s n ((KMap.get? p.tx (ringIndex s n 0x14 k p.frame)).getD 0))
    else (0 : Word))
  setPort n { p with sent := ws } s

/-- BLKN and the frames of a block (R693). -/
def blockLen (s : State) (n : Nat) : Nat := 2 ^ min 8 (fieldOf s (portBase n) 4 4)

/-- The last bit clock of a TDM frame passes (R693, R697, R715): `slots` holds what DIN carried in each slot, most significant bit first. -/
def tdmFrame (n : Nat) (slots : List Word) (s : State) : State :=
  let p := portOf s n
  if !p.run then s
  else if portMaster s n then
    if curTick s < tickOf (frameAt s n (p.frame + 1)) then s
    else
      let s := tdmReceive n p.frame slots s
      let s := if bit (reg s (portBase n)) 3 && p.frame % blockLen s n == 0 then
          pushBlock n ⟨frameAt s n p.frame, p.frame / blockLen s n, false⟩ p.frame s else s
      if p.stopReq then portStop n s else setPort n { portOf s n with frame := p.frame + 1 } s
  else
    let s := if p.lock then tdmReceive n p.frame slots s else s
    if p.stopReq then portStop n s else s

/-- An FS active edge of a slave port (R691 to R693): `clocks` bit clocks lie between the previous edge and this one. -/
def tdmEdge (n : Nat) (stamp : Stamp) (clocks : Nat) (s : State) : State :=
  let p := portOf s n
  if !p.run || portMaster s n then s
  else if isLate s stamp then dropLate s
  else match p.lastEdge with
  | none => setPort n { p with lastEdge := some stamp } s
  | some before =>
    if clocks = bits (cfgOf s n 0x08) 0 12 then
      let bl := blockLen s n
      let at0 := if p.frame % bl = 0 then before else p.blockAt
      let s := setPort n { p with lastEdge := some stamp, good := min 2 (p.good + 1), lock := p.lock || decide (1 ≤ p.good),
                                  blockAt := at0, frame := p.frame + 1 } s
      if bit (reg s (portBase n)) 3 && (p.frame + 1) % bl == 0 then
        pushBlock n ⟨at0, p.frame / bl, p.resync⟩ (p.frame / bl * bl) s else s
    else
      let s := loseLock n (bump s (portBase n + 0x28) 0 16 1)
      setPort n { portOf s n with lastEdge := some stamp, good := 0, frame := 0, resync := true } s

/-! ## IEC 60958 (R699 to R705) -/

/-- Bit i of a block's channel-status or user bits (R701). -/
def blockBit (bs : Bytes) (sub i : Nat) : Bool := bit (nth bs (sub * 24 + i / 8) 0).toNat (i % 8)

/-- A subframe as it is sent: preamble in bits 3:0 (0 M, 1 B, 2 W), the audio word in 27:4, V, U, C and even parity. -/
def subframe (pre audio : Nat) (v u c : Bool) : Word :=
  let body := pre + audio * 16 + b2n v * 2 ^ 28 + b2n u * 2 ^ 29 + b2n c * 2 ^ 30
  let ones := ((List.range 27).filter (fun i => bit body (i + 4))).length
  BitVec.ofNat 32 (body + ones % 2 * 2 ^ 31)

/-- The channel-status and user-bit registers of a transmitter as bytes (R701). -/
def regBytes (s : State) (a : Nat) : Bytes := (List.range 12).flatMap (fun k => le 4 (reg s (a + 4 * k)))

/-- CSCOMMIT or UCOMMIT of transmitter x written 1 (R701, R717): the register contents wait for the next block start. -/
def bptCommit (x : Nat) (user : Bool) (s : State) : State :=
  let p := portOf s (4 + x)
  if user then setPort (4 + x) { p with uCommit := some (curTick s), newUb := regBytes s (portBase (4 + x) + 0x40) } s
  else setPort (4 + x) { p with csCommit := some (curTick s), newCs := regBytes s (portBase (4 + x) + 0x10) } s

/-- Whether a commit of an earlier tick waits. -/
def commitDue (c : Option Nat) (now : Nat) : Bool := match c with | some t => decide (t < now) | none => false

/-- A transmitter starts a block (R700, R701): waiting commits take effect. -/
def bptBlock (s : State) (p : APort) : APort :=
  let p := if commitDue p.csCommit (curTick s) then { p with cs := p.newCs, csCommit := none } else p
  if commitDue p.uCommit (curTick s) then { p with ub := p.newUb, uCommit := none } else p

/-- A transmitter reaches a lattice frame (R700, R701, R715). -/
def bptFrame (x : Nat) (s : State) : State :=
  let i := 4 + x
  let p := portOf s i
  if !p.run ∨ curTick s < tickOf (frameAt s i p.frame) then s
  else if p.stopReq then portStop i s
  else
    let k := p.frame
    let start := k % 192 == 0
    let p := if start then bptBlock s p else p
    let ctl := reg s (portBase i)
    let word := fun (sub : Nat) =>
      let v := ((KMap.get? p.tx (2 * (k % 1024) + sub)).getD 0).toNat / 2 ^ 8
      if bit ctl 2 then v / 16 * 16 else v
    let cbit := fun (sub : Nat) => blockBit p.cs sub (k % 192) && k % 192 != 0
    let sent := [subframe (if start then 1 else 0) (word 0) (bit ctl 1) (blockBit p.ub 0 (k % 192)) (cbit 0),
                 subframe 2 (word 1) (bit ctl 1) (blockBit p.ub 1 (k % 192)) (cbit 1)]
    let s := setPort i { p with sent := sent, frame := k + 1, count := min 4 (p.count + 1) } s
    if start then pushBlock i ⟨frameAt s i k, k / 192, false⟩ k s else s

/-- The end of a block received whole while locked (R703, R704). -/
def bprBlockEnd (r : Nat) (s : State) : State :=
  let i := 6 + r
  let p := portOf s i
  if !p.lock || !p.whole || p.good != 192 then s
  else
    let b0 := (nth p.newCs 0 0).toNat
    let nonpcm := bit b0 1
    let st := portBase i + 4
    let s := setField (setField (setField s st 1 1 (b2n (bit b0 0))) st 2 1 (b2n nonpcm)) st 3 1 (b2n p.vseen)
    let s := if p.newCs ≠ p.cs then setField s st 4 1 1 else s
    let s := if p.newUb ≠ p.ub then setField s st 5 1 1 else s
    let mute := bit (reg s (portBase i)) 1 && nonpcm
    let s := setPort i { p with cs := p.newCs, ub := p.newUb, whole := false, mute := mute } s
    let s := pushBlock i ⟨p.blockAt, (p.frame - 192) / 192, p.resync⟩ (p.frame - 192) s
    match (portOf s i).b1, (portOf s i).b2 with
    | some (t1, _), some (t2, _) =>
      if t1 < t2 then setField s st 14 18 (min 0x3FFFF (rdiv 192000000000 ((t2 - t1 : Nat) : Int)).toNat) else s
    | _, _ => s

/-- A receiver's words of a frame into its ring, its block bits gathered (R702, R704, R705). A subframe holds the audio word in bits 23:0, V, U and C in 24 to 26, and its parity error in 27. -/
def bprTake (r subA subB : Nat) (s : State) : State :=
  let i := 6 + r
  let p := portOf s i
  let word := fun (sub last : Nat) => if bit sub 27 then last else if p.mute then 0 else bits sub 0 24
  let a := word subA p.lastA
  let b := word subB p.lastB
  let errs := b2n (bit subA 27) + b2n (bit subB 27)
  let pos := p.good
  let put := fun (bs : Bytes) (bitNo : Nat) =>
    let one := fun (bs : Bytes) (sub v : Nat) => updNth bs (sub * 24 + pos / 8) (fun x => byte (putBits x.toNat (pos % 8) 1 (b2n (bit v bitNo))))
    one (one bs 0 subA) 1 subB
  let f := p.frame % 1024
  let p := { p with
    rx := KMap.put (KMap.put p.rx (2 * f) (BitVec.ofNat 32 (a * 256))) (2 * f + 1) (BitVec.ofNat 32 (b * 256)),
    lastA := a, lastB := b, newCs := put p.newCs 26, newUb := put p.newUb 25,
    vseen := p.vseen || bit subA 24 || bit subB 24, count := min 4 (p.count + 1) }
  let s := bump (setPort i p s) (portBase i + 8) 0 16 errs
  keepSample 3 (2 * r + 1) p.frame (toSigned 32 (b * 256)) (keepSample 3 (2 * r) p.frame (toSigned 32 (a * 256)) s)

/-- A receiver takes a frame (R702): `stamp` is the start of the frame, `pre` tells that it begins with a B preamble, `bad` that a preamble or code error stands in it. -/
def bprFrame (r : Nat) (stamp : Stamp) (pre bad : Bool) (subA subB : Nat) (s : State) : State :=
  let i := 6 + r
  let p := portOf s i
  if !p.run then s
  else if isLate s stamp then dropLate s
  else
    let s := bprBlockEnd r s
    let p := portOf s i
    let wrong := bad || (p.lock && (pre != decide (p.good = 192)))
    let s :=
      if wrong then
        let s := loseLock i (bump s (portBase i + 8) 16 16 1)
        setPort i { portOf s i with lastEdge := none, good := 0, whole := false, resync := true, frame := 0 } s
      else if p.lock then
        let p := if pre then { p with good := 0, blockAt := stamp, whole := true, vseen := false, lastEdge := some stamp } else p
        let s := bprTake r subA subB (setPort i p s)
        let p := portOf s i
        setPort i { p with good := p.good + 1, frame := p.frame + 1 } s
      else if pre then
        if p.lastEdge.isSome ∧ p.good = 192 then
          let s := bprTake r subA subB (setPort i { p with lock := true, good := 0, frame := 0, blockAt := stamp, whole := true, vseen := false, lastEdge := some stamp } s)
          setPort i { portOf s i with good := 1, frame := 1 } s
        else setPort i { p with lastEdge := some stamp, good := 1 } s
      else if p.lastEdge.isSome then setPort i { p with good := p.good + 1 } s else s
    if p.stopReq then portStop i s else s

/-! ## AAF endpoints (R707 to R713, R719) -/

/-- An endpoint. -/
def epOf (s : State) (e : Nat) : AEp := nth s.h.aud.ep e AEp.reset

/-- The state with an endpoint replaced. -/
def setEp (e : Nat) (x : AEp) (s : State) : State := { s with h.aud.ep := s.h.aud.ep.set e x }

/-- An address in an endpoint's registers. -/
def epReg (e off : Nat) : Nat := 0x500800 + e * 0x80 + off

/-- EPFMT as the endpoint applies it (R714). -/
def epFmt (s : State) (e : Nat) : Nat := match KMap.get? (epOf s e).cfg 4 with | some v => v | none => reg s (epReg e 4)

/-- The rate of an nsr code (R708). -/
def nsrRate (c : Nat) : Nat :=
  match c with
  | 1 => 8000 | 2 => 16000 | 3 => 32000 | 4 => 44100 | 5 => 48000
  | 6 => 88200 | 7 => 96000 | 8 => 176400 | 9 => 192000 | _ => 24000

/-- Channels, bytes per sample, rate and sample frames per PDU of a format word. -/
def fmtCh (f : Nat) : Nat := bits f 0 4
@[inherit_doc fmtCh] def fmtBytes (f : Nat) : Nat := bits f 4 2 + 2
@[inherit_doc fmtCh] def fmtRate (f : Nat) : Nat := nsrRate (bits f 8 4)
@[inherit_doc fmtCh] def fmtSpp (f : Nat) : Nat := bits f 16 7

/-- The format code of AAF (R708). -/
def fmtCode (f : Nat) : Nat := match bits f 4 2 with | 0 => 4 | 1 => 3 | _ => 2

/-- TALK and LISTEN written (R709, R714, R707): a talker starts at the first lattice instant that is a multiple of SPP samples; a port is blocked while LISTEN is 0. -/
def epctlEffect (e old new : Nat) (s : State) : State :=
  let x := epOf s e
  let fmt := if bits old 0 2 = 0 then reg s (epReg e 4) else epFmt s e
  let x := { x with cfg := if bits new 0 2 = 0 then [] else [(4, fmt)] }
  let x := if !bit old 0 && bit new 0 then
      let spp := max 1 (fmtSpp fmt)
      let i0 := ceilDiv ((s.time.now + 1) * fmtRate fmt) 1000000000
      { x with talk := true, nextI := ceilDiv i0 spp * spp, seqNo := 0, mr := !x.mr, gather := [] }
    else if bit old 0 && !bit new 0 then { x with talk := false, gather := [] } else x
  setBlocked (56 + e) (!bit new 1) (setEp e x s)

/-- The body a talker emits (Table AUDP-3). -/
def talkerBody (s : State) (e : Nat) (x : AEp) (t0 : Stamp) (data : Bytes) : Bytes :=
  let f := epFmt s e
  let tag := reg s (epReg e 0x2C)
  let tv := x.tv
  let ts := if tv then (t0 + bits (reg s (epReg e 8)) 0 16 * 1000 + s.time.ptpofs) % 2 ^ 32 else 0
  le 4 (reg s (epReg e 0x1C)) ++ le 2 (reg s (epReg e 0x20)) ++ le 4 (reg s (epReg e 0x24)) ++ le 2 (reg s (epReg e 0x28)) ++
  (if bit tag 15 then be 2 0x8100 ++ be 2 (bits tag 0 12 + bits tag 12 3 * 0x2000) else []) ++
  be 2 0x22F0 ++ [byte 2, byte (0x80 + 8 * b2n x.mr + b2n tv), byte x.seqNo, 0] ++
  le 4 (reg s (epReg e 0x0C)) ++ le 4 (reg s (epReg e 0x10)) ++ be 4 ts ++
  [byte (fmtCode f), byte (bits f 8 4 * 16 + fmtCh f / 256), byte (fmtCh f), byte (8 * fmtBytes f)] ++
  be 2 data.length ++ [0, 0] ++ data

/-- A talker emits a PDU once SPP sample frames stand gathered (R709, R710). -/
def talkerPdu (e : Nat) (s : State) : State :=
  let x := epOf s e
  let f := epFmt s e
  let spp := max 1 (fmtSpp f)
  if !x.talk || decide (x.gather.length < spp) then s
  else
    let fr := x.gather.take spp
    let data := fr.flatMap (fun p => p.2.flatMap (fun w => (be 4 w.toNat).take (fmtBytes f)))
    let t0 := match fr with | p :: _ => p.1 | [] => 0
    let first := x.nextI - x.gather.length
    let stamp := (first + spp) * 1000000000 / fmtRate f
    let body := talkerBody s e x t0 data
    submitAt (56 + e) stamp stamp 2 3 body false 0
      (bump (setEp e { x with gather := x.gather.drop spp, seqNo := (x.seqNo + 1) % 256 } s) (epReg e 0x34) 0 16 1)

/-- What a listener makes of a PDU (R711). -/
inductive Take
  | mismatch | late | order | ovf
  | taken (frames : List (Stamp × List Word)) (gap : Bool)
deriving DecidableEq, Repr

/-- The AVTPDU of an Ethernet body: what follows its EtherType. -/
def avtpOf (b : Bytes) : Bytes := b.drop (if ethTagged b then 18 else 14)

/-- The presentation instant of a PDU at a take stamp (R712). -/
def presentation (s : State) (e : Nat) (pdu : Bytes) (take : Stamp) : Int :=
  if bit (fieldLE pdu 1 1) 0 && bit (reg s 0x3002C) 0 then
    let v := take + s.time.ptpofs
    (extend32 v (fieldBE pdu 12 4) : Int) - s.time.ptpofs
  else ((take + bits (reg s (epReg e 8)) 16 16 * 1000 : Nat) : Int)

/-- The sample words of a PDU's stream data: left-aligned, network byte order (R708, R709). -/
def pduWords (f : Nat) (d : Bytes) : List Word :=
  let n := fmtBytes f
  (List.range (d.length / n)).map (fun i => BitVec.ofNat 32 (fieldBE d (i * n) n * 2 ^ (32 - 8 * n)))

/-- A PDU judged at its take (R711, R712). -/
def judgePdu (s : State) (e : Nat) (body : Bytes) (take : Stamp) : Take :=
  let x := epOf s e
  let f := epFmt s e
  let pdu := avtpOf body
  let one := fmtCh f * fmtBytes f
  let len := fieldBE pdu 20 2
  let n := len / max 1 one
  if etherType body ≠ 0x22F0 ∨ pdu.length < 24 + len ∨ fieldLE pdu 0 1 ≠ 2 ∨ !bit (fieldLE pdu 1 1) 7 ∨
      slice pdu 4 8 ≠ le 4 (reg s (epReg e 0x14)) ++ le 4 (reg s (epReg e 0x18)) ∨
      fieldLE pdu 16 1 ≠ fmtCode f ∨ fieldLE pdu 17 1 / 16 ≠ bits f 8 4 ∨
      fieldLE pdu 17 1 % 4 * 256 + fieldLE pdu 18 1 ≠ fmtCh f ∨ fieldLE pdu 19 1 ≠ 8 * fmtBytes f ∨
      n = 0 ∨ len ≠ n * one then .mismatch
  else
    let p := presentation s e pdu take
    if p ≤ (take : Int) then .late
    else
      let rate := fmtRate f
      let lastT := (x.queue.getLast?).or x.shown.head?
      if (match lastT with | some (t, _) => decide (2 * (rate : Int) * (p - t) < 1000000000) | none => false) then .order
      else if 1024 < x.queue.length + n then .ovf
      else
        let ws := pduWords f (slice pdu 24 len)
        let fr := (List.range n).map (fun j => (p.toNat + j * 1000000000 / rate, (ws.drop (j * fmtCh f)).take (fmtCh f)))
        .taken fr (match x.lastSeq with | some q => decide (fieldLE pdu 2 1 ≠ (q + 1) % 256) | none => false)

/-- A listener takes the PDU at the head of its port's queue (R711, R719). -/
def listenerTake (e : Nat) (s : State) : State :=
  match takeHead s (56 + e) with
  | none => s
  | some (f, s) =>
    let take := (tickOf f.pres + 1) * 8
    let seq := fieldLE (avtpOf f.bytes) 2 1
    let note := fun (s : State) => setEp e { epOf s e with lastSeq := some seq } s
    match judgePdu s e f.bytes take with
    | .mismatch => bump s (epReg e 0x38) 0 16 1
    | .late => note (bump s (epReg e 0x3C) 0 16 1)
    | .order => note (bump s (epReg e 0x40) 16 16 1)
    | .ovf => note (bump s (epReg e 0x3C) 16 16 1)
    | .taken fr gap =>
      let s := if gap then bump s (epReg e 0x38) 16 16 1 else s
      let s := bump s (epReg e 0x34) 16 16 1
      note (setEp e { epOf s e with queue := (epOf s e).queue ++ fr } s)

/-- Sample frames whose instant has come are presented to the graph (R712). -/
def presentFrames (s : State) : State :=
  (List.range 8).foldl (fun s e =>
    let x := epOf s e
    let due := x.queue.filter (fun q => decide (tickOf q.1 ≤ curTick s))
    if due.isEmpty then s
    else setEp e { x with queue := x.queue.filter (fun q => !decide (tickOf q.1 ≤ curTick s)),
                          shown := (due.reverse ++ x.shown).take 1200, silent := false } s) s

/-- No sample frame within two periods of the last one (R713): the listener outputs 0. -/
def listenerUnder (e : Nat) (s : State) : State :=
  let x := epOf s e
  match x.shown with
  | [] => s
  | (t, _) :: _ =>
    if x.silent ∨ !bit (reg s (epReg e 0)) 1 ∨ s.time.now * fmtRate (epFmt s e) < t * fmtRate (epFmt s e) + 2000000000 then s
    else setEp e { x with silent := true, shown := [] } (bump s (epReg e 0x40) 0 16 1)

end Sys2Proof.Machine
end

