-- ==== Sys2Proof/Machine/AudioProc.lean ====
section
/-! DEFINITION. The audio graph, its converters, mixing, chains, outputs, limiter, detection, analysers and calibration (chapter 17). -/

namespace Sys2Proof.Machine

open Sys2Proof

/-! ## Arithmetic (R722, R723) -/

/-- τ of a graph sample (R722). -/
def tau (i : Nat) : Stamp := i * 62500 / 3

/-- A value clamped to 32 bits (R723). -/
def sat32 (v : Int) : Int := clampInt (-2147483648) 2147483647 v

/-- The gain of a ramp at a graph sample (R729). -/
def rampAt (r : Ramp) (i : Nat) : Nat :=
  if i < r.i0 then r.old
  else if i < r.i0 + 256 then ((r.old : Int) + Int.fdiv (((r.new : Int) - r.old) * ((i - r.i0 : Nat) : Int)) 256).toNat
  else r.new

/-- A new ramp to a value, from the effective gain of the moment (R729). -/
def newRamp (s : State) (cur : Nat → Nat) (target : Nat) : Ramp := ⟨cur (nextGraph s - 1), target, nextGraph s⟩

/-- The effective gain of AUDIO_GRAPH record r at a graph sample (R729). -/
def gainOf (s : State) (r i : Nat) : Nat :=
  match KMap.get? s.h.aud.gains r with
  | some g => rampAt g i
  | none => fieldOf s (0x502000 + 4 * r) 0 16

/-- A ramp of a record's effective gain. -/
def setGain (r target : Nat) (s : State) : State :=
  { s with h.aud.gains := KMap.put s.h.aud.gains r (newRamp s (gainOf s r) target) }

/-! ## The graph's records -/

/-- The AUDIO_GRAPH records with their indices. -/
def audGraph (s : State) : List (Bytes × Nat) := (recs s 7 0).zipIdx

/-- The source and the destination of a record as kind × 256 + index. -/
def recSrc (r : Bytes) : Nat := fieldLE r 0 1 * 256 + fieldLE r 1 1
@[inherit_doc recSrc] def recDst (r : Bytes) : Nat := fieldLE r 2 1 * 256 + fieldLE r 3 1

/-- The word of a node. -/
def wordOf (s : State) (k : Nat) : Int := KMap.getD s.h.aud.words k 0

/-- The state with a node's word set. -/
def setWord (k : Nat) (v : Int) (s : State) : State := { s with h.aud.words := KMap.put s.h.aud.words k v }

/-- A record's term σ × g × x at a graph sample (R728). -/
def recTerm (s : State) (r : Bytes × Nat) (i : Nat) (x : Int) : Int :=
  (if bit (fieldLE r.1 6 2) 0 then -1 else 1) * (gainOf s r.2 i : Int) * x

/-- What a destination receives from its record for a source value (R728); 0 where no record feeds it. -/
def fedBy (s : State) (dst i : Nat) (src : Nat → Int) : Int :=
  match (audGraph s).find? (fun r => recDst r.1 == dst) with
  | some r => sat32 (rdiv (recTerm s r i (src (recSrc r.1))) 4096)
  | none => 0

/-- The destinations of a kind that the graph feeds. -/
def dstsOf (s : State) (kind : Nat) : List Nat :=
  (((audGraph s).filter (fun r => fieldLE r.1 2 1 == kind)).map (fun r => recDst r.1)).dedup

/-! ## Sources (Table AUDA-1) -/

/-- Whether an input node delivers samples: it is on, and neither settling nor in calibration (R736, R737, R747). -/
def adcLive (s : State) (n : Nat) : Bool :=
  bit (reg s (0x500D00 + 0x10 * n)) 0 && (KMap.get? s.h.aud.inAt n).isNone && (KMap.get? s.h.aud.inAt (4 + n)).isNone &&
  !(match s.h.aud.cal with | some c => c.node == n && c.phase == 2 | none => false)

/-- Whether a PDM microphone delivers samples. -/
def pdmLive (s : State) (m : Nat) : Bool := bit (reg s 0x500D80) (m / 2) && (KMap.get? s.h.aud.inAt (8 + m / 2)).isNone

/-- The words of the input nodes for graph sample i (Table AUDA-1, R736): `codes` holds the decimated 24-bit codes of ADC channels 0 to 3 and microphones 0 to 3 stamped τ_(i−2). -/
def inputWords (codes : List Int) (s : State) : State :=
  (List.range 4).foldl (fun s n =>
    let adc := if adcLive s n then nth codes n 0 * 256 else 0
    let pdm := if pdmLive s n then nth codes (4 + n) 0 * 256 else 0
    setWord (0x1100 + n) (sat32 pdm) (setWord (0x1000 + n) (sat32 adc) s)) s

/-- The word of a receive channel of a lattice-synchronous port at graph sample i: frame k contributes to the sample two after its own. -/
def syncWord (s : State) (k i : Nat) : Int :=
  match (if i < 2 then none else syncFrame s (k % 256 / 32) (i - 2)) with
  | none => 0
  | some f => match (KMap.getD s.h.aud.hist k []).find? (fun e => e.1 == f) with
    | some e => e.2
    | none => 0

/-- The word of a source node at graph sample i. -/
def srcWord (s : State) (i k : Nat) : Int :=
  match k / 256 with
  | 0x01 => syncWord s k i
  | 0x1C => toSigned 32 ((KMap.get? s.h.aud.play (k % 256 * 1024 + i % 1024)).getD 0).toNat
  | _ => wordOf s k

/-! ## Sample-rate converters (R730 to R733, R752) -/

/-- The configuration of a converter (R730). -/
def asrcCfg (s : State) (a : Nat) : Nat := reg s (0x501000 + 0x20 * a)

/-- The framed port that is a converter's domain; none for an AAF listener. -/
def asrcPort (c : Nat) : Option Nat :=
  match bits c 1 2 with
  | 0 => some (bits c 3 3)
  | 1 => some (6 + bits c 3 3)
  | 2 => some (4 + bits c 3 3)
  | _ => none

/-- The instant t_f of a port's sample f (R731): the lattice of a master, the line through the last two block stamps of a slave or a receiver. -/
def sampleAt (s : State) (p : Nat) (f : Int) : Int :=
  if portMaster s p then
    (portAnchor s p : Int) + Int.fdiv (f * 1000000000) ((max 1 (portRate s p) : Nat) : Int)
  else match (portOf s p).b1, (portOf s p).b2 with
  | some (t1, f1), some (t2, f2) => (t2 : Int) + rdiv ((f - f2) * ((t2 : Int) - t1)) ((max 1 (f2 - f1) : Nat) : Int)
  | _, _ => 0

/-- The sample j of a port with t_j ≤ τ' < t_(j+1) (R732). -/
def sampleBefore (s : State) (p : Nat) (t : Int) : Int :=
  let g : Int :=
    if portMaster s p then Int.fdiv ((t - portAnchor s p) * (portRate s p : Int)) 1000000000
    else match (portOf s p).b1, (portOf s p).b2 with
    | some (t1, f1), some (t2, f2) => (f2 : Int) + Int.fdiv ((t - t2) * ((f2 : Int) - f1)) ((max 1 (t2 - t1) : Nat) : Int)
    | _, _ => 0
  ([3, 2, 1, 0, -1, -2, -3].map (fun d => g + d)).foldl (fun (b : Option Int) f =>
    match b with | some x => some x | none => if sampleAt s p f ≤ t then some f else none) none |>.getD (g - 4)

/-- Cubic Lagrange interpolation (R732). -/
def lagrange (m x0 x1 x2 x3 : Int) : Int :=
  let w0 := -m * (m - 65536) * (m - 131072)
  let w1 := 3 * (m + 65536) * (m - 65536) * (m - 131072)
  let w2 := -3 * (m + 65536) * m * (m - 131072)
  let w3 := (m + 65536) * m * (m - 65536)
  sat32 (rdiv (w0 * x0 + w1 * x1 + w2 * x2 + w3 * x3) (6 * 2 ^ 48))

/-- The sample of an index in a channel's history, newest first, and whether it had to be replaced by the latest (R733). -/
def histAt (l : List (Int × Int)) (f : Int) : Int × Nat :=
  match l with
  | [] => (0, 0)
  | (n, v) :: _ =>
    if n < f then (v, 1)
    else match l.find? (fun e => e.1 == f) with | some e => (e.2, 0) | none => (0, 0)

/-- A channel interpolated at τ' between samples j and j + 1 at t0 and t1: the value, and the samples replaced. -/
def interpolate (l : List (Int × Int)) (j t t0 t1 : Int) : Int × Nat :=
  let m := Int.fdiv (65536 * (t - t0)) (max 1 (t1 - t0))
  let a := histAt l (j - 1)
  let b := histAt l j
  let c := histAt l (j + 1)
  let d := histAt l (j + 2)
  (lagrange m a.1 b.1 c.1 d.1, a.2 + b.2 + c.2 + d.2)

/-- Whether a port's domain has what a converter needs (R733). -/
def domainReady (s : State) (p : Nat) : Bool :=
  let x := portOf s p
  x.run && decide (4 ≤ x.count) && (portMaster s p || (x.lock && x.b1.isSome && x.b2.isSome))

/-- The presented frames of a listener, newest first, numbered downward from 0, as one channel's history. -/
def listenerHist (x : AEp) (ch : Nat) : List (Int × Int) :=
  x.shown.zipIdx.map (fun p => (-(p.2 : Int), toSigned 32 (nth p.1.2 ch 0).toNat))

/-- The value of a listener's channel at τ', and the samples replaced; 0 before four samples or while it is silent. -/
def listenerValue (s : State) (e ch : Nat) (t : Int) : Int × Nat :=
  let x := epOf s e
  if x.shown.length < 4 ∨ x.silent then (0, 0)
  else
    match x.shown.findIdx? (fun q => decide ((q.1 : Int) ≤ t)) with
    | none => (0, 0)
    | some k =>
      let t0 : Int := (nth x.shown k (0, [])).1
      let t1 : Int := if k = 0 then t0 + 1000000000 / fmtRate (epFmt s e) else (nth x.shown (k - 1) (0, [])).1
      interpolate (listenerHist x ch) (-(k : Int)) t t0 t1

/-- One channel of an inbound converter at graph sample i (R732, R733, R752). -/
def inboundValue (s : State) (a ch i : Nat) : Int × Nat :=
  let c := asrcCfg s a
  let t : Int := (tau i : Int) - (bits c 16 13 * 1000 : Nat)
  match (audGraph s).find? (fun r => recDst r.1 == 0x1400 + a * 8 + ch) with
  | none => (0, 0)
  | some r =>
    let (v, n) := match asrcPort c with
      | none => listenerValue s (bits c 3 3) (recSrc r.1 % 8) t
      | some p =>
        if domainReady s p then
          let j := sampleBefore s p t
          interpolate ((KMap.getD s.h.aud.hist (recSrc r.1) []).map (fun e => ((e.1 : Int), e.2))) j t (sampleAt s p j) (sampleAt s p (j + 1))
        else (0, 0)
    (sat32 (rdiv (recTerm s r i v) 4096), n)

/-- Whether a converter's domain delivers. -/
def asrcReady (s : State) (a : Nat) : Bool :=
  match asrcPort (asrcCfg s a) with
  | some p => domainReady s p
  | none => true

/-- The output word of a converter channel: its value, or, after a loss of lock, its last word ramped to 0 (R752). -/
def asrcOut (s : State) (a ch i : Nat) (v : Int) : Int :=
  match KMap.get? s.h.aud.asrcOff a with
  | none => v
  | some i0 => sat32 (rdiv ((rampAt ⟨4096, 0, i0⟩ i : Int) * wordOf s (0x9500 + a * 8 + ch)) 4096)

/-- The inbound converters at graph sample i. -/
def inboundStep (i : Nat) (s : State) : State :=
  (List.range 8).foldl (fun s a =>
    let c := asrcCfg s a
    if bit c 0 ∨ bits c 6 4 = 0 then s
    else
      let s := if asrcReady s a ∧ (KMap.get? s.h.aud.asrcOff a).isSome then { s with h.aud.asrcOff := KMap.del s.h.aud.asrcOff a } else s
      let off := (KMap.get? s.h.aud.asrcOff a).isSome
      (List.range (bits c 6 4)).foldl (fun s ch =>
        let (v, n) := if off then (0, 0) else inboundValue s a ch i
        let s := if off then s else setWord (0x9500 + a * 8 + ch) v s
        bump (setWord (0x1500 + a * 8 + ch) (asrcOut s a ch i v) s) (0x501004 + 0x20 * a) 0 16 n) s) s

/-- One channel of an outbound converter at its domain sample f: graph samples at their instants (R732). -/
def outboundValue (s : State) (a ch : Nat) (tf : Int) : Int × Nat :=
  let c := asrcCfg s a
  let t : Int := tf - (bits c 16 13 * 1000 : Nat)
  let j := Int.fdiv (3 * t + 2) 62500
  interpolate ((KMap.getD s.h.aud.hist (0x1400 + a * 8 + ch) []).map (fun e => ((e.1 : Int), e.2))) j t
    (Int.fdiv (j * 62500) 3) (Int.fdiv ((j + 1) * 62500) 3)

/-- A transmit channel's word put into its port's ring for frame f (R696, R705). -/
def putTx (p ch f : Nat) (v : Int) (s : State) : State :=
  let x := portOf s p
  let k := if p < 4 then f % max 1 (bits (cfgOf s p 0x18) 0 12) * popcount (cfgOf s p 0x14) + ch else 2 * (f % 1024) + ch
  setPort p { x with tx := KMap.put x.tx k (BitVec.ofNat 32 (ofSigned 32 v)) } s

/-- The transmit channels of a port with their kind and index (Table AUDP-2). -/
def txKey (p ch : Nat) : Nat := if p < 4 then 0x200 + p * 32 + ch else 0x400 + (p - 4) * 2 + ch

/-- The outbound converter words of a port's frame f, computed before the frame (R697, R732, R733, R752). -/
def outboundFrame (p f : Nat) (s : State) : State :=
  if latticeSync s p then s
  else (List.range (if p < 4 then 32 else 2)).foldl (fun s ch =>
    match (audGraph s).find? (fun r => recDst r.1 == txKey p ch) with
    | none => s
    | some r =>
      let a := recSrc r.1 % 256 / 8
      let (v, n) := if domainReady s p then outboundValue s a (recSrc r.1 % 8) (sampleAt s p f) else (0, 0)
      let s := if domainReady s p then setWord (0x9500 + recSrc r.1 % 256) v { s with h.aud.asrcOff := KMap.del s.h.aud.asrcOff a } else s
      let v := asrcOut s a (recSrc r.1 % 8) s.h.aud.gi v
      putTx p ch f (sat32 (rdiv (recTerm s r s.h.aud.gi v) 4096)) (bump (setWord (recSrc r.1) v s) (0x501004 + 0x20 * a) 0 16 n)) s

/-! ## Biquads (R734, R735, R743) -/

/-- The key of a section: chain c section s, or analyser a band b section s. -/
def bqKey (c sec : Nat) : Nat := c * 8 + sec
@[inherit_doc bqKey] def baKey (a b sec : Nat) : Nat := 0x1000 + a * 16 + b * 2 + sec

/-- The register of the first coefficient of a section. -/
def bqReg (k : Nat) : Nat :=
  if k < 0x1000 then 0x503000 + 0x100 * (k / 8) + 0x20 * (k % 8)
  else 0x504040 + 0x400 * ((k - 0x1000) / 16) + 0x40 * ((k - 0x1000) % 16 / 2) + 0x20 * (k % 2)

/-- The coefficients as their registers hold them. -/
def bqRegs (s : State) (k : Nat) : List Int := (List.range 5).map (fun i => toSigned 32 (reg s (bqReg k + 4 * i)))

/-- A section's state. -/
def bqOf (s : State) (k : Nat) : Biquad := (KMap.get? s.h.aud.bq k).getD ⟨bqRegs s k, none, [0, 0, 0, 0]⟩

/-- One sample through a section: the state and y (R734). -/
def bqStep (b : Biquad) (x : Int) : Biquad × Int :=
  let c := fun i => nth b.co i 0
  let m := fun i => nth b.mem i 0
  let y := sat32 (rdiv (c 0 * x + c 1 * m 0 + c 2 * m 1 - c 3 * m 2 - c 4 * m 3) (2 ^ 30))
  ({ b with mem := [x, m 0, y, m 2] }, y)

/-- A section with the coefficients of a commit that is due (R735). -/
def bqDue (b : Biquad) (i : Nat) : Biquad :=
  match b.next with
  | some (i0, co) => if i0 ≤ i then { b with co := co, next := none } else b
  | none => b

/-- A sample through sections in series. -/
def bqRun (i : Nat) (keys : List Nat) (s : State) (x : Int) : State × Int :=
  keys.foldl (fun a k =>
    let (b, y) := bqStep (bqDue (bqOf a.1 k) i) a.2
    ({ a.1 with h.aud.bq := KMap.put a.1.h.aud.bq k b }, y)) (s, x)

/-- A section's COMMIT written 1 (R735). -/
def bqCommit (k : Nat) (s : State) : State :=
  let b := bqDue (bqOf s k) (nextGraph s - 1)
  { s with h.aud.bq := KMap.put s.h.aud.bq k { b with next := some (nextGraph s, bqRegs s k) } }

/-- A coefficient register is written: the section keeps the coefficients in force until a commit (R735). -/
def bqHold (k i old : Nat) (s : State) : State :=
  match KMap.get? s.h.aud.bq k with
  | some _ => s
  | none => { s with h.aud.bq := KMap.put s.h.aud.bq k ⟨(bqRegs s k).set i (toSigned 32 old), none, [0, 0, 0, 0]⟩ }

/-! ## Outputs (R738, R749) -/

/-- An output node: 0 the speaker bridge, 1 and 2 the line DACs. -/
def outOf (s : State) (n : Nat) : AOut := if n = 0 then s.h.aud.spk else nth s.h.aud.dac (n - 1) AOut.reset

/-- The state with an output node replaced. -/
def setOut (n : Nat) (o : AOut) (s : State) : State :=
  if n = 0 then { s with h.aud.spk := o } else { s with h.aud.dac := s.h.aud.dac.set (n - 1) o }

/-- The control register of an output node. -/
def outReg (n : Nat) : Nat := if n = 0 then 0x500E40 else 0x500E00 + 0x10 * (n - 1)

/-- PRECHARGE and DISCHARGE last 20 ms at the speaker and 10 ms at a DAC. -/
def outMs (n : Nat) : Nat := if n = 0 then 20000000 else 10000000

/-- An output node leaves OFF: the speaker asks leave, a DAC precharges. -/
def outStart (n : Nat) (s : State) : State :=
  if n = 0 then askLeave false 5 0 s.time.now (setOut 0 { outOf s 0 with st := 1, again := false } s)
  else setOut n { outOf s n with st := 2, again := false, at_ := s.time.now + outMs n } s

/-- The speaker's leave is granted (R738). -/
def spkGranted (s : State) : State :=
  if (outOf s 0).st = 1 then setOut 0 { outOf s 0 with st := 2, at_ := s.time.now + outMs 0 } s else giveLeave false 5 0 s

/-- The speaker's leave was not granted in time. -/
def spkRefused (s : State) : State :=
  if (outOf s 0).st = 1 then setField (setOut 0 { outOf s 0 with st := 0 } s) 0x500E44 3 1 1 else s

/-- The gain u of an output node as a ramp to a target. -/
def rampOut (s : State) (o : AOut) (target : Nat) : AOut := { o with u := newRamp s (rampAt o.u) target }

/-- An output node discharges. -/
def outDischarge (n : Nat) (s : State) : State := setOut n { outOf s n with st := 5, u := ⟨0, 0, 0⟩, at_ := s.time.now + outMs n } s

/-- EN of an output node written (Table AUDA-4, R749). -/
def outWrite (n : Nat) (old new : Bool) (s : State) : State :=
  let o := outOf s n
  if new then
    if o.st = 0 then outStart n s
    else if (o.st = 4 ∨ o.st = 5) then setOut n { o with again := true } s else s
  else if o.st = 1 then outDischarge n (dropLeave false 5 0 s)
  else if o.st = 2 then outDischarge n s
  else if o.st = 3 then setOut n { rampOut s o 0 with st := 4 } s
  else if o.st = 6 then (if o.cause then s else (let s := setOut n { o with st := 0 } s; if n = 0 then giveLeave false 5 0 s else s))
  else if old then setOut n { o with again := false } s else s

/-- PRECHARGE ends. -/
def outPrecharged (n : Nat) (s : State) : State :=
  let o := outOf s n
  if o.st = 2 ∧ o.at_ ≤ s.time.now then setOut n { o with st := 3, u := ⟨0, 4096, nextGraph s⟩ } s else s

/-- The ramp-down ends. -/
def outRamped (n : Nat) (s : State) : State :=
  let o := outOf s n
  if o.st = 4 ∧ o.u.i0 + 256 ≤ s.h.aud.gi then outDischarge n s else s

/-- DISCHARGE ends: OFF, the speaker's leave released, and a write of 1 that waited takes effect. -/
def outDischarged (n : Nat) (s : State) : State :=
  let o := outOf s n
  if o.st = 5 ∧ o.at_ ≤ s.time.now then
    let s := setOut n { o with st := 0 } s
    let s := if n = 0 then giveLeave false 5 0 s else s
    if o.again then outStart n s else s
  else s

/-! ## Calibration (R746, R747, R750) -/

/-- The output node of a calibration node; none for an ADC channel. -/
def calOut (node : Nat) : Option Nat := if node < 4 then none else if node = 6 then some 0 else some (node - 3)

/-- The records whose source is an ADC channel. -/
def adcRecs (s : State) (n : Nat) : List Nat := ((audGraph s).filter (fun r => recSrc r.1 == 0x1000 + n)).map (fun r => r.2)

/-- Whether the path of a node is silent (R746): `adcQuiet` holds the graph sample after the last one at which a record of the channel had a gain. -/
def calSilent (s : State) (node : Nat) : Bool :=
  match calOut node with
  | some o => decide (2400 ≤ (outOf s o).zeros)
  | none => match KMap.get? s.h.aud.adcQuiet node with
    | some g => decide (g + 2400 ≤ s.h.aud.gi)
    | none => true

/-- Service of a request begins: leave is asked for (R747). -/
def calServe (c : ACal) (s : State) : State :=
  askLeave false 6 (1 + c.node) s.time.now { s with h.aud.cal := some { c with phase := 1 } }

/-- The path of a forced request ramped: to 0, or back (R746, R747). -/
def calRamp (node : Nat) (back : Bool) (s : State) : State :=
  match calOut node with
  | some o =>
    let x := outOf s o
    if x.st = 3 then setOut o (rampOut s x (if back then 4096 else 0)) s else s
  | none => (adcRecs s node).foldl (fun s r => setGain r (if back then fieldOf s (0x502000 + 4 * r) 0 16 else 0) s) s

/-- A write of AUD.CALREQ (R746). -/
def audCalRequest (node : Nat) (force : Bool) (s : State) : State :=
  let on := match calOut node with
    | some o => (outOf s o).st == 3
    | none => bit (reg s (0x500D00 + 0x10 * node)) 0
  if s.h.aud.cal.isSome then { s with h.aud.calRes := 4 }
  else if !on then { s with h.aud.calRes := 5 }
  else if calSilent s node then calServe ⟨node, false, 1, 0⟩ s
  else if !force then { s with h.aud.calRes := 2 }
  else calRamp node false { s with h.aud.cal := some ⟨node, true, 0, nextGraph s + 256 + 2400⟩ }

/-- A forced request has held 2,400 samples (R746). -/
def calHeld (s : State) : State :=
  match s.h.aud.cal with
  | some c => if c.phase = 0 ∧ c.at_ ≤ s.h.aud.gi then calServe c s else s
  | none => s

/-- Leave for a calibration is granted (R747). -/
def audCalGranted (s : State) : State :=
  match s.h.aud.cal with
  | some c => if c.phase = 1 then
      { s with h.aud.cal := some { c with phase := 2, at_ := s.time.now + (if c.node < 4 then 5000000 else 10000000) } } else s
  | none => s

/-- A request ends with a result (R747). -/
def audCalEnd (res : Nat) (s : State) : State :=
  match s.h.aud.cal with
  | none => s
  | some c =>
    let s := { s with h.aud.cal := none, h.aud.calRes := res }
    if c.forced then calRamp c.node true s else s

/-- A calibration ends (R747). -/
def audCalDone (s : State) : State :=
  match s.h.aud.cal with
  | some c => if c.phase = 2 ∧ c.at_ ≤ s.time.now then audCalEnd 1 (giveLeave false 6 (1 + c.node) s) else s
  | none => s

/-! ## Faults of outputs (R738, R740, R750, R836) -/

/-- A short, overcurrent or over-temperature, or VSPK below 6 V (`vspk`): switching stops and the node's source is raised. -/
def outFault (n : Nat) (vspk : Bool) (s : State) : State :=
  let s := if vspk ∧ n = 0 then { s with sys.vspkOk := false } else s
  let o := outOf s n
  if o.st = 0 then s
  else
    let s := if n = 0 ∧ o.st = 1 then dropLeave false 5 0 s else s
    let s := raise (0x66 + n) 0 (setOut n { o with st := 6, cause := true, again := false, u := ⟨0, 0, 0⟩ } s)
    match s.h.aud.cal with
    | some c =>
      if calOut c.node = some n then
        let s := if c.phase = 2 then giveLeave false 6 (1 + c.node) s else if c.phase = 1 then dropLeave false 6 (1 + c.node) s else s
        { s with h.aud.cal := none, h.aud.calRes := 6 }
      else s
    | none => s

/-- A fault's cause clears (R738, R836): a node whose EN is 0 returns to OFF. -/
def causeCleared (n : Nat) (vspk : Bool) (s : State) : State :=
  let s := if vspk ∧ n = 0 then { s with sys.vspkOk := true } else s
  let o := outOf s n
  let s := setOut n { o with cause := false } s
  if o.st = 6 ∧ !bit (reg s (outReg n)) 0 then
    (let s := setOut n { o with st := 0, cause := false } s; if n = 0 then giveLeave false 5 0 s else s)
  else s

/-! ## The limiter (R739, R740) -/

/-- The end of a 48-sample block. -/
def limiterBlock (s : State) : State :=
  let a := s.h.aud
  if a.limCnt = 0 ∨ a.gi % 48 ≠ 0 then s
  else
    let p := rdiv ((a.limE : Int) * (reg s 0x500E80 : Int)) (48 * 2 ^ 30)
    let tc := a.limTc + rdiv (p * (fieldOf s 0x500E84 0 16 : Int) - (a.limTc - a.limTm)) ((max 1 (reg s 0x500E88) : Nat) : Int)
    let tm := a.limTm + rdiv (p * (fieldOf s 0x500E84 16 16 : Int) - a.limTm) ((max 1 (reg s 0x500E8C) : Nat) : Int)
    let rise : Int := reg s 0x500E90
    let gmin := fieldOf s 0x500E94 16 16
    let g :=
      if rise ≤ tc then max gmin (a.limG - fieldOf s 0x500E98 0 16)
      else if tc < rise - (fieldOf s 0x500E94 0 16 : Int) then min 4096 (a.limG + fieldOf s 0x500E98 16 16)
      else a.limG
    let s := { s with h.aud.limTc := tc, h.aud.limTm := tm, h.aud.limG := g, h.aud.limE := 0, h.aud.limCnt := 0 }
    if g = gmin ∧ rise ≤ tc then raise 0x70 0 s else s

/-! ## Analysers (R743 to R745) -/

/-- The band-energy record of an analyser's window (Table AUDA-6). -/
def bandRecord (s : State) (a : Nat) (b : Band) (last : Nat) : Bytes :=
  let nb := fieldOf s (0x504000 + 0x400 * a) 1 3 + 1
  let (k, x) := match (audGraph s).find? (fun r => recDst r.1 == 0x1A00 + a) with
    | some r => (recSrc r.1 / 256, recSrc r.1 % 256)
    | none => (0, 0)
  let flags := putBits b.flags 7 1 (b2n (decide (b.wseq = 0)))
  [byte 1, byte 2, byte a, byte nb] ++ le 2 flags ++ [byte k, byte x, 0, 0, 0, 0] ++ le 4 b.wseq ++ le 4 b.cnt ++ le 4 0 ++
  le 8 b.opened ++ le 8 (tau last) ++ (List.range 8).flatMap (fun i => le 8 (if i < nb then nth b.e i 0 else 0))

/-- An analyser's window closes: its record is kept and handed to the publisher (R745). -/
def bandClose (a : Nat) (s : State) : State :=
  let b := nth s.h.aud.bands a ⟨false, 0, 0, 0, 0, [], 0, 0⟩
  if !b.run ∨ b.cnt = 0 ∨ b.cnt < b.win then s
  else
    let last := s.h.aud.gi - 1
    let r := bandRecord s a b last
    { s with
      h.aud.bandRec := KMap.put s.h.aud.bandRec a r, h.aud.bandOut := s.h.aud.bandOut ++ [(tickOf (tau last), r)],
      h.aud.bands := s.h.aud.bands.set a { b with cnt := 0, wseq := (b.wseq + 1) % 2 ^ 32, e := [], flags := 0 } }

/-- BACFG.EN of an analyser written (R743). -/
def bandEffect (a : Nat) (old new : Bool) (s : State) : State :=
  if !old && new then { s with h.aud.bands := s.h.aud.bands.set a ⟨true, nextGraph s, 0, 0, 0, [], 0, 0⟩ }
  else if old && !new then { s with h.aud.bands := s.h.aud.bands.set a ⟨false, 0, 0, 0, 0, [], 0, 0⟩ }
  else s

/-- One graph sample at an analyser (R743). -/
def bandSample (i a : Nat) (s : State) : State :=
  let s := bandClose a s
  let b := nth s.h.aud.bands a ⟨false, 0, 0, 0, 0, [], 0, 0⟩
  if !b.run ∨ i < b.i0 then s
  else
    let cfg := reg s (0x504000 + 0x400 * a)
    let x := fedBy s (0x1A00 + a) i (srcWord s i)
    let (s, es) := (List.range (bits cfg 1 3 + 1)).foldl (fun acc k =>
      let (s, y) := bqRun i [baKey a k 0, baKey a k 1] acc.1 x
      (s, acc.2 ++ [nth b.e k 0 + (Int.fdiv y 65536 * Int.fdiv y 65536).toNat])) (s, [])
    let adc := match (audGraph s).find? (fun r => recDst r.1 == 0x1A00 + a) with | some r => recSrc r.1 | none => 0
    let cal := match s.h.aud.cal with | some c => decide (c.phase = 2) && decide (c.node < 4) && adc == 0x1000 + c.node | none => false
    let clip := decide (x = -2147483648) || decide (x = 2147483647)
    let fl := Nat.lor b.flags (b2n clip * 64 + b2n cal * 512)
    let b := { b with e := es.map (fun v => v % 2 ^ 64), cnt := b.cnt + 1, flags := fl,
                      opened := if b.cnt = 0 then tau i else b.opened, win := if b.cnt = 0 then bits cfg 8 24 else b.win }
    { s with h.aud.bands := s.h.aud.bands.set a b }

/-! ## One graph sample (R722, R727) -/

/-- The mixer (R728). -/
def mixStep (i : Nat) (s : State) : State :=
  let s := (dstsOf s 0x12).foldl (fun s d => setWord d (fedBy s d i (srcWord s i)) s) s
  (dstsOf s 0x13).foldl (fun s d =>
    let sum := ((audGraph s).filter (fun r => recDst r.1 == d)).foldl (fun n r => n + recTerm s r i (wordOf s (recSrc r.1))) 0
    setWord d (sat32 (rdiv sum 4096)) s) s

/-- The chains (R734). -/
def chainStep (i : Nat) (s : State) : State :=
  (dstsOf s 0x16).foldl (fun s d =>
    let c := d % 256
    let x := fedBy s d i (srcWord s i)
    let (s, y) := bqRun i ((List.range (min 8 (fieldOf s (0x501800 + 4 * c) 0 4))).map (bqKey c)) (setWord d x s) x
    setWord (0x1700 + c) y s) s

/-- An output node's sample (R738, R739, R747). -/
def outStep (i n : Nat) (s : State) : State :=
  let o := outOf s n
  let x := fedBy s (if n = 0 then 0x1900 else 0x1800 + (n - 1)) i (srcWord s i)
  let mute := match s.h.aud.cal with | some c => decide (c.phase = 2) && decide (calOut c.node = some n) | none => false
  let v := if mute then 0 else if n = 0 then sat32 (rdiv ((s.h.aud.limG : Int) * x) 4096) else x
  let y := if o.st = 3 ∨ o.st = 4 then sat32 (rdiv ((rampAt o.u i : Int) * v) 4096) else 0
  let s := setOut n { o with zeros := if x = 0 then min 2400 (o.zeros + 1) else 0, last := y } s
  if n = 0 then
    let q := Int.fdiv (if o.st = 3 then y else 0) 65536
    { s with h.aud.limE := s.h.aud.limE + (q * q).toNat, h.aud.limCnt := s.h.aud.limCnt + 1 }
  else s

/-- Words a destination needs later: outbound converter inputs and talker channels, newest first. -/
def keepWord (i d : Nat) (v : Int) (s : State) : State :=
  { s with h.aud.hist := KMap.put s.h.aud.hist d (((i, v) :: KMap.getD s.h.aud.hist d []).take 400) }

/-- Port transmit channels, outbound converter inputs, talker channels and capture rings (Table AUDA-1). -/
def sinkStep (i : Nat) (s : State) : State :=
  let put := fun (s : State) (d : Nat) => keepWord i d (fedBy s d i (srcWord s i)) s
  let s := (dstsOf s 0x14).foldl (fun s d => if bit (asrcCfg s (d % 256 / 8)) 0 then put s d else s) s
  let s := (dstsOf s 0x06).foldl put s
  let tx := fun (s : State) (d : Nat) =>
    let k := d % 256
    let (p, ch) := if d / 256 = 2 then (k / 32, k % 32) else (4 + k / 2, k % 2)
    if latticeSync s p then
      match syncFrame s p (i + 2) with
      | some f => putTx p ch f (fedBy s d i (srcWord s i)) s
      | none => s
    else s
  let s := (dstsOf s 0x02 ++ dstsOf s 0x04).foldl tx s
  (dstsOf s 0x1D).foldl (fun s d =>
    { s with h.aud.cap := KMap.put s.h.aud.cap (d % 256 * 1024 + i % 1024) (BitVec.ofNat 32 (ofSigned 32 (fedBy s d i (srcWord s i)))) }) s

/-- The ADC channels that a record with a gain hears (R746). -/
def quietStep (i : Nat) (s : State) : State :=
  (List.range 4).foldl (fun s n =>
    if (adcRecs s n).any (fun r => gainOf s r i != 0) then { s with h.aud.adcQuiet := KMap.put s.h.aud.adcQuiet n (i + 1) } else s) s

/-- Graph sample i computed at the commit of its tick (R722). -/
def graphSample (codes : List Int) (s : State) : State :=
  let s := limiterBlock s
  let i := s.h.aud.gi
  let s := inboundStep i (inputWords codes s)
  let s := chainStep i (mixStep i s)
  let s := (List.range 3).foldl (fun s n => outStep i n s) s
  let s := sinkStep i s
  let s := (List.range 8).foldl (fun s a => bandSample i a s) s
  let s := quietStep i s
  { s with h.aud.gi := i + 1 }

/-- The talkers whose lattice instant has come gather a sample frame (R709, Table AUDA-1). -/
def talkStep (s : State) : State :=
  (List.range 8).foldl (fun s e =>
    let x := epOf s e
    let f := epFmt s e
    let t := x.nextI * 1000000000 / fmtRate f
    if !x.talk ∨ curTick s < tickOf t then s
    else
      let ws := (List.range (fmtCh f)).map (fun ch =>
        match (KMap.getD s.h.aud.hist (0x600 + e * 8 + ch) []).find? (fun w => decide (tau (w.1 + 2) ≤ t)) with
        | some w => BitVec.ofNat 32 (ofSigned 32 w.2)
        | none => (0 : Word))
      setEp e { x with nextI := x.nextI + 1, gather := x.gather ++ [(t, ws)],
                       tv := if x.gather.isEmpty then bit (reg s 0x3002C) 0 else x.tv } s) s

/-- Master TDM ports whose next frame begins in this tick latch its words (R697). -/
def latchStep (s : State) : State :=
  (List.range 4).foldl (fun s n =>
    let p := portOf s n
    if p.run && portMaster s n && tickOf (frameAt s n p.frame) == curTick s then tdmLatch n (outboundFrame n p.frame s) else s) s

/-- Whether the graph runs: an image is in force and the islands have power (R56, R722, R754). -/
def graphOn (s : State) : Bool :=
  s.h.img.image.isSome && s.h.img.committed && (s.sys.mode.live || s.sys.mode == .hold || s.sys.mode == .build)

/-- The audio subsystem at a tick: presentations, a graph sample whose τ lies in the tick, talkers, and frames that begin. -/
def audioTick (codes : List Int) (s : State) : State :=
  if graphOn s then
    let s := presentFrames s
    let s := if tickOf (tau s.h.aud.gi) ≤ curTick s then graphSample codes s else s
    latchStep (talkStep s)
  else s

/-! ## Inputs, detection and microphones (R737, R741, R742) -/

/-- ADCCTL of a channel or PDMCTL written (R737): what is switched on delivers 0 for 6 ms. -/
def inputEffect (key : Nat) (old new : Bool) (s : State) : State :=
  if !old && new then { s with h.aud.inAt := KMap.put s.h.aud.inAt key s.time.now }
  else if old && !new then { s with h.aud.inAt := KMap.del s.h.aud.inAt key }
  else s

/-- An input has settled: ADC channels 0 to 3, biases 4 to 7, PDM interfaces 8 and 9 (R737). -/
def inputSettled (key : Nat) (s : State) : State :=
  match KMap.get? s.h.aud.inAt key with
  | some t => if t + 6000000 ≤ s.time.now then { s with h.aud.inAt := KMap.del s.h.aud.inAt key } else s
  | none => s

/-- A load measurement starts where the node is OFF (R741): 0 the speaker, 1 and 2 the line outputs. -/
def detectStart (n : Nat) (s : State) : State :=
  if (outOf s n).st ≠ 0 ∨ (KMap.get? s.h.aud.detBusy n).isSome then s
  else { s with h.aud.detBusy := KMap.put s.h.aud.detBusy n (s.time.now + (if n = 0 then 30000000 else 10000000)) }

/-- A load measurement ends (R741): its class, and for the speaker its resistance in 10 mΩ. -/
def detectDone (n cls r : Nat) (s : State) : State :=
  match KMap.get? s.h.aud.detBusy n with
  | none => s
  | some t =>
    if s.time.now < t then s
    else
      let s := { s with h.aud.detBusy := KMap.del s.h.aud.detBusy n, h.aud.det := KMap.put s.h.aud.det n (cls % 8) }
      let s := if n = 0 then { s with h.aud.spkRes := min r 0xFFFF } else s
      if cls % 8 = 0 then s else raise (0x69 + n) 0 s

/-- A bias current sample's class (R742): reported after three successive samples. -/
def micSample (n cls : Nat) (s : State) : State :=
  if !bit (reg s (0x500D00 + 0x10 * n)) 8 ∨ 4 ≤ n then s
  else
    let l := if s.h.aud.mic.length = 4 then s.h.aud.mic else List.replicate 4 (0, 0)
    let (c, k) := nth l n (0, 0)
    let k := if c = cls % 8 then min 4 (k + 1) else 1
    let s := { s with h.aud.mic := l.set n (cls % 8, k) }
    if k = 3 then
      let s := { s with h.aud.det := KMap.put s.h.aud.det (3 + n) (cls % 8) }
      if cls % 8 = 0 then s else raise (0x6C + n) 0 s
    else s

/-! ## BUILD commit (R701, R734, R739) -/

/-- The audio subsystem as BUILD commit leaves it: every enabled port, endpoint, input and output takes its enable as a write of 1. -/
def audioStart (s : State) : State :=
  let s := { s with h.aud := { Audio.reset with gi := nextGraph s } }
  let s := (List.range 2).foldl (fun s x => setPort (4 + x) { portOf s (4 + x) with cs := regBytes s (portBase (4 + x) + 0x10) } s) s
  let s := (List.range 8).foldl (fun s i => portEnable i false (bit (reg s (portBase i)) 0) s) s
  let s := (List.range 8).foldl (fun s e => epctlEffect e 0 (reg s (epReg e 0)) s) s
  let s := (List.range 4).foldl (fun s n =>
    inputEffect (4 + n) false (bit (reg s (0x500D00 + 0x10 * n)) 8) (inputEffect n false (bit (reg s (0x500D00 + 0x10 * n)) 0) s)) s
  let s := (List.range 2).foldl (fun s n => inputEffect (8 + n) false (bit (reg s 0x500D80) n) s) s
  let s := (List.range 3).foldl (fun s n => if bit (reg s (outReg n)) 0 then outStart n s else s) s
  (List.range 8).foldl (fun s a => bandEffect a false (bit (reg s (0x504000 + 0x400 * a)) 0) s) s

end Sys2Proof.Machine
end

