-- ==== Sys2Proof/Machine/Debug.lean ====
section
/-! DEFINITION. Debug access: the TAP, tokens and sessions, run control (chapter 21). -/

namespace Sys2Proof.Machine

open Sys2Proof

/-! ## Sessions (R862 to R867, R880 to R885) -/

/-- A new challenge (R863): all zero where the DRBG cannot deliver. -/
def newChallenge (s : State) : State :=
  if s.h.sp.health then
    let (s, bs) := drbgDraw 16 s
    { s with h.dbg.chal := bs }
  else { s with h.dbg.chal := List.replicate 16 0 }

/-- DBG.STATUS.STATE (Table DBG-3). -/
def dbgState (s : State) : Nat :=
  let d := s.h.dbg
  if d.token.isSome then 1 else if d.open_ then 2 else if d.blockEnd.isSome then 3 else 0

/-- A session ends (R863, R867, R885): harts resume, the program buffers and the DEBUG windows are cleared, a new challenge is drawn. -/
def endSession (s : State) : State :=
  if !s.h.dbg.open_ then s
  else newChallenge { s with
    h.dbg.open_ := false, h.dbg.grant := 0, h.dbg.until_ := 0, h.dbg.haltMp := false, h.dbg.haltFs := false,
    h.dbg.progMp := List.replicate 8 0, h.dbg.progFs := List.replicate 8 0,
    h.port.windows := KMap.del s.h.port.windows 4, f.windows := KMap.del s.f.windows 4 }

/-- The debug part of a host-die reset or an entry into STANDBY on the field die (R866, R867). -/
def dropFieldDebug (s : State) : State := { s with f.windows := KMap.del s.f.windows 4 }

/-- The stored update counter changes (R866, R881). -/
def counterChanged (n : Nat) (s : State) : State :=
  endSession { s with keeper.updCnt := n % 2 ^ 32, h.dbg.cntTick := curTick s + 1 }

/-- Whether the TAP's debug functions are busy (R861). -/
def dbgBusy (s : State) : Bool := s.sys.inReset.isSome || s.sys.mode == .standby || s.sys.mode == .build

/-- The parts of a token (Table DBG-2). -/
def tokGrant (t : Bytes) : Nat := fieldLE t 6 2
@[inherit_doc tokGrant] def tokFa (t : Bytes) : Bool := bit (fieldLE t 5 1) 0

/-- The checks 1 to 3 of a token, which need no leave (R864): the code of the first that fails. -/
def tokenEarly (s : State) (t : Bytes) : Option Nat :=
  if slice t 0 4 ≠ [0x44, 0x42, 0x47, 0x54] ∨ fieldLE t 4 1 ≠ 1 ∨ 1 < fieldLE t 5 1 ∨ 31 < tokGrant t then some 2
  else if slice t 0x10 16 ≠ s.otp.uid then some 3
  else if padTo 48 (Config.sha384 (slice t 0x40 96)) ≠ padTo 48 s.otp.updHash then some 4
  else none

/-- The checks 5 to 9 of a token (R864, R863, R881). -/
def tokenLate (s : State) (t : Bytes) : Nat :=
  let resp := slice t 0x30 16
  let digest := padTo 48 (Config.sha384 (t.take 0xA0))
  if !Config.ecdsaVerify 1 (slice t 0x40 96) digest (slice t 0xA0 96) then 5
  else if fieldLE t 8 4 ≠ s.keeper.updCnt ∨ s.h.dbg.cntTick = s.h.dbg.tokTick + 1 then 6
  else if slice t 0x20 16 ≠ s.h.dbg.chal ∨ s.h.dbg.chal = List.replicate 16 0 then 7
  else
    let ok := if tokFa t then (if rootValid s then 9 else if resp = List.replicate 16 0 then 1 else 8)
      else match internalKeyOf s 4 with
        | none => 9
        | some k => if (cmacBytes k (slice t 0x20 16 ++ s.otp.uid ++ be 4 (fieldLE t 8 4))).take 16 = resp then 1 else 8
    if ok ≠ 1 then ok else if tampAct s then 11 else 1

/-- A token check ends with a result code (R863 to R866). -/
def tokenEnd (code : Nat) (s : State) : State :=
  match s.h.dbg.token with
  | none => s
  | some t =>
    let s := { s with h.dbg.token := none, h.dbg.result := code }
    if code = 1 then
      let life := max 1 (min 86400 (fieldLE t 0x0C 4))
      newChallenge (bump { s with h.dbg.open_ := true, h.dbg.grant := tokGrant t, h.dbg.until_ := s.time.now + life * 1000000000 } 0xF0000C 0 16 1)
    else newChallenge (bump { s with h.dbg.blockEnd := some (s.time.now + 100000000) } 0xF0000C 16 16 1)

/-- An Update-DR of DBGTOKEN (R861, R864, R865, R866): a job of priority 6 starts; with all bits 0 the session ends. -/
def tokenUpdate (t : Bytes) (s : State) : State :=
  let t := padTo 256 t
  if dbgBusy s then s
  else if t = List.replicate 256 0 then endSession s
  else if s.h.dbg.token.isSome ∨ s.h.dbg.blockEnd.isSome then s
  else
    let s := { s with h.dbg.token := some t, h.dbg.tokTick := curTick s }
    let lme := (tokenEarly s t).isNone
    placeJob ⟨s.h.sp.nextId, 6, s.time.now, 0, 0, 0, 0, 0, [], [], if lme then 1 else 0, if lme then 1 else 0,
      none, 0, 0, s.time.now, 1⟩ s

/-- The token check's job. -/
def tokenJob (s : State) : Option SpJob := s.h.sp.jobs.find? (fun j => j.work == 1)

/-- A token check completes (R864): its job ends, and the result is that of the first check that fails. -/
def tokenComplete (s : State) : State :=
  match tokenJob s, s.h.dbg.token with
  | some j, some t =>
    if j.leave = 1 ∨ (j.engine ≠ 0 ∧ j.ctx.isNone) then s
    else
      let code := match tokenEarly s t with | some c => c | none => tokenLate s t
      tokenEnd code (endJob j 0 s).1
  | _, _ => s

/-- A token check ends before its job's work does: its leave was not granted (10), or a tamper detection (11, R882). -/
def tokenAbort (code : Nat) (s : State) : State :=
  match tokenJob s with
  | some j => tokenEnd code (endJob j 0x2B s).1
  | none => s

/-- The block after a failed check ends (R865). -/
def blockEnds (s : State) : State :=
  match s.h.dbg.blockEnd with
  | some t => if t ≤ s.time.now then { s with h.dbg.blockEnd := none } else s
  | none => s

/-- The session's life has passed (R866). -/
def sessionExpire (s : State) : State := if s.h.dbg.open_ ∧ s.h.dbg.until_ ≤ s.time.now then endSession s else s

/-- DBG.LIFE.LEFT: the seconds left. -/
def lifeLeft (s : State) : Nat := if s.h.dbg.open_ then ceilDiv (s.h.dbg.until_ - s.time.now) 1000000000 else 0

/-! ## The TAP (R859, R860) -/

/-- EXTEST loaded (R859, R860): in a session with GRANT.BSCAN it drives the pins and asserts the hold line; otherwise it acts as BYPASS. -/
def tapExtest (pins : Bytes) (s : State) : State :=
  if s.h.dbg.open_ && bit s.h.dbg.grant 4 then
    modePins { s with h.dbg.ir := 0, h.dbg.extest := true, h.dbg.bsr := pins }
  else { s with h.dbg.ir := 0, h.dbg.dr := 0 }

/-- The instruction register leaves EXTEST (R860): where it drove the pins, the host die resets as HOSTCMD. -/
def tapLeave (ir : Nat) (s : State) : State :=
  if s.h.dbg.extest then
    let s := hostReset causeHostCmd { s with h.dbg.extest := false }
    { dropFieldDebug s with h.dbg.ir := ir % 32 }
  else if s.h.dbg.ir = 0 then { s with h.dbg.ir := ir % 32 } else s

/-- An instruction loaded with the value its data register captures. -/
def tapLoad (ir dr : Nat) (s : State) : State :=
  let s := if s.h.dbg.ir = 0 then tapLeave ir s else s
  { s with h.dbg.ir := ir, h.dbg.dr := dr }

/-- What DBGCHAL captures (Table DBG-1). -/
def dbgChal (s : State) : Nat := leNat (padTo 16 s.h.dbg.chal) + dbgState s * 2 ^ 128 + s.h.dbg.result * 2 ^ 136

/-- What DTMCS captures (Table DBG-1): version 1, abits 9, and dmistat 3 outside a session. PRESUMED, log entry 11: the places of the fields are those of the RISC-V External Debug specification. -/
def dtmcs (s : State) : Nat := 1 + 9 * 16 + (if s.h.dbg.open_ then 0 else 3) * 1024

/-! ## Run control (R867 to R869, R876, R877) -/

/-- Whether the session grants run control of a hart: the MP, or the FS (`fs`). -/
def runGrant (s : State) (fs : Bool) : Bool := s.h.dbg.open_ && bit s.h.dbg.grant (b2n fs)

/-- abstractcs.cmderr of a module set. -/
def setCmderr (fs : Bool) (v : Nat) (s : State) : State := if fs then { s with h.dbg.cmdFs := v } else { s with h.dbg.cmdMp := v }

/-- sbcs.sberror of a module set. -/
def setSberror (fs : Bool) (v : Nat) (s : State) : State := if fs then { s with h.dbg.sbFs := v } else { s with h.dbg.sbMp := v }

/-- Whether a hart is halted. -/
def halted (s : State) (fs : Bool) : Bool := if fs then s.h.dbg.haltFs else s.h.dbg.haltMp

/-- Whether a hart exists to be controlled: the MP once it has been started, the FS while it runs and the link is up. -/
def hartThere (s : State) (fs : Bool) : Bool := if fs then s.f.fsRun && s.h.tahr.link else s.h.dbg.mpRun

/-- A halt request (R869, R876). -/
def dmHalt (fs : Bool) (s : State) : State :=
  if !runGrant s fs then setCmderr fs 4 s
  else if !hartThere s fs then s
  else if fs then { s with h.dbg.haltFs := true, h.dbg.lrFs := false }
  else { s with h.dbg.haltMp := true, h.dbg.lrMp := false }

/-- A resume request. -/
def dmResume (fs : Bool) (s : State) : State :=
  if !runGrant s fs then setCmderr fs 4 s
  else if fs then { s with h.dbg.haltFs := false } else { s with h.dbg.haltMp := false }

/-- ENTRY of the FIRMWARE section of a processor (R869): the MP's in the host image, the FS's in the field sections. -/
def entryOf (s : State) (fs : Bool) : Nat :=
  let cs := if fs then s.f.sects else (match s.h.img.image with | some im => im.sects | none => [])
  match cs.find? (fun c => c.typ == 0x0B && c.die == b2n fs) with
  | some c => c.origins
  | none => 0

/-- A hart started at its ENTRY. -/
def hartStart (fs : Bool) (s : State) : State :=
  if fs then { s with h.dbg.haltFs := false, h.dbg.lrFs := false, h.dbg.fsAt := entryOf s true, f.fsRun := true }
  else { s with h.dbg.haltMp := false, h.dbg.lrMp := false, h.dbg.mpRun := true, h.dbg.mpAt := entryOf s false }

/-- ndmreset (R869): its own hart restarts at ENTRY. -/
def dmNdmreset (fs : Bool) (s : State) : State :=
  if !runGrant s fs then setCmderr fs 4 s else if !hartThere s fs then s else hartStart fs s

/-- The origin code of a hart. -/
def hartOrigin (fs : Bool) : Nat := if fs then 8 else 2

/-- One instruction retired by a hart: its unlock window's count goes down (R226). -/
def retireOne (fs : Bool) (s : State) : State :=
  let step := fun (w : KMap Nat) => match KMap.get? w (hartOrigin fs) with
    | some n => if n ≤ 1 then KMap.del w (hartOrigin fs) else KMap.put w (hartOrigin fs) (n - 1)
    | none => w
  if fs then { s with f.windows := step s.f.windows } else { s with h.port.windows := step s.h.port.windows }

/-- A single step (R877). -/
def dmStep (fs : Bool) (s : State) : State :=
  if !runGrant s fs then setCmderr fs 4 s else if !halted s fs then s else retireOne fs s

end Sys2Proof.Machine
end

