-- ==== Sys2Proof/Machine/Regs.lean ====
section
/-! DEFINITION. Reading registers: the value every register shows (Tables of the register sections), and the effects of a read that takes effect (R9, R10). -/

namespace Sys2Proof.Machine

open Sys2Proof

/-- A word put together from fields: place, width, value (values saturate at their width where the caller says so). -/
def pack (fs : List (Nat × Nat × Nat)) : Nat := fs.foldl (fun n f => n + (f.2.2 % 2 ^ f.2.1) * 2 ^ f.1) 0

/-- A word of a byte string, first byte lowest. -/
def wordAt (b : Bytes) (k : Nat) : Nat := fieldLE b (4 * k) 4

/-- The low or high half of a stamp. -/
def half (t k : Nat) : Nat := if k % 2 = 0 then t % 2 ^ 32 else t / 2 ^ 32

/-! ## SYS, JRN, PWR, TIM, IMG -/

/-- SYS registers whose value is not a stored one (chapters 01, 02, 05). -/
def viewSys (s : State) (a : Nat) : Option Nat :=
  if a = 0 then some 0x82560A01
  else if a = 4 then some 0x18080C08
  else if a = 8 then some 0x10006040
  else if a = 0xC then some 0x01008034
  else if a = 0x10 then
    some (pack [(0, 4, s.sys.mode.code), (4, 4, fmode s), (8, 1, b2n s.sys.holdLine), (9, 1, b2n (s.sys.safeOut == .high)),
      (10, 1, b2n (s.h.tahr.link && s.h.tahr.fgrant)), (11, 1, b2n s.sys.keepOk)])
  else if a = 0x18 then some s.sys.rstCause
  else if a = 0x1C then some (degCause s)
  else if a = 0x28 then some (pack [(0, 5, s.sys.wake.primary), (8, 5, s.sys.wake.second), (16, 16, s.sys.wake.seen)])
  else if a = 0x2C ∨ a = 0x30 then some (half s.sys.wake.t1 ((a - 0x2C) / 4))
  else if a = 0x34 ∨ a = 0x38 then some (half s.sys.wake.t2 ((a - 0x34) / 4))
  else if a = 0x4C then some (intStat s)
  else if a = 0x60 then some (pack [(8, 1, b2n s.h.port.flash.isSome), (12, 4, fieldOf s 0x60 12 4)])
  else if a = 0x68 then
    some (if s.flash.valid then pack [(0, 8, min 255 s.flash.dens), (8, 1, b2n s.flash.er4k), (9, 1, b2n s.flash.er64k), (10, 1, b2n s.flash.dtr)] else 0)
  else none

/-- BUILD has loaded the registers of a block that reads 0 until then: it has committed a slot or failed. -/
def buildLoaded (s : State) : Bool := s.h.img.committed || s.sys.noImg

/-- JRN registers (Tables JRN-6 to JRN-11). -/
def viewJrn (s : State) (a : Nat) : Option Nat :=
  let j := s.h.jrn
  if a = 0x10000 then
    let run := s.h.img.committed && !s.sys.noImg
    some (pack [(0, 12, if run then jFill j else 0), (12, 1, b2n (run && decide (jFree j ≤ 64))), (13, 1, b2n (buildLoaded s && (journalKey s).isNone))])
  else if a = 0x10004 then some j.lastSeq
  else if a = 0x10008 then some j.ackSeq
  else if a = 0x1000C then some j.sentSeq
  else if a = 0x10018 then some (min j.lost 0xFFFFFFFF)
  else if a = 0x1001C then some j.rstAck
  else none

/-- PWR registers (chapter 20); the junction temperature and VSUP_H are inputs of the trace, so free values (log entry 2). -/
def viewPwr (s : State) (a : Nat) : Option Nat :=
  if a = 0x20000 then some (pack [(0, 10, inUse s.h.arb), (16, 8, min 255 s.h.arb.q.length)])
  else if a = 0x20030 then some (heldWord s.h.arb)
  else if a = 0x20038 then some (max (fieldOf s 0x20038 0 10) (inUse s.h.arb))
  else if a = 0x20040 then some (pack [(0, 1, b2n s.sys.vspkOk), (1, 1, b2n s.sys.vio18)])
  else if a = 0x20044 then
    some (pack [(0, 8, Config.freeValue s.free), (8, 8, Config.freeValue (s.free + 1)), (16, 1, b2n s.sys.vkeep), (17, 1, b2n s.sys.refOk)])
  else none

/-- TIM registers (chapter 04). -/
def viewTim (s : State) (a : Nat) : Option Nat :=
  if a = 0x30000 then some (s.time.now % 2 ^ 32)
  else if a = 0x30004 then some s.time.nowh
  else if a = 0x3000C ∨ a = 0x30010 then some (half s.time.ptpofs ((a - 0x3000C) / 4))
  else if a = 0x30014 then
    some (pack [(0, 1, b2n (decide (3 ≤ s.time.fgood))), (8, 8, ofSigned 8 (clampInt (-127) 127 s.time.falign))])
  else if a = 0x3001C then
    some (pack [(0, 16, min 0xFFFF (curTick s - s.time.rhorizon)), (16, 16, fieldOf s 0x3001C 16 16)])
  else none

/-- Who holds a register (R142): 0 where none does. -/
def holderOf (s : State) (a : Nat) : Nat := KMap.getD s.h.img.holds a 0

/-- Who holds a live-table record. -/
def recHolderOf (s : State) (inst idx : Nat) : Nat := KMap.getD s.h.img.recHolds (liveKey inst idx) 0

/-- IMG registers (Tables IMG-9 to IMG-17). -/
def viewImg (s : State) (a : Nat) : Option Nat :=
  let im := s.h.img.image
  let of := fun (f : Image → Nat) => match im with | some i => f i | none => 0
  if (a = 0x40000 ∨ a = 0x40004) ∧ !buildLoaded s then some 0
  else if a = 0x40000 then
    some (pack [(0, 1, of (·.slot)), (1, 1, b2n s.sys.noImg), (2, 1, b2n s.h.img.floorPend), (3, 1, of (·.keysel)),
      (4, 1, b2n s.otp.revoked0), (5, 1, b2n s.otp.revoked1), (8, 8, of (·.svn)), (16, 8, s.otp.floor)])
  else if a = 0x40004 then
    some (pack [(0, 8, s.h.img.codeA), (8, 8, s.h.img.codeB), (16, 1, b2n s.h.img.firstB), (20, 12, min 4095 s.h.img.buildMs)])
  else if a = 0x40008 then some (of (·.gen))
  else if a = 0x4000C then some (of (·.len))
  else if 0x40010 ≤ a ∧ a < 0x40040 then some (match im with | some i => wordAt i.digest ((a - 0x40010) / 4) | none => 0)
  else if a = 0x40044 then
    let q := reg s a
    let h := holderOf s (bits q 2 22 * 4)
    some (pack [(2, 22, bits q 2 22), (24, 1, b2n (decide (h ≠ 0))), (28, 4, h)])
  else if a = 0x4004C then
    let q := reg s a
    let h := recHolderOf s (bits q 0 7) (bits q 16 16)
    some (pack [(0, 7, bits q 0 7), (8, 1, b2n (decide (h ≠ 0))), (12, 4, h), (16, 16, bits q 16 16)])
  else none

/-! ## FLT, REP, KEY, LME, SYM -/

/-- FLT or FFLT registers (chapter 18): the first-source latch, and the source the reading origin has selected. -/
def viewFlt (s : State) (field : Bool) (o : Origin) (off : Nat) : Option Nat :=
  let c := if field then s.f.flt else s.h.flt
  let first := fun (f : FLatch → Nat) => match c.latch with | some l => f l | none => 0
  let src := fieldOf s (o.code * 0x1000000 + (if field then 0x810030 else 0x50030)) 0 9
  let mine := srcImpl src && (decide (0x100 ≤ src) == field)
  if off = 0 then some (pack [(0, 1, b2n c.latch.isSome), (1, 1, b2n c.ovf), (2, 1, b2n (first (·.cls) == 2))])
  else if off = 4 then some (pack [(0, 16, first (·.src)), (16, 2, first (·.cls)), (20, 3, first (·.react)), (24, 8, first (·.detail))])
  else if off = 8 then some (half (first (·.stamp)) 0)
  else if off = 0xC then some (half (first (·.stamp)) 1)
  else if off = 0x34 then
    some (if !mine then 0 else
      match policyNow s src with
      | some p => pack [(0, 5, (KMap.getD c.rings src []).length), (8, 1, b2n p.enable), (9, 3, p.react), (12, 2, p.cls), (15, 1, 1)]
      | none => 0x8000)
  else if off = 0x38 then
    some (if !mine then 0 else pack [(0, 16, min 0xFFFF (KMap.getD c.events src 0)), (16, 16, min 0xFFFF (KMap.getD c.classified src 0))])
  else if off = 0x44 then some c.nseq
  else if off = 0x48 then some (pack [(0, 5, c.reports.length), (16, 16, fieldOf s 0x810048 16 16)])
  else none

/-- REP registers (chapter 19). -/
def viewRep (s : State) (o : Origin) (a : Nat) : Option Nat :=
  let r := s.h.rep
  if a = 0x60000 then
    some (pack [(0, 1, b2n (noSpare s)), (1, 1, b2n r.visit.isSome), (8, 8, r.shedKind), (16, 8, r.shedDuty),
      (24, 3, match r.visit with | some v => v.step | none => 0), (28, 4, min 15 (s.keeper.ageing.length / 4))])
  else if a = 0x60010 then some (pack [(0, 3, r.retRes), (8, 1, b2n (r.ret.isSome || s.f.rep.ret.isSome))])
  else if a = 0x60018 then
    let i := islandView s (fieldOf s (o.code * 0x1000000 + 0x60014) 0 16)
    some (pack [(0, 3, i.role), (8, 8, i.duty), (16, 8, i.cause)])
  else if 0x60034 ≤ a ∧ a < 0x60044 then
    some (wordAt (defectEntry s (fieldOf s (o.code * 0x1000000 + 0x60030) 0 8)) ((a - 0x60034) / 4))
  else if 0x60100 ≤ a ∧ a < 0x601C8 then some (kindStat s ((a - 0x60100) / 4))
  else none

/-- KEY.HINFO of a handle (chapter 12). -/
def handleInfo (s : State) (h : Nat) : Nat :=
  let r := roleOf s h
  let slot := slotOf s h 0
  let res := match slot with | some i => (match KMap.get? s.h.keys.slots i with | some k => k.resident | none => false) | none => false
  let st := match r.pending.isSome, r.grace.isSome with
    | false, false => 1 | true, false => 2 | false, true => 3 | true, true => 4
  let word := fun (st kind u : Nat) => pack [(0, 3, st), (3, 2, kind), (5, 6, slot.getD 0), (11, 1, b2n res), (16, 16, u)]
  match internalKey h with
  | some (_, u) => word (if rootValid s then 1 else 5) 3 u
  | none =>
    match vaultEntry s h with
    | some e => word st 1 e.usage
    | none =>
      match policyRec s h with
      | some p => word (if rootValid s then st else 5) 0 (fieldLE p 4 2)
      | none =>
        match KMap.get? s.h.keys.rt h with
        | some k => word (if rootValid s then st else 5) 2 k.usage
        | none => 0

/-- KEY registers (chapter 12). -/
def viewKey (s : State) (o : Origin) (a : Nat) : Option Nat :=
  let h := fieldOf s (o.code * 0x1000000 + 0x70028) 0 16
  if a = 0x70000 then
    some (pack [(0, 2, s.keeper.rootState), (2, 6, s.otp.epoch), (8, 5, s.keeper.vault.length), (16, 7, s.h.keys.slots.length),
      (24, 1, b2n (tampAct s))])
  else if a = 0x70004 then some s.keeper.updCnt
  else if a = 0x70008 then some s.keeper.tampArm
  else if a = 0x7000C then some (pack [(0, 3, s.keeper.tampSrc), (8, 8, s.keeper.tampCount)])
  else if a = 0x70010 ∨ a = 0x70014 then some (half s.keeper.tampStamp ((a - 0x70010) / 4))
  else if a = 0x7002C then some (handleInfo s h)
  else if a = 0x70030 then some (keyGen s h)
  else if 0x70040 ≤ a ∧ a < 0x70050 then some (wordAt s.otp.uid ((a - 0x70040) / 4))
  else none

/-- LME and SYM registers (chapter 13). -/
def viewSp (s : State) (a : Nat) : Option Nat :=
  let mask := fun (l : List Nat) => l.foldl (fun n c => if bit n c then n else n + 2 ^ c) 0
  if a = 0x80000 then
    let prio := match s.h.sp.lmeRun with
      | some c => (match nth s.h.sp.lme c none with
        | some x => (match jobOf s x.job with | some j => j.prio | none => 0)
        | none => 0)
      | none => 0
    some (pack [(0, 4, mask (ctxBusy s 1)), (4, 2, s.h.sp.lmeRun.getD 0), (8, 3, prio), (16, 8, min 255 (waitingJobs s 1))])
  else if a = 0x90000 then some (pack [(0, 14, mask (ctxBusy s 2)), (16, 8, min 255 (waitingJobs s 2))])
  else if a = 0x90004 then some (pack [(0, 16, mask (ctxBusy s 3)), (16, 8, min 255 (waitingJobs s 3))])
  else if a = 0x90018 then some (pack [(0, 1, b2n s.h.sp.health), (16, 16, fieldOf s 0x90018 16 16)])
  else none

/-! ## FAB, GTW -/

/-- A port is congested (R334). -/
def congested (s : State) (e : Nat) : Bool :=
  let sum := (List.range 16).foldl (fun n q => n + occOf s (16 * e + q)) 0
  s.h.img.committed && !reservedPort e && decide (fieldOf s (0x10008C + e * 0x1000) 0 17 ≤ sum)

/-- Frames held at a blocked or out-of-service port (Table QUE-11). -/
def heldFrames (s : State) (e : Nat) : Nat :=
  if isBlocked s e || outOfService s e then (List.range 16).foldl (fun n q => n + (queueOf s (16 * e + q)).length) 0 else 0

/-- FAB registers (chapters 07 and 08). -/
def viewFab (s : State) (a : Nat) : Option Nat :=
  if a = 0x10C000 then
    some (pack [(0, 2, fieldOf s a 0 2), (8, 1, b2n s.h.fab.ofull), (9, 1, b2n s.h.fab.xfull)])
  else if a = 0x10C008 then some (s.h.fab.midOut.foldl (fun n m => if bit n m then n else n + 2 ^ m) 0)
  else if a = 0x10C010 then some (sharedUse s)
  else if a = 0x10C014 then some (max (fieldOf s a 0 17) (sharedUse s))
  else if 0x10C020 ≤ a ∧ a < 0x10C040 then
    let n := (a - 0x10C020) / 4
    some ((List.range 32).foldl (fun v b => v + b2n (congested s (32 * n + b)) * 2 ^ b) 0)
  else
    let e := (a - 0x100000) / 0x1000
    let off := (a - 0x100000) % 0x1000
    if off = 0x80 then
      some (pack [(0, 1, b2n (!outOfService s e)), (1, 1, b2n (isBlocked s e)), (2, 1, b2n (congested s e)), (16, 16, min 0xFFFF (heldFrames s e))])
    else if off = 0xA0 then
      some (pack [(0, 8, gatesNow s e), (8, 16, match KMap.get? s.h.fab.gate e with | some (i, _, _) => i | none => 0)])
    else if 0x100 ≤ off ∧ off < 0x200 ∧ off % 16 = 0 then some (occOf s (16 * e + (off - 0x100) / 16))
    else none

/-- GTW registers (chapter 09). -/
def viewGtw (s : State) (o : Origin) (a : Nat) : Option Nat :=
  if a = 0x210004 then
    some (pack [(8, 7, (KMap.getD s.h.gtw.staging o.code []).length), (16, 1, fieldOf s (o.code * 0x1000000 + a) 16 1)])
  else none

/-! ## CAN, LIN, ETH -/

/-- CAN registers of controller n of either die (chapter 10). -/
def viewCan (s : State) (n off : Nat) : Option Nat :=
  let c := canOf s n
  if off = 0x14 then some (canStat s n)
  else if off = 0x18 then some (pack [(0, 9, c.tec), (16, 8, min 255 c.rxErr)])
  else if off = 0x1C then some (canTxstat c)
  else if 0x40 ≤ off ∧ off < 0x60 then
    some (match nth c.slots ((off - 0x40) / 4) none with | some x => canIdw x.body | none => 0)
  else if 0x60 ≤ off ∧ off < 0x80 then
    some (match nth c.slots ((off - 0x60) / 4) none with | some x => min 0xFFFF x.tries | none => 0)
  else if off = 0x814 ∧ n < 8 then
    let l := nth s.h.listeners n ⟨false, 0, false⟩
    some (pack [(0, 6, l.fec), (8, 1, b2n l.fecOvf)])
  else none

/-- LIN registers (chapter 10). -/
def viewLin (s : State) (c off : Nat) : Option Nat :=
  let l := linOf s c
  if off = 8 then some (pack [(0, 2, l.state), (4, 4, l.table), (16, 10, l.slotRec)]) else none

/-- ETH registers (chapter 11). -/
def viewEth (s : State) (a : Nat) : Option Nat :=
  if a = 0x44F000 then some (putBits (reg s a) 31 1 (b2n s.h.eth.mdio.isSome))
  else if a = 0x44F010 ∨ a = 0x44F014 then some (half s.keeper.nmFloor ((a - 0x44F010) / 4))
  else
    let p := (a - 0x440000) / 0x10000
    let off := (a - 0x440000) % 0x10000
    let e := ethOf s p
    if off = 4 then
      some (pack [(0, 1, b2n e.link), (1, 2, if p ≤ 1 then fieldOf s (ethReg p 0) 1 2 else 0), (4, 3, e.t1),
        (7, 1, b2n (decide (10 ≤ p) && e.link)), (8, 3, e.sqi), (11, 1, b2n e.anDone)])
    else if off = 0x2C then some (pack [(0, 5, e.ring.length), (16, 16, fieldOf s a 16 16)])
    else none

/-! ## AUD, HSNS -/

/-- The words of an audio ring by its index. -/
def ringWord (m : KMap Word) (k : Nat) : Nat := (KMap.getD m k 0).toNat

/-- AUD registers (chapters 16 and 17). -/
def viewAud (s : State) (o : Origin) (a : Nat) : Option Nat :=
  let port := fun (i off : Nat) =>
    let p := portOf s i
    if i < 4 ∧ off = 0x24 then some (pack [(0, 1, b2n p.run), (1, 1, b2n p.lock), (16, 12, p.rxf)])
    else if 6 ≤ i ∧ off = 4 then some (putBits (reg s (portBase i + 4)) 0 1 (b2n p.lock))
    else if 6 ≤ i ∧ 0x10 ≤ off ∧ off < 0x70 then some (wordAt (p.cs ++ p.ub) ((off - 0x10) / 4))
    else none
  if a < 0x500400 then port ((a - 0x500000) / 0x100) (a % 0x100)
  else if a < 0x500600 then port (4 + (a - 0x500400) / 0x100) (a % 0x100)
  else if a < 0x500800 then port (6 + (a - 0x500600) / 0x100) (a % 0x100)
  else if a < 0x500C00 then
    if (a - 0x500800) % 0x80 = 0x30 then some (pack [(16, 11, (epOf s ((a - 0x500800) / 0x80)).queue.length)]) else none
  else if a = 0x500E04 then some (outOf s 1).st
  else if a = 0x500E14 then some (outOf s 2).st
  else if a = 0x500E44 then some (pack [(0, 3, (outOf s 0).st), (3, 1, fieldOf s a 3 1)])
  else if a = 0x500E9C then some (pack [(0, 1, b2n (decide (s.h.aud.limG < 4096))), (16, 13, s.h.aud.limG)])
  else if a = 0x500EA0 then some (ofSigned 32 s.h.aud.limTc)
  else if a = 0x500F04 then some (pack ((List.range 7).map (fun n => (4 * n, 3, KMap.getD s.h.aud.det n 0))))
  else if a = 0x500F08 then some s.h.aud.spkRes
  else if a = 0x500F44 then some (pack [(0, 3, s.h.aud.calRes), (8, 1, b2n s.h.aud.cal.isSome)])
  else if 0x500F84 ≤ a ∧ a < 0x500FEC then
    some (wordAt (KMap.getD s.h.aud.bandRec (fieldOf s (o.code * 0x1000000 + 0x500F80) 0 3) []) ((a - 0x500F84) / 4))
  else if 0x508000 ≤ a ∧ a < 0x518000 then
    let n := (a - 0x508000) / 0x4000
    let k := (a - 0x508000) % 0x4000 / 4
    some (if k < 2048 then ringWord (portOf s n).rx k else ringWord (portOf s n).tx (k - 2048))
  else if 0x518000 ≤ a ∧ a < 0x51C000 then some (ringWord s.h.aud.play ((a - 0x518000) / 4))
  else if 0x51C000 ≤ a ∧ a < 0x520000 then some (ringWord s.h.aud.cap ((a - 0x51C000) / 4))
  else if 0x520000 ≤ a ∧ a < 0x524000 then some (ringWord (portOf s (4 + (a - 0x520000) / 0x2000)).tx ((a - 0x520000) % 0x2000 / 4))
  else if 0x524000 ≤ a ∧ a < 0x528000 then some (ringWord (portOf s (6 + (a - 0x524000) / 0x2000)).rx ((a - 0x524000) % 0x2000 / 4))
  else none

/-- The calibration requests a cluster holds, as CALCTL.REQ reads (R667, R670). -/
def calPending (m : Meas) : Nat :=
  (List.range 3).foldl (fun n d => if m.calReq.contains d || (match m.cal with | some c => c.duty == d | none => false) then n + 2 ^ d else n) 0

/-- HSNS or MEAS registers of the selected record (R661). -/
def viewRecord (s : State) (host : Bool) (sel w : Nat) : Option Nat :=
  match KMap.get? (measOf s host).last (bits sel 0 w) with
  | some _ => some (pack [(0, w, sel), (8, 1, 1)])
  | none => some (pack [(0, w, sel)])

/-- HSNS registers (chapter 15). -/
def viewHsns (s : State) (o : Origin) (a : Nat) : Option Nat :=
  let sel := reg s (o.code * 0x1000000 + 0x580010)
  if a = 0x580004 then some (calPending s.h.meas % 2)
  else if a = 0x580008 then some (pack [(0, 4, s.h.meas.calErr), (16, 16, fieldOf s a 16 16)])
  else if a = 0x580010 then viewRecord s true sel 4
  else if 0x580040 ≤ a ∧ a < 0x5800A8 then some (wordAt (KMap.getD s.h.meas.last (bits sel 0 4) []) ((a - 0x580040) / 4))
  else if a = 0x580100 then some s.h.pseq
  else if a = 0x580340 then some (touchStat s)
  else none

/-! ## TAHR, FSUP, MEAS, DBG -/

/-- TAHR registers (chapter 14): a lane is retired by the end that receives it. -/
def viewTahr (s : State) (a : Nat) : Option Nat :=
  if a = 0x600000 then
    some (pack [(0, 1, b2n s.h.tahr.link), (1, 1, b2n s.h.tahr.fe.train), (2, 3, activeLanes s.f.fe), (5, 3, activeLanes s.h.tahr.fe),
      (8, 6, s.f.fe.retired), (16, 6, s.h.tahr.fe.retired)])
  else none

/-- FSUP registers (chapters 14, 20, 22). -/
def viewFsup (s : State) (a : Nat) : Option Nat :=
  if a = 0x820008 then
    some (pack [(0, 1, b2n s.f.permit), (1, 1, b2n s.f.hold), (2, 1, b2n s.f.hostGrant), (3, 1, b2n s.f.rberr), (4, 4, s.f.cause)])
  else if a = 0x820018 then some (pack [(0, 10, min 1023 (ceilDiv (heldBytes s) 32)), (16, 16, fieldOf s a 16 16)])
  else if a = 0x820024 then
    some (match s.f.fifo with
      | [] => 0
      | m :: r => pack [(0, 6, m.typ), (8, 11, m.payload.length), (20, 4, r.length), (24, 8, m.origin)])
  else if 0x820400 ≤ a ∧ a < 0x820800 then some (wordAt s.f.tbuf ((a - 0x820400) / 4))
  else if 0x820800 ≤ a ∧ a < 0x820C00 then some (wordAt s.f.rbuf ((a - 0x820800) / 4))
  else if a = 0x820C00 then some (putBits (reg s a) 16 10 (inUse s.f.arb))
  else if a = 0x820C10 then
    some (pack [(0, 8, Config.freeValue s.free), (8, 8, Config.freeValue (s.free + 1)),
      (16, 1, b2n (!(s.f.state == .off || s.f.state == .inReset)))])
  else none

/-- MEAS registers (chapter 15). -/
def viewMeas (s : State) (o : Origin) (a : Nat) : Option Nat :=
  let sel := reg s (o.code * 0x1000000 + 0x800030)
  if a = 0x80000C then some (convStat s)
  else if a = 0x800010 then some (calPending s.f.meas)
  else if a = 0x800014 then some (pack [(0, 4, s.f.meas.calErr), (16, 16, fieldOf s a 16 16)])
  else if a = 0x800020 then some (pack [(0, 1, b2n (mainsLocked s)), (8, 17, s.f.meas.mains.lcur)])
  else if a = 0x800030 then viewRecord s false sel 7
  else if 0x800040 ≤ a ∧ a < 0x8000A8 then some (wordAt (KMap.getD s.f.meas.last (bits sel 0 7) []) ((a - 0x800040) / 4))
  else none

/-- DBG registers (chapter 21). -/
def viewDbg (s : State) (a : Nat) : Option Nat :=
  if a = 0xF00000 then
    some (pack [(0, 2, dbgState s), (8, 8, s.h.dbg.result), (16, 5, s.h.dbg.grant), (24, 1, b2n s.h.dbg.haltMp), (25, 1, b2n s.h.dbg.haltFs)])
  else if a = 0xF00008 then some (lifeLeft s)
  else none

/-! ## A register's value -/

/-- The key of a register's stored value: a bank of the origin, an FCAN page of the field die, or the address (R222, R420). -/
def storeKey (fs : Bool) (d : RegDef) (o : Origin) (a : Nat) : Nat :=
  if fs && decide (a < 0x800000) then 0x20000000 + a else bankKey d o a

/-- The value a register that is no plain store shows, by its block. `fs` tells the address space of the FS (Table TAHR-1). -/
def viewOf (s : State) (fs : Bool) (o : Origin) (a : Nat) : Option Nat :=
  if a < 0x10000 then viewSys s a
  else if a < 0x20000 then viewJrn s a
  else if a < 0x30000 then viewPwr s a
  else if a < 0x40000 then viewTim s a
  else if a < 0x50000 then viewImg s a
  else if a < 0x60000 then viewFlt s false o (a - 0x50000)
  else if a < 0x70000 then viewRep s o a
  else if a < 0x80000 then viewKey s o a
  else if a < 0x100000 then viewSp s a
  else if a < 0x200000 then viewFab s a
  else if a < 0x400000 then viewGtw s o a
  else if a < 0x420000 then
    let n := (a - 0x400000) / 0x1000
    if fs || decide (n < 24) then viewCan s n (a % 0x1000)
    else if a % 0x1000 = 0x14 then some (putBits (reg s a) 31 1 (b2n (!s.h.tahr.link)))
    else none
  else if a < 0x440000 then viewLin s ((a - 0x420000) / 0x100) (a % 0x100)
  else if a < 0x500000 then viewEth s a
  else if a < 0x580000 then viewAud s o a
  else if a < 0x600000 then viewHsns s o a
  else if a < 0x800000 then viewTahr s a
  else if a < 0x810000 then viewMeas s o a
  else if a < 0x820000 then viewFlt s true o (a - 0x810000)
  else if a < 0x830000 then viewFsup s a
  else viewDbg s a

/-- The bits of a register that its fields occupy and that a read shows: WO fields and reserved bits read 0 (R9, R13). -/
def readMask (d : RegDef) : Nat :=
  d.fields.foldl (fun n f => if f.acc = .wo then n else n + (2 ^ f.width - 1) * 2 ^ f.lo) 0

/-- The value of a register without any effect of a read: a peek (R872). -/
def peekReg (s : State) (fs : Bool) (o : Origin) (d : RegDef) (a : Nat) : Nat :=
  Nat.land (readMask d) (match viewOf s fs o a with
    | some v => v
    | none => reg s (storeKey fs d o a))

/-- The FS's address space (Table TAHR-1): its FCAN pages and the field blocks. -/
def fsReaches (a : Nat) : Bool := (decide (0x418000 ≤ a) && decide (a < 0x420000)) || isRemote a

/-! ## Reads that take effect -/

/-- The pops that reads make beside their value (R475, R694, R615) and the loads of companion registers (R158). -/
def popEffect (a : Nat) (s : State) : State :=
  if a = 0x30000 then { s with time.nowh := s.time.now / 2 ^ 32 }
  else if 0x440000 ≤ a ∧ a < 0x500000 ∧ (a - 0x440000) % 0x10000 = 0x20 then
    let p := (a - 0x440000) / 0x10000
    let e := ethOf s p
    match e.ring with
    | [] => setReg (setReg s (ethReg p 0x24) 0) (ethReg p 0x28) 0
    | r :: rest =>
      setReg (setReg (setEth s p { e with ring := rest }) (ethReg p 0x24) (r.stamp / 2 ^ 32)) (ethReg p 0x28)
        (pack [(0, 16, r.seqId), (16, 4, r.msgType), (20, 1, 1), (24, 8, r.domain)])
  else if 0x500000 ≤ a ∧ a < 0x500400 ∧ a % 0x100 = 0x30 then (popBlock ((a - 0x500000) / 0x100) s).1
  else if 0x500400 ≤ a ∧ a < 0x500600 ∧ a % 0x100 = 0x74 then (popBlock (4 + (a - 0x500400) / 0x100) s).1
  else if 0x500600 ≤ a ∧ a < 0x500800 ∧ a % 0x100 = 0x74 then (popBlock (6 + (a - 0x500600) / 0x100) s).1
  else if a = 0x820024 then
    (match s.f.fifo with
      | [] => s
      | m :: r => { s with f.fifo := r, f.rbuf := padTo 1024 m.payload })
  else if a = 0x20044 ∨ a = 0x820C10 then { s with free := s.free + 2 }
  else s

/-- The value of the head entry that a pop returns where the register shows none otherwise. -/
def popValue (s : State) (a : Nat) : Option Nat :=
  if 0x440000 ≤ a ∧ a < 0x500000 ∧ (a - 0x440000) % 0x10000 = 0x20 then
    some (match (ethOf s ((a - 0x440000) / 0x10000)).ring with | [] => 0 | r :: _ => r.stamp % 2 ^ 32)
  else
    let head := fun (i : Nat) => some (match (portOf s i).fifo with | [] => 0 | b :: _ => b.stamp % 2 ^ 32)
    if 0x500000 ≤ a ∧ a < 0x500400 ∧ a % 0x100 = 0x30 then head ((a - 0x500000) / 0x100)
    else if 0x500400 ≤ a ∧ a < 0x500600 ∧ a % 0x100 = 0x74 then head (4 + (a - 0x500400) / 0x100)
    else if 0x500600 ≤ a ∧ a < 0x500800 ∧ a % 0x100 = 0x74 then head (6 + (a - 0x500600) / 0x100)
    else none

/-- The RC fields of a register cleared (R9, R10); a mirror of a field register clears nothing (R420). -/
def clearRc (fs : Bool) (d : RegDef) (o : Origin) (a : Nat) (s : State) : State :=
  if !fs && decide (0x418000 ≤ a) && decide (a < 0x420000) then s
  else
    let k := storeKey fs d o a
    let m := d.fields.foldl (fun v f => if f.acc = .rc then putBits v f.lo f.width 0 else v) (reg s k)
    if m = reg s k then s else setReg s k m

/-- The value a read returns: a pop's head entry, or the register as it stands. -/
def readValue (s : State) (fs : Bool) (o : Origin) (d : RegDef) (a : Nat) : Nat := (popValue s a).getD (peekReg s fs o d a)

/-- A read of a register that takes effect (R10, R212): its value, RC fields cleared, RP entries popped. -/
def readReg (fs : Bool) (o : Origin) (a : Nat) (s : State) : State × Nat :=
  match regAt a with
  | none => (s, 0)
  | some d => (clearRc fs d o a (popEffect a s), readValue s fs o d a)

/-- A peek of an address: 0 where it lies in no register (R872). -/
def peekAt (fs : Bool) (o : Origin) (s : State) (a : Nat) : Nat :=
  match regAt a with
  | none => 0
  | some d => readValue s fs o d a

/-- Consecutive words read in address order (R209, R212). -/
def readWords (fs : Bool) (o : Origin) : List Nat → State → State × List Word
  | [], s => (s, [])
  | a :: r, s =>
    let (s, v) := readReg fs o a s
    let (s, vs) := readWords fs o r s
    (s, BitVec.ofNat 32 v :: vs)

end Sys2Proof.Machine
end

