-- ==== Sys2Proof/Machine/Virtual.lean ====
section
/-! DEFINITION. Virtual ports: loops, containers, tunnels (chapter 09), trace records (R186), and live-table changes (R380 to R382, R429, R430). -/

namespace Sys2Proof.Machine

open Sys2Proof

/-! ## Containers (R373 to R376) -/

/-- The payload of a container; INIT where nothing was written (R374). -/
def payloadOf (s : State) (k : Nat) (r : Bytes) : Bytes :=
  KMap.getD s.h.gtw.payloads k (List.replicate (fieldLE r 2 2) (nth r 13 0))

/-- An event of a virtual port (R370). -/
def emitAt (v : Nat) (pres stamp : Stamp) (kk : Nat) (body : Bytes) (err : Bool) (s : State) : State :=
  submitAt v pres stamp 2 kk body err 0 s

/-- A container emitted at its port (R376): header, payload, and the DLC byte of a CAN body. -/
def emitContainer (k : Nat) (pres stamp : Stamp) (s : State) : State :=
  match liveRec s 0x17 k with
  | none => s
  | some r =>
    let kk := fieldLE r 14 1
    let head := (r.drop 16).take (fieldLE r 12 1)
    let head := if kk = 1 then overlay head 5 [byte (lenDlc (fieldLE r 2 2))] else head
    emitAt (fieldLE r 0 1) pres stamp kk (head ++ payloadOf s k r) false s

/-- One update applied (R375): the state, and whether its container fires. -/
def applyUpdate (u : Bytes) (s : State) : State × Option Nat :=
  let k := fieldLE u 0 2
  match liveRec s 0x17 k with
  | none => (s, none)
  | some r =>
    let d := fieldLE u 2 2
    let len := fieldLE u 4 1
    let fl := fieldLE u 5 1
    let p := payloadOf s k r
    if !signalIn p (bit fl 1) d len then (s, none)
    else
      let old := readSignal p (bit fl 1) d len
      let v := fieldLE u 8 8 % 2 ^ len
      let s := { s with h.gtw.payloads := KMap.put s.h.gtw.payloads k (writeSignal p (bit fl 1) d len v) }
      (s, if bit fl 2 && bit (fieldLE r 1 1) 0 && (!bit fl 3 || old != v) then some k else none)

/-- The updates of a message applied in order, with the containers that fire. -/
def applyUpdates : Nat → Bytes → List Nat → State → State × List Nat
  | 0, _, fire, s => (s, fire)
  | n + 1, b, fire, s =>
    if b.length < 16 then (s, fire)
    else
      let (s, f) := applyUpdate (b.take 16) s
      applyUpdates n (b.drop 16) (match f with | some k => fire ++ [k] | none => fire) s

/-- An update message at its container port (R375). -/
def containerInput (f : Frame) (s : State) : State :=
  let (s, fire) := applyUpdates f.bytes.length f.bytes [] s
  (sortBy (fun k => [k]) fire.dedup).foldl (fun s k => emitContainer k f.pres f.stamp s) s

/-- The first boundary of a PERIODIC container after an instant (R375). -/
def nextBoundary (r : Bytes) (t : Stamp) : Option Stamp :=
  let p := fieldLE r 4 4 * 1000
  let ph := fieldLE r 8 4 * 1000
  if !bit (fieldLE r 1 1) 1 ∨ p = 0 then none
  else if t < ph then some ph
  else some (ph + ((t - ph) / p + 1) * p)

/-- A container at BUILD commit or after a write of its record (R374): INIT payload, next boundary. -/
def resetContainer (k : Nat) (s : State) : State :=
  match liveRec s 0x17 k with
  | none =>
    { s with h.gtw.payloads := KMap.del s.h.gtw.payloads k, h.gtw.boundary := KMap.del s.h.gtw.boundary k }
  | some r =>
    let b := match nextBoundary r s.time.now with
      | some t => KMap.put s.h.gtw.boundary k t
      | none => KMap.del s.h.gtw.boundary k
    { s with h.gtw.payloads := KMap.del s.h.gtw.payloads k, h.gtw.boundary := b }

/-- The boundaries of a port's containers, earliest first, then by record index. -/
def portBoundaries (s : State) (v : Nat) : List (Nat × Stamp) :=
  sortBy (fun b => [b.2, b.1]) (s.h.gtw.boundary.filter (fun b =>
    match liveRec s 0x17 b.1 with | some r => fieldLE r 0 1 == v | none => false))

/-- The earliest boundary of a port reached (R375): its containers emitted in ascending record index, after every update of an earlier tick. -/
def periodicEmit (v : Nat) (s : State) : State :=
  match portBoundaries s v with
  | [] => s
  | (_, b) :: _ =>
    if s.time.now < b ∨ (oldestInput s v).any (fun t => decide (t < tickOf b)) ∨ (oldestUnreleased s v).any (fun t => decide (t < tickOf b)) then s
    else
      ((portBoundaries s v).filter (fun x => x.2 == b)).foldl (fun s x =>
        let s := emitContainer x.1 b b s
        match liveRec s 0x17 x.1 with
        | some r => { s with h.gtw.boundary := KMap.put s.h.gtw.boundary x.1 (b + fieldLE r 4 4 * 1000) }
        | none => s) s

/-! ## Tunnels (R377 to R379): the layouts of IEEE 1722-2016, PRESUMED, log entry 12 -/

/-- The tunnel state of a record. -/
def tunnelOf (s : State) (t : Nat) : Tunnel := KMap.getD s.h.gtw.tunnels t ⟨[], 0, 0, 0, none⟩

/-- The state with a tunnel's state set. -/
def setTunnel (t : Nat) (x : Tunnel) (s : State) : State := { s with h.gtw.tunnels := KMap.put s.h.gtw.tunnels t x }

/-- The tunnel records of a port, ascending. -/
def portTunnels (s : State) (v : Nat) : List (Nat × Bytes) := (liveRecs s 0x18).filter (fun r => fieldLE r.2 0 1 == v)

/-- The Ethernet header of a tunnel's AVTPDUs. -/
def tunnelHead (r : Bytes) : Bytes :=
  slice r 16 6 ++ slice r 22 6 ++
  (if bit (fieldLE r 1 1) 3 then be 2 0x8100 ++ be 2 (bits (fieldLE r 6 2) 0 12 + bits (fieldLE r 6 2) 12 3 * 0x2000) else []) ++ be 2 0x22F0

/-- The bytes of an AVTPDU before its messages. -/
def tunnelFixed (r : Bytes) : Nat := (tunnelHead r).length + (if bit (fieldLE r 1 1) 0 then 24 else 12)

/-- The open AVTPDU of a tunnel emitted, if it holds messages (R378). The spec states no value for avtp_timestamp, so it is free (log entry 2). -/
def emitTunnel (t : Nat) (pres : Stamp) (s : State) : State :=
  match liveRec s 0x18 t with
  | none => s
  | some r =>
    let x := tunnelOf s t
    if x.count = 0 then s
    else
      let n := x.msgs.length
      let sid := slice r 8 8
      let valid := bit (reg s 0x3002C) 0
      let (s, ts) := if bit (fieldLE r 1 1) 0 && valid then takeFree s else (s, 0)
      let hdr := if bit (fieldLE r 1 1) 0 then
          [byte 0x05, byte (0x80 + b2n valid), byte x.nextSeq, 0] ++ sid ++ be 4 (ts % 2 ^ 32) ++ [0, 0, 0, 0] ++ be 2 n ++ [0, 0]
        else [byte 0x82, byte (0x80 + n / 256 % 8), byte (n % 256), byte x.nextSeq] ++ sid
      let s := setTunnel t { x with msgs := [], count := 0, nextSeq := (x.nextSeq + 1) % 256 } s
      emitAt (fieldLE r 0 1) pres pres 3 (tunnelHead r ++ hdr ++ x.msgs) false (bump s (0x228000 + 4 * t) 16 16 1)

/-- Bytes to the next multiple of four. -/
def padQuad (n : Nat) : Nat := (4 - n % 4) % 4

/-- The ACF message of a consumed frame (R378). -/
def acfMessage (s : State) (r : Bytes) (f : Frame) : Bytes :=
  let bus := fieldOf s (0x200004 + f.inport * 0x100) 8 5
  let valid := bit (reg s 0x3002C) 0
  let ts := if valid then be 8 ((f.stamp + s.time.ptpofs) % 2 ^ 64) else List.replicate 8 0
  let data := dataArea f.kk f.bytes
  let pad := padQuad data.length
  let tail := data ++ List.replicate pad 0
  let build := fun (typ : Nat) (b2 b3 : Nat) (rest : Bytes) =>
    let q := (4 + rest.length) / 4
    [byte (typ * 2 + q / 256), byte (q % 256), byte (pad * 64 + b2), byte b3] ++ rest
  if f.kk = 1 then
    let w := canIdw f.bytes
    let fl := fieldLE f.bytes 4 1
    let brief := bit (fieldLE r 1 1) 1
    let b2 := b2n (valid && !brief) * 32 + bits w 29 1 * 16 + bits w 30 1 * 8 + bits fl 0 1 * 4 + bits w 31 1 * 2 + bits fl 1 1
    build (if brief then 2 else 1) b2 bus ((if brief then [] else ts) ++ be 4 (bits w 0 29) ++ tail)
  else build 3 (b2n valid * 32 + bus) (fieldLE f.bytes 0 1) (ts ++ tail)

/-- A frame consumed by an ENCAP port (R378): into the open AVTPDU of the port's first tunnel record (log entry 16). -/
def encapInput (v : Nat) (f : Frame) (s : State) : State :=
  match portTunnels s v with
  | [] => s
  | (t, r) :: _ =>
    let m := acfMessage s r f
    let x := tunnelOf s t
    let s := if x.count ≠ 0 ∧ 1514 < tunnelFixed r + x.msgs.length + m.length then emitTunnel t f.pres s else s
    let x := tunnelOf s t
    let x := { x with msgs := x.msgs ++ m, count := x.count + 1, first := if x.count = 0 then f.pres else x.first }
    let s := setTunnel t x s
    if fieldLE r 2 1 ≤ x.count then emitTunnel t f.pres s else s

/-- MAXWAIT has passed since the first message of an open AVTPDU (R378). -/
def timedEmit (t : Nat) (s : State) : State :=
  match liveRec s 0x18 t with
  | none => s
  | some r =>
    let x := tunnelOf s t
    let due := x.first + fieldLE r 4 2 * 1000
    if x.count = 0 ∨ s.time.now < due then s else emitTunnel t due s

/-- One ACF message of a received AVTPDU made an event, or none where its type is not supported (R377, R379). CKSUM and CKT of a LIN body are carried by no ACF message, so they are free (log entry 2). -/
def decapMessage (v : Nat) (f : Frame) (m : Bytes) (s : State) : State :=
  let typ := fieldLE m 0 1 / 2
  let b2 := fieldLE m 2 1
  let b3 := fieldLE m 3 1
  let pad := bits b2 6 2
  let can := fun (off : Nat) =>
    let id := fieldBE m off 4
    let w := bits id 0 29 + bits b2 4 1 * 2 ^ 29 + bits b2 3 1 * 2 ^ 30 + bits b2 1 1 * 2 ^ 31
    let data := (m.drop (off + 4)).take (m.length - (off + 4) - pad)
    let dlc := lenDlc data.length
    let body := le 4 w ++ [byte (bits b2 2 1 + 2 * bits b2 0 1), byte dlc, byte (bits b3 0 5), 0] ++ padTo (canLen w dlc) data
    if 64 < data.length ∨ (!bit w 31 ∧ 8 < data.length) then countDrop f.inport .fmt s
    else emitAt v f.pres f.stamp 1 body false s
  if typ = 1 then can 12
  else if typ = 2 then can 4
  else if typ = 3 then
    let data := (m.drop 12).take (m.length - 12 - pad)
    if data.length = 0 ∨ 8 < data.length then countDrop f.inport .fmt s
    else
      let (s, x) := takeFree s
      emitAt v f.pres f.stamp 2 ([byte b3, byte data.length, byte (x % 256), byte (x / 256 % 2)] ++ data) false s
  else bump s 0x210080 16 16 1

/-- The ACF messages of an AVTPDU in order; one whose length runs beyond the AVTPDU ends it (R379). -/
def decapMessages (v : Nat) (f : Frame) : Nat → Bytes → State → State
  | 0, _, s => s
  | n + 1, b, s =>
    if b.isEmpty then s
    else
      let q := 4 * ((fieldLE b 0 1 % 2) * 256 + fieldLE b 1 1)
      if b.length < 4 ∨ q < 4 ∨ b.length < q then countDrop f.inport .fmt s
      else decapMessages v f n (b.drop q) (decapMessage v f (b.take q) s)

/-- A frame consumed by a DECAP port (R379). -/
def decapInput (v : Nat) (f : Frame) (s : State) : State :=
  let pdu := avtpOf f.bytes
  let sub := fieldLE pdu 0 1
  let tscf := sub == 5
  let hit := (portTunnels s v).find? (fun r =>
    slice r.2 8 8 == slice pdu 4 8 && bit (fieldLE r.2 1 1) 0 == tscf && (tscf || sub == 0x82) && etherType f.bytes == 0x22F0)
  match hit with
  | none => countDrop f.inport .nostream s
  | some (t, r) =>
    let seq := if tscf then fieldLE pdu 2 1 else fieldLE pdu 3 1
    let len := if tscf then fieldBE pdu 20 2 else (fieldLE pdu 1 1 % 8) * 256 + fieldLE pdu 2 1
    let x := tunnelOf s t
    let gap := bit (fieldLE r 1 1) 2 && (match x.lastSeq with | some l => (l + 1) % 256 != seq | none => false)
    let s := if gap then bump s (0x228000 + 4 * t) 0 16 1 else s
    let s := bump (setTunnel t { x with lastSeq := some seq } s) (0x228000 + 4 * t) 16 16 1
    let b := (pdu.drop (if tscf then 24 else 12)).take len
    decapMessages v f b.length b s

/-! ## Consumption (R370) -/

/-- The input of a virtual port with the least key. -/
def nextInput (s : State) (v : Nat) : Option Frame :=
  (sortBy frameKey ((List.range 16).flatMap (fun q => (queueOf s (16 * v + q)).take 1))).head?

/-- A virtual port consumes its next input; a periodic boundary of the same tick or an earlier one comes first (R370, R375, R388). -/
def consumeNext (v : Nat) (s : State) : State :=
  match nextInput s v with
  | none => s
  | some f =>
    if (portBoundaries s v).any (fun b => decide (tickOf b.2 ≤ tickOf f.pres)) then s
    else
      let s := setQueue s f.queue ((queueOf s f.queue).drop 1)
      match vrole s v with
      | 1 => emitAt v f.pres f.stamp f.kk f.bytes f.err s
      | 2 => if f.kk = 5 then containerInput f s else s
      | 3 => encapInput v f s
      | 4 => decapInput v f s
      | _ => s

/-- The trace records of the events classified since the last commit sent at the trace port, or counted where the port has not the role TRACE (R186, R372). -/
def emitTraces (s : State) : State :=
  let v := fieldOf s 0x30024 8 8
  let ts := s.h.gtw.traces
  let s := { s with h.gtw.traces := [] }
  ts.foldl (fun s t =>
    if vrole s v = 5 then submitAt v s.time.now s.time.now 2 4 t.2 false 3 s else bump s 0x30028 0 32 1) s

/-! ## Live-table records (R381, Tables GTW-5 to GTW-12, QUE-3, CAN-3) -/

/-- All bytes of a range are 0. -/
def zeros (r : Bytes) (off n : Nat) : Bool := (slice r off n).all (fun b => b == 0)

/-- A field within a range. -/
def within (lo hi v : Nat) : Bool := decide (lo ≤ v) && decide (v ≤ hi)

/-- One destination of a ROUTE record: EV is 0 where EDIT gives it no meaning, and an AUTHOUT never names an XORD queue (R356, R368). -/
def destOk (xord : Nat → Bool) (d : Bytes) : Bool :=
  let q := fieldLE d 0 2
  let ed := fieldLE d 2 1
  (q == 0xFFFF || decide (q ≤ 4095)) && decide (ed ≤ 4) && ((ed != 0 && ed != 4) || fieldLE d 4 4 == 0) &&
  !(q != 0xFFFF && fieldLE d 3 1 != 0xFF && bit q 3 && xord q)

/-- A container record of Table GTW-11 and R376. -/
def containerOk (role : Nat → Nat) (r : Bytes) : Bool :=
  let plen := fieldLE r 2 2
  let period := fieldLE r 4 4
  let phase := fieldLE r 8 4
  let hlen := fieldLE r 12 1
  role (fieldLE r 0 1) == 2 && within 1 1016 plen && decide (period ≤ 4000000) &&
  (if period = 0 then phase == 0 else decide (phase < period)) && decide (hlen ≤ 32) && zeros r 15 1 &&
  (match fieldLE r 14 1 with
   | 1 => hlen == 8 && canLen (fieldLE r 16 4) (lenDlc plen) == plen
   | 3 => hlen == 14 || hlen == 18
   | 4 => decide (2 ≤ hlen)
   | _ => false)

/-- A record of a live-table kind holds only values its table allows. -/
def recordOk (xord : Nat → Bool) (role : Nat → Nat) (kind : Nat) (r : Bytes) : Bool :=
  match kind with
  | 0x01 => within 64 1000000000 (fieldLE r 0 4) && fieldLE r 0 4 % 8 == 0 && zeros r 5 3
  | 0x10 => (List.range 16).all (fun i => (nth r i 0 &&& ~~~(nth r (16 + i) 0)) == 0) && zeros r 36 4
  | 0x11 => decide (fieldLE r 8 2 ≤ 256) && zeros r 10 6
  | 0x12 => (List.range 4).all (fun i => destOk xord (slice r (8 * i) 8))
  | 0x13 => decide (fieldLE r 1 1 < 8) && bits (fieldLE r 1 1) 1 2 != 3 && decide (fieldLE r 2 1 ≤ 7) && zeros r 3 1 &&
      decide (1 ≤ fieldLE r 4 4) && within 1 (2 ^ 40) (fieldLE r 8 8)
  | 0x14 => within 4 16 (fieldLE r 2 1) && decide (fieldLE r 3 1 ≤ 8) && decide (fieldLE r 4 2 ≤ 1016) &&
      decide (1 ≤ fieldLE r 12 2) && zeros r 14 2
  | 0x15 => zeros r 2 6
  | 0x16 => within 1 64 (fieldLE r 6 1)
  | 0x17 => containerOk role r
  | 0x18 => (role (fieldLE r 0 1) == 3 || role (fieldLE r 0 1) == 4) && within 1 31 (fieldLE r 2 1) && zeros r 3 1 &&
      decide (1 ≤ fieldLE r 4 2) && zeros r 28 4
  | 0x20 => decide (fieldLE r 0 1 ≤ 7) && decide (fieldLE r 1 1 ≤ 15) && decide (fieldLE r 2 1 ≤ 2) && decide (fieldLE r 3 1 ≤ 63) &&
      decide (10 ≤ fieldLE r 4 2) && (decide (fieldLE r 6 1 ≤ 15) || fieldLE r 6 1 == 0xFF) && zeros r 7 1
  | 0x21 => decide (fieldLE r 0 1 ≤ 7) && decide (fieldLE r 1 1 ≤ 63) && decide (fieldLE r 2 1 ≤ 2) && within 1 8 (fieldLE r 3 1) &&
      decide (fieldLE r 4 1 ≤ 1) && decide (fieldLE r 5 1 ≤ 1) && zeros r 6 2
  | _ => false

/-- The record size of a live-table kind and the most records it may hold (Tables GTW-4, QUE-3, CAN-3; no table states a limit for the gate lists). -/
def kindShape (kind : Nat) : Option (Nat × Nat) :=
  match kind with
  | 0x01 => some (8, 65536) | 0x10 => some (40, 8192) | 0x11 => some (16, 4096) | 0x12 => some (32, 4096)
  | 0x13 => some (16, 1024) | 0x14 => some (16, 256) | 0x15 => some (16, 1024) | 0x16 => some (8, 8192)
  | 0x17 => some (48, 512) | 0x18 => some (32, 64) | 0x20 => some (16, 1024) | 0x21 => some (16, 512)
  | _ => none

/-- The BLOCK code of the block that owns a kind (R132). -/
def kindBlock (kind : Nat) : Nat := if kind = 1 then 0x10 else if kind < 0x20 then 0x20 else 0x42

/-- XORD of a queue (Table IMG-5). -/
def xordOf (s : State) (q : Nat) : Bool := bit (qflags s q) 2

/-- The state a live-table change resets (R382, R359, R374, R430), after the record changed. -/
def liveChanged (kind idx : Nat) (s : State) : State :=
  match kind with
  | 0x13 =>
    { s with h.gtw.buckets := match liveRec s 0x13 idx with
        | some r => KMap.put s.h.gtw.buckets idx (fieldLE r 4 4 * 2 ^ 32, curTick s)
        | none => KMap.del s.h.gtw.buckets idx }
  | 0x17 => resetContainer idx s
  | 0x21 =>
    (match liveRec s 0x21 idx with
     | some r =>
       if fieldLE r 2 1 = 1 then
         let c := fieldLE r 0 1
         let d := slice r 8 (fieldLE r 3 1)
         setLin s c { linOf s c with pubs := KMap.put (linOf s c).pubs (fieldLE r 1 1) ⟨d, false, 0, d, false⟩ }
       else s
     | none => s)
  | _ => s

/-! ## Changes through GTW.LTCTL (R380, R381) -/

/-- The register key of an origin's bank of an address. -/
def bank (o : Origin) (a : Nat) : Nat := o.code * 0x1000000 + a

/-- The staging list of an origin. -/
def stagingOf (s : State) (o : Origin) : List Staged := KMap.getD s.h.gtw.staging o.code []

/-- The state with an origin's staging list set; an empty list is not kept. -/
def setStaging (o : Origin) (l : List Staged) (s : State) : State :=
  { s with h.gtw.staging := if l.isEmpty then KMap.del s.h.gtw.staging o.code else KMap.put s.h.gtw.staging o.code l }

/-- The record an origin's LTDATA holds, cut to a size. -/
def ltData (s : State) (o : Origin) (n : Nat) : Bytes :=
  ((List.range 16).flatMap (fun k => le 4 (reg s (bank o (0x210010 + 4 * k))))).take n

/-- The change that OP 1 or 2 asks for, by LTSEL and LTDATA of the origin. -/
def ltChange (s : State) (o : Origin) (write : Bool) : Staged :=
  let sel := reg s (bank o 0x210000)
  let inst := bits sel 0 7
  let size := match sect? s 4 inst with | some c => c.recsize | none => 0
  ⟨inst, bits sel 16 16, if write then some (ltData s o size) else none⟩

/-- The checks of one change (R132, R138, R381): permission, hold, range, capacity; none where it passes. -/
def ltRefused (s : State) (o : Origin) (c : Staged) : Option Nat :=
  match sect? s 4 c.inst with
  | none => some 0x08
  | some t =>
    let lvl := permLevel s o (kindBlock t.kind)
    if !bit t.origins o.code ∨ lvl < t.level ∨ lvl = 0 then some 0x08
    else
      let h := recHolderOf s c.inst c.index
      if h ≠ 0 ∧ h ≠ o.code ∧ lvl < 2 then some 0x09
      else
        let bad := match c.data with
          | none => false
          | some d => !recordOk (xordOf s) (vrole s) t.kind d ||
              (t.kind == 0x21 && (liveRecs s 0x21).any (fun r => r.1 != c.index && slice r.2 0 2 == slice d 0 2))
        if bad then some 0x0A
        else if t.cap ≤ c.index then some 0x0B
        else none

/-- The journal entries of one change (Table JRN-1): LIVE, and CONT for each 8 bytes of a record written. -/
def ltEntries (s : State) (o : Origin) (c : Staged) : List (Nat × Nat × Bytes) :=
  match sect? s 4 c.inst with
  | none => []
  | some t =>
    let lvl := permLevel s o (kindBlock t.kind)
    let head := le 4 c.index ++ [byte c.inst, byte lvl] ++ le 2 t.recsize
    match c.data with
    | none => [(2, 2, head)]
    | some d => (2, 1, head) :: (List.range (ceilDiv t.recsize 8)).map (fun i => (4, 0, slice d (8 * i) 8))

/-- One change performed: the record, its hold (R140), and what the change resets; a TUNNEL record's open AVTPDU is emitted first (R382). -/
def ltApply (o : Origin) (c : Staged) (s : State) : State :=
  match sect? s 4 c.inst with
  | none => s
  | some t =>
    let s := if t.kind = 0x18 then emitTunnel c.index s.time.now s else s
    let k := liveKey c.inst c.index
    let s := { s with h.img.live := match c.data with
        | some d => KMap.put s.h.img.live k (padTo t.recsize d)
        | none => KMap.del s.h.img.live k }
    let s := if permLevel s o (kindBlock t.kind) = 2 then { s with h.img.recHolds := KMap.put s.h.img.recHolds k o.code } else s
    liveChanged t.kind c.index s

/-- The first refusal of a staging list, each entry checked after those before it. -/
def ltFirstRefused (o : Origin) : List Staged → State → Option Nat
  | [], _ => none
  | c :: r, s =>
    match ltRefused s o c with
    | some st => some st
    | none => ltFirstRefused o r (ltApply o c s)

/-- The changes that an OP performs: one record, the staging list, or none. -/
def ltChanges (s : State) (o : Origin) (op : Nat) : List Staged :=
  match op with
  | 1 => [ltChange s o true]
  | 2 => [ltChange s o false]
  | 5 => stagingOf s o
  | _ => []

/-- The refusal of a write of LTCTL.OP: of its changes, or of a 65th staged entry (R380). -/
def ltStatus (s : State) (o : Origin) (op : Nat) : Option Nat :=
  if (op = 3 ∨ op = 4) ∧ 64 ≤ (stagingOf s o).length then some 0x0B
  else ltFirstRefused o (ltChanges s o op) s

/-- The effect of LTCTL.OP (R380). -/
def ltEffect (o : Origin) (op : Nat) (s : State) : State :=
  let sel := reg s (bank o 0x210000)
  match op with
  | 3 => setStaging o (stagingOf s o ++ [ltChange s o true]) s
  | 4 => setStaging o (stagingOf s o ++ [ltChange s o false]) s
  | 5 => setStaging o [] ((stagingOf s o).foldl (fun s c => ltApply o c s) s)
  | 6 => setStaging o [] s
  | 7 =>
    let r := KMap.get? s.h.img.live (liveKey (bits sel 0 7) (bits sel 16 16))
    let s := (List.range 16).foldl (fun s k => setReg s (bank o (0x210010 + 4 * k)) (wordAt (r.getD []) k)) s
    setField s (bank o 0x210004) 16 1 (b2n r.isSome)
  | _ => (ltChanges s o op).foldl (fun s c => ltApply o c s) s

end Sys2Proof.Machine
end

