-- ==== Sys2Proof/Machine/Writes.lean ====
section
/-! DEFINITION. Register writes: the checks of R138 with protection (R223 to R227), the value a write leaves, and what each register's write sets off. -/

namespace Sys2Proof.Machine

open Sys2Proof

/-! ## Levels, ranges and holds -/

/-- The records of a section the field die holds. -/
def fieldRecs (s : State) (typ inst : Nat) : List Bytes :=
  match s.f.sects.find? (fun c => c.typ == typ && c.inst == inst) with
  | some c => c.recs
  | none => []

/-- The level of an origin for a block: on the host die by the image in force; on the field die by the matrix it was started with (R136, log entry 13). -/
def levelOf (s : State) (fs : Bool) (o : Origin) (block : Nat) : Nat :=
  if fs then
    match s.f.matrix.find? (fun r => fieldLE r 0 1 == o.code && fieldLE r 1 1 == block) with
    | some r => fieldLE r 2 1
    | none => 0
  else permLevel s o block

/-- The range of a field for a write executed on a die (R18, R112). -/
def rangeOf (s : State) (fs : Bool) (a : Nat) (f : Field) : Int × Int :=
  if fs then
    match (fieldRecs s 0x0C 1).find? (fun r => fieldLE r 0 4 == a && fieldLE r 4 1 == f.lo) with
    | some r =>
      if f.signed then (toSigned 32 (fieldLE r 12 4), toSigned 32 (fieldLE r 16 4))
      else ((fieldLE r 12 4 : Int), (fieldLE r 16 4 : Int))
    | none => (f.min, f.max)
  else fieldRange s a f

/-- Whether a write of a value would change a field (R9, R17): a WO field always counts as changed. -/
def changesField (old v : Nat) (f : Field) : Bool :=
  let o := bits old f.lo f.width
  let n := bits v f.lo f.width
  match f.acc with
  | .rw => o != n
  | .lk => o != n
  | .wo => true
  | .w1c => Nat.land o n != 0
  | .w1s => Nat.land n (2 ^ f.width - 1 - o) != 0
  | _ => false

/-- Registers that only one origin may write, whatever the matrix grants (R513, R627, R810, chapter 21). -/
def soleWriter (a : Nat) : Option Origin :=
  if a = 0x70008 ∨ a = 0x60044 then some .updateMsg
  else if a = 0xF00004 then some .debug
  else if a = 0x820004 ∨ a = 0x82000C ∨ a = 0x820020 then some .fs
  else none

/-- Registers no register write may change: the audio rings (R698, chapter 16) and the mirrors of the FCAN pages (R420). -/
def neverWritten (fs : Bool) (a : Nat) : Bool :=
  (decide (0x508000 ≤ a) && decide (a < 0x518000)) || (decide (0x51C000 ≤ a) && decide (a < 0x528000)) ||
  (!fs && decide (0x418000 ≤ a) && decide (a < 0x420000))

/-- Check 2 of R138: whether the write is refused with DENIED (R9, R17). -/
def deniedWrite (s : State) (fs : Bool) (o : Origin) (d : RegDef) (a v : Nat) : Bool :=
  let lvl := levelOf s fs o (blockOf a)
  let old := peekReg s fs o d a
  neverWritten fs a || (match soleWriter a with | some w => o != w | none => false) ||
  d.fields.any (fun f => changesField old v f && (f.acc == .lk || decide (lvl < (if f.expert then 2 else 1))))

/-- Check 3 of R138: an expert hold of another origin (R141). -/
def heldWrite (s : State) (fs : Bool) (o : Origin) (a : Nat) : Bool :=
  let h := KMap.getD (if fs then s.f.holds else s.h.img.holds) a 0
  decide (h ≠ 0) && decide (h ≠ o.code) && decide (levelOf s fs o (blockOf a) < 2)

/-- The word of an AUD TDM register with one of them replaced. -/
def tdmWith (s : State) (n a v k : Nat) : Nat := if a = portBase n + k then v else reg s (portBase n + k)

/-- A TDM port's registers form a frame of Table AUDP-1, within R689, R695 and R696. -/
def tdmOk (ctl fmt flen fs rxm txm ring : Nat) : Bool :=
  let slots := bits fmt 0 6
  let w := widthBits (bits fmt 8 3)
  let off := bits fmt 16 6
  let len := bits flen 0 12
  let rate := bits fs 0 18
  decide (bits fmt 8 3 ≤ 4) &&
  (if bit ctl 2 then
    slots == 2 && len % 2 == 0 && decide (off + w ≤ len / 2) && decide (len ≤ 2048) && bit fmt 26
   else within 1 32 slots && decide (off + slots * w ≤ len) && decide (len ≤ 2048)) &&
  within 8000 192000 rate && decide (rate * len ≤ 50000000) &&
  decide (rxm < 2 ^ slots) && decide (txm < 2 ^ slots) &&
  decide (bits ring 0 12 * popcount rxm ≤ 2048) && decide (bits ring 0 12 * popcount txm ≤ 2048)

/-- A TDM port with one register replaced still forms such a frame. -/
def tdmWriteOk (s : State) (n a v : Nat) : Bool :=
  tdmOk (tdmWith s n a v 0) (tdmWith s n a v 4) (tdmWith s n a v 8) (tdmWith s n a v 0xC) (tdmWith s n a v 0x10)
    (tdmWith s n a v 0x14) (tdmWith s n a v 0x18)

/-- WIN of a channel obeys R658, and equals WIN of its pair (R679). -/
def chwinOk (s : State) (host : Bool) (ch v : Nat) : Bool :=
  match graphRec s host ch with
  | none => true
  | some r =>
    let l := if bit (fieldLE r 8 1) 0 then 65536 else fieldLE r 4 4
    let pair := fieldLE r 2 1
    decide (v * l ≤ 2 ^ 40) &&
    (pair == 0xFF || reg s ((if host then 0x580240 else 0x800400) + 4 * pair) == v)

/-- The rules of chapters 07 to 21 that refuse a value or a combination with RANGE, beside the fields' own ranges. -/
def specialRange (s : State) (a v : Nat) : Bool :=
  if a = 0x20004 then
    decide (bits v 0 10 ≤ match (recs s 9 0).find? (fun r => fieldLE r 0 1 == 0) with | some r => fieldLE r 2 2 | none => 1023)
  else if a = 0x50040 then srcImpl (bits v 0 9) && decide (bits v 0 9 < 0x100)
  else if a = 0x810040 then srcImpl (bits v 0 9) && decide (0x100 ≤ bits v 0 9)
  else if a = 0x60008 then
    let k := bits v 0 8
    !bit v 16 || (!neverVisited k && (repOf s k).asked.isNone && decide (bits v 8 8 < (kindSize k).1))
  else if a = 0x6000C then !bit v 16 || (islandOf s (bits v 0 8 * 256 + bits v 8 8)).role == 3
  else if 0x100000 ≤ a ∧ a < 0x200000 then
    let e := (a - 0x100000) / 0x1000
    let off := (a - 0x100000) % 0x1000
    if a < 0x10C000 ∧ off = 0 then !bit v 0 || decide (e ≤ 11)
    else if 0x10D000 ≤ a ∧ off = 0 then !bit v 0
    else if 0x200 ≤ off ∧ off < 0x240 ∧ ¬ (0x10C000 ≤ a ∧ a < 0x10D000) then decide (qMinc s (16 * e + (off - 0x200) / 4) ≤ bits v 0 17)
    else true
  else if 0x400000 ≤ a ∧ a < 0x420000 then
    let n := (a - 0x400000) / 0x1000
    if a % 0x1000 = 8 then canTimingOk v (reg s (canReg n 0xC))
    else if a % 0x1000 = 0xC then canTimingOk (reg s (canReg n 8)) v
    else true
  else if 0x440000 ≤ a ∧ a < 0x500000 then
    let p := (a - 0x440000) / 0x10000
    let off := (a - 0x440000) % 0x10000
    if off = 0 then p ≤ 1 || bits v 1 2 == 0
    else if 0x100 ≤ off ∧ off < 0x120 then
      let c := (off - 0x100) / 4
      !bit v 31 || (qSched s (16 * p + c) != 1 && decide (bits v 0 24 ≤ linkRate s p * 1000))
    else true
  else if 0x500000 ≤ a ∧ a < 0x500400 then tdmWriteOk s ((a - 0x500000) / 0x100) a v
  else if 0x500800 ≤ a ∧ a < 0x500C00 ∧ (a - 0x500800) % 0x80 = 4 then decide (fmtCh v * fmtBytes v * fmtSpp v ≤ 1024)
  else if a = 0x500F40 then decide (bits v 0 3 ≤ 6)
  else if 0x580240 ≤ a ∧ a < 0x580280 then chwinOk s true ((a - 0x580240) / 4) v
  else if 0x800400 ≤ a ∧ a < 0x800600 then chwinOk s false ((a - 0x800400) / 4) v
  else true

/-- Check 4 of R138: whether the write is refused with RANGE (R18 and the rules above). -/
def rangeWrite (s : State) (fs : Bool) (d : RegDef) (a v : Nat) : Bool :=
  d.fields.any (fun f =>
    f.acc == .rw &&
    (let r := rangeOf s fs a f
     let x : Int := if f.signed then toSigned f.width (bits v f.lo f.width) else (bits v f.lo f.width : Nat)
     decide (x < r.1) || decide (r.2 < x))) ||
  !specialRange s a v

/-! ## Modes and windows -/

/-- Check 1 of R138 on the host die (R57, R63): none where the write may go on. -/
def hostModeStatus (s : State) (o : Origin) : Option Nat :=
  if !Origin.governed o then none
  else match s.sys.mode with
  | .run => none
  | .degraded => none
  | .hold => some 0x07
  | _ => some 0x06

/-- Check 1 of R138 on the field die (R946). -/
def fieldModeStatus (s : State) (o : Origin) (d : RegDef) : Option Nat :=
  if !Origin.governed o then none
  else match s.f.state with
  | .frun => none
  | .alone => none
  | .fhold => if d.jrn then some 0x07 else none
  | _ => some 0x06

/-- The unlock key of R225. -/
def unlockKey : Nat := 0x7C3E1D52

/-- Origins whose messages hold a window for each protected write, or that protection does not concern (Table HOST-9). -/
def alwaysOpen (o : Origin) : Bool :=
  match o with
  | .updateMsg => true
  | .netMgmt => true
  | .imageLoad => true
  | .faultReaction => true
  | .repair => true
  | .device => true
  | _ => false

/-- The instructions or writes a window lasts (Table HOST-9, R875). -/
def windowLength (o : Origin) : Nat := match o with | .debug => 1 | _ => 32

/-- Whether an origin's window is open, for the host die's blocks or the field blocks. -/
def windowOpen (s : State) (fld : Bool) (o : Origin) : Bool :=
  decide (0 < KMap.getD (if fld then s.f.windows else s.h.port.windows) o.code 0)

/-- The state with an origin's window set; a closed window is not listed. -/
def setWindow (fld : Bool) (o : Origin) (n : Nat) (s : State) : State :=
  let put := fun (m : KMap Nat) => if n = 0 then KMap.del m o.code else KMap.put m o.code n
  if fld then { s with f.windows := put s.f.windows } else { s with h.port.windows := put s.h.port.windows }

/-- The unlock registers. -/
def isUnlock (a : Nat) : Bool := a == 0x40 || a == 0x820000

/-- The window after one write of an origin (R224, R225, R875): a write of the key opens it, any other value closes it, and a protected write closes it; a window of DEBUG closes at its next write. -/
def windowAfter (s : State) (o : Origin) (a v : Nat) (s' : State) : State :=
  let fld := isRemote a
  if isUnlock a then setWindow fld o (if v = unlockKey then windowLength o else 0) s'
  else match regAt a with
  | none => if o = .debug then setWindow fld o 0 s' else s'
  | some d => if d.protected || o == .debug then (if windowOpen s fld o then setWindow fld o 0 s' else s') else s'

/-- A protected register's write without an open window (R224). -/
def lockedWrite (s : State) (o : Origin) (d : RegDef) (a : Nat) : Bool :=
  d.protected && !alwaysOpen o && !windowOpen s (isRemote a) o

/-! ## What a write leaves and sets off -/

/-- Registers whose written value stands elsewhere than in the register file: held halves, rings, buffers, and fields kept in the keeper domain. -/
def storesElsewhere (a : Nat) : Bool :=
  a == 0x3000C || a == 0x30010 || a == 0x70008 ||
  (decide (0x100000 ≤ a) && decide (a < 0x200000) && ((a - 0x100000) % 0x1000 == 0x98 || (a - 0x100000) % 0x1000 == 0x9C) && !(decide (0x10C000 ≤ a) && decide (a < 0x10D000))) ||
  (decide (0x440000 ≤ a) && decide (a < 0x4A0000) && decide (0x400 ≤ (a - 0x440000) % 0x10000) && decide ((a - 0x440000) % 0x10000 < 0x700) &&
    ((a - 0x440000) % 0x20 == 4 || (a - 0x440000) % 0x20 == 8)) ||
  (decide (0x508000 ≤ a) && decide (a < 0x528000)) ||
  (decide (0x820400 ≤ a) && decide (a < 0x820800))

/-- The stored value after a write: the RW fields take the bits written (R9, R13, R19). -/
def mergeRw (d : RegDef) (stored v : Nat) : Nat :=
  d.fields.foldl (fun n f => if f.acc = .rw then putBits n f.lo f.width (bits v f.lo f.width) else n) stored

/-- The bytes a boot-flash operation of SYS.FLCTL.CMD covers: a page of 256, a sector of 4 KiB or 64 KiB. -/
def flashSize (cmd : Nat) : Nat := match cmd with | 3 => 0x1000 | 4 => 0x10000 | _ => 256

/-- An address of the flash lies in the slot in force (R102). -/
def inSlotInForce (s : State) (a : Nat) : Bool := match s.h.img.image with | some im => a / 0x1000000 == im.slot | none => false

/-- A register-started boot-flash operation (R234): 1 read page, 2 program page, 3 and 4 erases; ERR names the cause where it does not start. An erase size that the SFDP does not declare is a flash error (log entry 19). -/
def flashStart (cmd : Nat) (s : State) : State :=
  let a := fieldOf s 0x64 0 26
  let size := flashSize cmd
  let dens := s.flash.dens * 0x100000
  let err :=
    if s.h.port.flash.isSome then 5
    else if a % size ≠ 0 then 3
    else if dens < a + size then 4
    else if decide (2 ≤ cmd) && inSlotInForce s a then 1
    else if !s.flash.valid || (cmd == 3 && !s.flash.er4k) || (cmd == 4 && !s.flash.er64k) then 2
    else 0
  if cmd = 0 ∨ 4 < cmd then s
  else
    let s := setField s 0x60 12 4 err
    if err = 0 then { s with h.port.flash := some (cmd, a) } else s

/-- A boot-flash operation ends (R234, R235): the page read, programmed, or the sector erased; a flash error leaves the flash as it is. -/
def flashDone (ok : Bool) (s : State) : State :=
  match s.h.port.flash with
  | none => s
  | some (cmd, a) =>
    let s := { s with h.port.flash := none }
    if !ok then setField s 0x60 12 4 2
    else match cmd with
    | 1 => (List.range 64).foldl (fun s k => setReg s (0x100 + 4 * k) (leNat (s.flash.read (a + 4 * k) 4))) s
    | 2 =>
      let page := (List.range 64).flatMap (fun k => le 4 (reg s (0x100 + 4 * k)))
      { s with flash := s.flash.program a page }
    | 3 => { s with flash := s.flash.erase a 0x1000 }
    | _ => { s with flash := s.flash.erase a 0x10000 }

/-- A plane's level written (R300): raising asks leave, lowering gives it back. -/
def planeEffect (kind : Nat) (old new : Bool) (s : State) : State :=
  let set := fun (b : Bool) (s : State) => if kind = 3 then { s with h.fab.ofull := b } else { s with h.fab.xfull := b }
  if !old && new then askLeave false kind 0 s.time.now s
  else if old && !new then set false (giveLeave false kind 0 (dropLeave false kind 0 s))
  else s

/-- GBASEH written (R333): both halves take effect at the next cycle start, or at once while GBASE has not been reached. -/
def gbaseEffect (e v : Nat) (s : State) : State :=
  let base := 0x100098 + e * 0x1000
  let low := (KMap.get? s.h.fab.gbaslHeld e).getD (reg s base)
  let s := { s with h.fab.gbaslHeld := KMap.del s.h.fab.gbaslHeld e }
  if (KMap.get? s.h.fab.gate e).isNone then
    { setReg (setReg s base low) (base + 4) v with h.fab.gbasePend := KMap.del s.h.fab.gbasePend e }
  else { s with h.fab.gbasePend := KMap.put s.h.fab.gbasePend e (low + v * 2 ^ 32) }

/-- An injected fault event (R780): stamped with the write's effect. -/
def injectFault (src detail : Nat) (s : State) : State :=
  if src < 0x100 then { s with h.flt.pend := s.h.flt.pend ++ [⟨curTick s, src, detail, s.time.now, true⟩] }
  else { s with f.flt.pend := s.f.flt.pend ++ [⟨tickOf (fnow s), src, detail, fnow s, true⟩] }

/-- A visit asked for (R819). -/
def shedRequest (kind duty : Nat) (s : State) : State :=
  setRep kind { repOf s kind with asked := some (kind, duty) } s

/-- A write of ETH.MDIOCMD (R458, R502): it starts a frame, or, while one is under way, reads ERR 1. -/
def mdioStart (v : Nat) (s : State) : State :=
  if s.h.eth.mdio.isSome then setField s 0x44F000 30 1 1
  else { setField s 0x44F000 30 1 0 with h.eth.mdio := some (v % 2 ^ 13) }

/-- An MDIO frame ends: read data appears (R458). -/
def mdioDone (data : Nat) (s : State) : State :=
  match s.h.eth.mdio with
  | none => s
  | some c =>
    let s := { s with h.eth.mdio := none }
    if 2 ≤ bits c 11 2 then setField s 0x44F004 0 16 data else s

/-- A write of an association's PNL or PNH register (R486). -/
def saPnEffect (a v : Nat) (s : State) : State :=
  if (a - 0x440000) % 0x20 = 4 then { s with h.eth.pnHeld := KMap.put s.h.eth.pnHeld a v }
  else
    let low := (KMap.get? s.h.eth.pnHeld (a - 4)).getD (reg s (a - 4))
    setReg (setReg { s with h.eth.pnHeld := KMap.del s.h.eth.pnHeld (a - 4) } (a - 4) low) a v

/-- The code a send from the FS answers in FSUP.TXCTL.ERR (Table TAHR-12). -/
def txErr (b : Barrier) : Nat := match b with | .typ => 1 | .len => 2 | .origin => 3 | .minint => 5

/-- A write of FSUP.TXCTL with SEND (R615, R616, R629): TBUF sent as an image-defined type. -/
def fsSend (v : Nat) (s : State) : State :=
  let typ := bits v 0 6
  let len := bits v 8 11
  let p := padTo len (s.f.tbuf.take len)
  let refused := if typ < 16 then some Barrier.typ else barrier s true 1 s.f.fe.txRef typ 8 (fnow s) p
  match refused with
  | some b => setField s 0x820020 28 4 (txErr b)
  | none =>
    if s.f.state = .alone ∧ !holdsType s typ then setField s 0x820020 28 4 4
    else setField (fieldSend typ 8 p s) 0x820020 28 4 0

/-- FSUP.PERMIT.GRANT written by the FS (R626, R627, R633). -/
def permitWrite (g : Bool) (s : State) : State :=
  let s := { s with f.rberr := false }
  if g then permitUpdate s else withdraw 3 s

/-- What a write of a SYS, PWR, TIM, IMG, FLT, REP or KEY register sets off. -/
def effectLow (o : Origin) (a v : Nat) (s : State) : State :=
  if a = 0x14 then (if bit v 0 && s.sys.mode.live then endSession (enterStandby o.code s) else s)
  else if a = 0x1C then (if bit v 0 then { setField s 0x1C 0 1 0 with sys.degOrigin := o.code } else s)
  else if a = 0x60 then flashStart (bits v 0 3) s
  else if a = 0x30008 then { s with time.rateNext := some (toSigned 32 v) }
  else if a = 0x3000C then { s with time.ofslHeld := some v }
  else if a = 0x30010 then
    { s with time.ptpofs := v * 2 ^ 32 + s.time.ofslHeld.getD (s.time.ptpofs % 2 ^ 32), time.ofslHeld := none }
  else if a = 0x40040 then
    let k := bits v 2 22 * 4
    let del := fun (m : KMap Nat) => if KMap.getD m k 0 = o.code then KMap.del m k else m
    { s with h.img.holds := del s.h.img.holds, f.holds := del s.f.holds }
  else if a = 0x40048 then
    let k := liveKey (bits v 0 7) (bits v 16 16)
    if KMap.getD s.h.img.recHolds k 0 = o.code then { s with h.img.recHolds := KMap.del s.h.img.recHolds k } else s
  else if a = 0x50000 then (if bit v 0 then clearLatch 0 s else s)
  else if a = 0x50040 then injectFault (bits v 0 9) (bits v 8 8) s
  else if a = 0x60008 then (if bit v 16 then shedRequest (bits v 0 8) (bits v 8 8) s else s)
  else if a = 0x6000C then (if bit v 16 then returnStart (bits v 0 8 * 256 + bits v 8 8) s else s)
  else if a = 0x60044 then { s with keeper.ageing := KMap.del s.keeper.ageing (bits v 0 6) }
  else if a = 0x70008 then { s with keeper.tampArm := v % 4 }
  else s

/-- What a write of a FAB, GTW, CAN or LIN register sets off. -/
def effectNet (fs : Bool) (o : Origin) (a old v : Nat) (s : State) : State :=
  if a = 0x10C000 then planeEffect 4 (bit old 1) (bit v 1) (planeEffect 3 (bit old 0) (bit v 0) s)
  else if a < 0x200000 then
    let e := (a - 0x100000) / 0x1000
    let off := (a - 0x100000) % 0x1000
    if off = 0x98 then { s with h.fab.gbaslHeld := KMap.put s.h.fab.gbaslHeld e v }
    else if off = 0x9C then gbaseEffect e v s
    else s
  else if a = 0x210004 then ltEffect o (bits v 0 3) s
  else if a < 0x400000 then s
  else if a < 0x420000 then
    let n := (a - 0x400000) / 0x1000
    let off := a % 0x1000
    if n < 24 ∨ fs then
      if off = 0 then
        let s := canInitEffect n (bit old 0) (bit v 0) s
        if bit v 1 then canRecoverEffect n s else s
      else if off = 0x20 then canAbortEffect n (bits v 0 8) s
      else s
    else s
  else
    let c := (a - 0x420000) / 0x100
    if a % 0x100 = 0 then linCtlEffect c old v s else s

/-- What a write of an ETH register sets off. -/
def effectEth (a v : Nat) (s : State) : State :=
  let p := (a - 0x440000) / 0x10000
  let off := (a - 0x440000) % 0x10000
  if a = 0x44F000 then mdioStart v s
  else if off = 0 then ethPortState p s
  else if off = 8 then t1ctlEffect p v s
  else if off = 0xC ∨ off = 0x10 then plcaEffect p s
  else if 0x100 ≤ off ∧ off < 0x120 then { s with h.eth.credit := KMap.del s.h.eth.credit (p * 8 + (off - 0x100) / 4) }
  else if 0x400 ≤ off ∧ off < 0x700 then
    if off % 0x20 = 0 then { s with h.eth.dead := s.h.eth.dead.filter (fun x => x != a) }
    else if off % 0x20 = 4 ∨ off % 0x20 = 8 then saPnEffect a v s
    else s
  else s

/-- What a write of an AUD register sets off. -/
def effectAud (a old v : Nat) (s : State) : State :=
  if a < 0x500400 then
    if a % 0x100 = 0 then portEnable ((a - 0x500000) / 0x100) (bit old 0) (bit v 0) s else s
  else if a < 0x500600 then
    let x := (a - 0x500400) / 0x100
    if a % 0x100 = 0 then
      let s := portEnable (4 + x) (bit old 0) (bit v 0) s
      let s := if bit v 3 then bptCommit x false s else s
      if bit v 4 then bptCommit x true s else s
    else s
  else if a < 0x500800 then
    if a % 0x100 = 0 then portEnable (6 + (a - 0x500600) / 0x100) (bit old 0) (bit v 0) s else s
  else if a < 0x500C00 then
    if (a - 0x500800) % 0x80 = 0 then epctlEffect ((a - 0x500800) / 0x80) old v s else s
  else if a < 0x500D40 then
    let n := (a - 0x500D00) / 0x10
    inputEffect (4 + n) (bit old 8) (bit v 8) (inputEffect n (bit old 0) (bit v 0) s)
  else if a = 0x500D80 then inputEffect 9 (bit old 1) (bit v 1) (inputEffect 8 (bit old 0) (bit v 0) s)
  else if a = 0x500E00 then outWrite 1 (bit old 0) (bit v 0) s
  else if a = 0x500E10 then outWrite 2 (bit old 0) (bit v 0) s
  else if a = 0x500E40 then outWrite 0 (bit old 0) (bit v 0) s
  else if a = 0x500F00 then
    let s := if bit v 0 then detectStart 0 s else s
    let s := if bit v 1 then detectStart 1 s else s
    if bit v 2 then detectStart 2 s else s
  else if a = 0x500F40 then audCalRequest (bits v 0 3) (bit v 8) s
  else if 0x503000 ≤ a ∧ a < 0x504000 then
    if a % 0x20 = 0x14 ∧ bit v 0 then bqCommit (bqKey ((a - 0x503000) / 0x100) ((a - 0x503000) % 0x100 / 0x20)) s else s
  else if 0x504000 ≤ a ∧ a < 0x506000 then
    let b := (a - 0x504000) / 0x400
    let off := (a - 0x504000) % 0x400
    if off = 0 then bandEffect b (bit old 0) (bit v 0) s
    else if off % 0x20 = 0x14 ∧ bit v 0 ∧ 0x40 ≤ off then bqCommit (baKey b ((off - 0x40) / 0x40) (off % 0x40 / 0x20)) s
    else s
  else if 0x518000 ≤ a ∧ a < 0x51C000 then
    { s with h.aud.play := RegFile.set s.h.aud.play ((a - 0x518000) / 4) (BitVec.ofNat 32 v) }
  else s

/-- What must stand before a coefficient or a gain register takes its new value: the value in force is kept (R729, R735). -/
def beforeWrite (a old v : Nat) (s : State) : State :=
  if 0x502000 ≤ a ∧ a < 0x503000 then setGain ((a - 0x502000) / 4) (v % 2 ^ 16) s
  else if 0x503000 ≤ a ∧ a < 0x504000 ∧ a % 0x20 < 0x14 then
    bqHold (bqKey ((a - 0x503000) / 0x100) ((a - 0x503000) % 0x100 / 0x20)) (a % 0x20 / 4) old s
  else if 0x504000 ≤ a ∧ a < 0x506000 ∧ 0x40 ≤ (a - 0x504000) % 0x400 ∧ a % 0x20 < 0x14 then
    bqHold (baKey ((a - 0x504000) / 0x400) (((a - 0x504000) % 0x400 - 0x40) / 0x40) (a % 0x40 / 0x20)) (a % 0x20 / 4) old s
  else s

/-- What a write of an HSNS, TAHR, MEAS, FFLT, FSUP or DBG register sets off. -/
def effectHigh (a old v : Nat) (s : State) : State :=
  if a = 0x580004 then (if bit v 0 then hsnsCalRequest s else s)
  else if 0x580200 ≤ a ∧ a < 0x580240 then chctlEffect true ((a - 0x580200) / 4) (bit old 0) (bit v 0) s
  else if a = 0x600004 then sendPermit (bit v 0) s
  else if a = 0x800010 then calRequest (v % 8) s
  else if 0x800200 ≤ a ∧ a < 0x800400 then chctlEffect false ((a - 0x800200) / 4) (bit old 0) (bit v 0) s
  else if a = 0x810000 then (if bit v 0 then clearLatch 0x100 s else s)
  else if a = 0x810040 then injectFault (bits v 0 9) (bits v 8 8) s
  else if a = 0x820004 then permitWrite (bit v 0) s
  else if a = 0x82000C then wdRefresh v s
  else if a = 0x820020 then (if bit v 24 then fsSend v s else s)
  else if 0x820400 ≤ a ∧ a < 0x820800 then { s with f.tbuf := overlay (padTo 1024 s.f.tbuf) (a - 0x820400) (le 4 v) }
  else if a = 0xF00004 then (if bit v 0 then endSession s else s)
  else s

/-- What a write sets off beside the value it leaves. -/
def regEffect (fs : Bool) (o : Origin) (a old v : Nat) (s : State) : State :=
  if a < 0x100000 then effectLow o a v s
  else if a < 0x440000 then effectNet fs o a old v s
  else if a < 0x500000 then effectEth a v s
  else if a < 0x580000 then effectAud a old v s
  else effectHigh a old v s

/-- The expert hold a write places (R140): none on a banked register or an unlock register, and none by an origin the matrix does not govern. -/
def placeHold (fs : Bool) (o : Origin) (d : RegDef) (a : Nat) (s : State) : State :=
  if d.bank || isUnlock a || !Origin.governed o || levelOf s fs o (blockOf a) != 2 then s
  else if fs then { s with f.holds := KMap.put s.f.holds a o.code }
  else { s with h.img.holds := KMap.put s.h.img.holds a o.code }

/-- A write that passed its checks takes effect on a die: the value, what it sets off, its hold, and the writer's window. -/
def applyWrite (fs : Bool) (o : Origin) (a v : Nat) (s : State) : State :=
  match regAt a with
  | none => s
  | some d =>
    let old := peekReg s fs o d a
    let k := storeKey fs d o a
    let s1 := beforeWrite a old v s
    let s2 := if storesElsewhere a then s1 else setReg s1 k (mergeRw d (reg s1 k) v)
    placeHold fs o d a (windowAfter s o a v (regEffect fs o a old v s2))

/-! ## Checking a transaction's writes -/

/-- The journal entry of a register write (Table JRN-3). -/
def regEntry (s : State) (fs : Bool) (o : Origin) (a v : Nat) : Nat × Nat × Bytes := (1, levelOf s fs o (blockOf a), le 4 a ++ le 4 v)

/-- The entries a write needs: one REG for a journalled register, or those of the live-table changes it commits. -/
def writeEntries (s : State) (o : Origin) (d : RegDef) (a v : Nat) : List (Nat × Nat × Bytes) :=
  if a = 0x210004 then (ltChanges s o (bits v 0 3)).flatMap (ltEntries s o)
  else if d.jrn then [regEntry s false o a v]
  else []

/-- The first check of R138 and R224 that a write of a host-die register fails; `used` entries of the transaction stand before it. -/
def hostWriteStatus (s : State) (o : Origin) (a v used : Nat) : Option Nat :=
  match regAt a with
  | none => some 0x05
  | some d =>
    if !Origin.governed o then none
    else if deniedWrite s false o d a v then some 0x08
    else if heldWrite s false o a then some 0x09
    else if rangeWrite s false d a v then some 0x0A
    else
      match (if a = 0x210004 then ltStatus s o (bits v 0 3) else none) with
      | some st => some st
      | none =>
        let n := (writeEntries s o d a v).length
        if n ≠ 0 ∧ !jFits s used n then some 0x0C
        else if lockedWrite s o d a then some 0x0D
        else none

/-- The checks that the host die makes of a remote write before it sends it (R617). -/
def remoteHostStatus (s : State) (o : Origin) (a v : Nat) : Option Nat :=
  match regAt a with
  | none => some 0x05
  | some d =>
    if deniedWrite s false o d a v then some 0x08
    else if heldWrite s false o a then some 0x09
    else if lockedWrite s o d a then some 0x0D
    else none

/-- The checks that the field die makes of a write it executes (R617, R946, R246): all of them for the FS's own, the others' from the range on. -/
def fieldWriteStatus (s : State) (o : Origin) (a v : Nat) : Option Nat :=
  match regAt a with
  | none => some 0x05
  | some d =>
    match fieldModeStatus s o d with
    | some st => some st
    | none =>
      let own := o == .fs
      if own && deniedWrite s true o d a v then some 0x08
      else if own && heldWrite s true o a then some 0x09
      else if rangeWrite s true d a v then some 0x0A
      else if d.jrn && decide (256 ≤ s.f.jout.length) then some 0x0C
      else if own && lockedWrite s o d a then some 0x0D
      else none

/-- A refusal recorded for its origin (R222, R259): SYS.WREFUSE or FSUP.WREFUSE, and JRN.CNT.REFUSED. -/
def recordRefusal (fs : Bool) (o : Origin) (a st : Nat) (s : State) : State :=
  let s := setReg s (bank o (if fs then 0x820038 else 0x44)) (bits a 2 22 * 4 + st * 2 ^ 24)
  if st = 0x0C ∧ !fs then bump s 0x10014 0 16 1 else s

/-- The writes of one transaction checked in payload order, each on the state the earlier ones leave (R207, R219): the first refusal with its address, or the journal entries of all. -/
def checkHostWrites (o : Origin) : List (Nat × Nat) → State → List (Nat × Nat × Bytes) → Except (Nat × Nat) (List (Nat × Nat × Bytes))
  | [], _, es => .ok es
  | (a, v) :: r, s, es =>
    match hostWriteStatus s o a v es.length with
    | some st => .error (a, st)
    | none =>
      let more := match regAt a with | some d => writeEntries s o d a v | none => []
      checkHostWrites o r (applyWrite false o a v s) (es ++ more)

/-- The windows a refused transaction still closes: the first protected write reached closes its window whether or not it takes effect (R224). -/
def closeRefused (o : Origin) (a : Nat) (s : State) : State := if isUnlock a then s else windowAfter s o a 0 s

/-- Writes to host-die registers by an origin, all or none (R206, R207): the journal takes them as one change, then they take effect in order. -/
def hostWrites (o : Origin) (ws : List (Nat × Nat)) (s : State) : State × Nat :=
  match ws with
  | [] => (s, 0)
  | (a0, _) :: _ =>
    match hostModeStatus s o with
    | some st => (recordRefusal false o a0 st s, st)
    | none =>
      match checkHostWrites o ws s [] with
      | .error (a, st) => (recordRefusal false o a st (closeRefused o a s), st)
      | .ok es =>
        let s := jChange s.time.now o.code es s
        (ws.foldl (fun s w => applyWrite false o w.1 w.2 s) s, 0)

/-- The host die's checks of a remote transaction in payload order; the windows of the field blocks open and close with it (R617). -/
def checkRemoteWrites (o : Origin) : List (Nat × Nat) → State → Except (Nat × Nat) State
  | [], s => .ok s
  | (a, v) :: r, s =>
    match remoteHostStatus s o a v with
    | some st => .error (a, st)
    | none => checkRemoteWrites o r (windowAfter s o a v s)

/-- Writes of remote registers by a host-die origin (R208, R213, R617): checked, then sent; LINKDOWN while the link is down. -/
def remoteWrites (o : Origin) (ws : List (Nat × Nat)) (seq : Nat) (s : State) : State × Nat :=
  match ws with
  | [] => (s, 0)
  | (a0, _) :: _ =>
    match hostModeStatus s o with
    | some st => (recordRefusal false o a0 st s, st)
    | none =>
      match checkRemoteWrites o ws s with
      | .error (a, st) => (recordRefusal false o a st (closeRefused o a s), st)
      | .ok s' => if !s.h.tahr.link then (s, 0x15) else (remoteSend o 2 ws seq s', 0x0F)

/-- One write executed on the field die, with its report to the journal (R245). -/
def fieldApply (o : Origin) (a v : Nat) (s : State) : State :=
  match regAt a with
  | none => s
  | some d =>
    let lvl := levelOf s true o (blockOf a)
    let s' := applyWrite true o a v s
    if d.jrn then fieldJournal (fnow s) a v o.code lvl s' else s'

/-- A store of the FS (R945, R946): to its own regions, checked on the field die; a refusal is recorded in the FS bank of FSUP.WREFUSE. -/
def fsWrite (a v : Nat) (s : State) : State × Nat :=
  if !fsReaches a then (recordRefusal true .fs a 0x05 s, 0x05)
  else match fieldWriteStatus s .fs a v with
  | some st => (recordRefusal true .fs a st (closeRefused .fs a s), st)
  | none => (fieldApply .fs a v s, 0)

/-- A single write by an origin, wherever its register lies: the FS's own, a remote one, or one of the host die. -/
def busWrite (o : Origin) (a : Nat) (v : Word) (s : State) : State × Nat :=
  if o = .fs then fsWrite a v.toNat s
  else if isRemote a then remoteWrites o [(a, v.toNat)] 0 s
  else hostWrites o [(a, v.toNat)] s

end Sys2Proof.Machine
end

