-- ==== Sys2Proof/Machine/Content.lean ====
section
/-! DEFINITION. The checks of an image slot (Table IMG-8): header, section table, hashes, signature, and the contents of every section. -/

namespace Sys2Proof.Machine

open Sys2Proof

/-! ## Header, table, hashes and signature (R101, R104, R106, R116, R118, R119) -/

/-- The header of a slot as the flash holds it. -/
def slotHeader (s : State) (slot : Nat) : Bytes := s.flash.read (slotBase slot) 64

/-- The bytes of the image in a slot. -/
def slotImage (s : State) (slot : Nat) : Bytes := s.flash.read (slotBase slot) (fieldLE (slotHeader s slot) 0x0C 4)

/-- Whether an OTP image key slot is revoked. -/
def keyRevoked (s : State) (k : Nat) : Bool := if k = 0 then s.otp.revoked0 else s.otp.revoked1

/-- The header checks of a slot, codes 0x02 to 0x08 in that order; 0 where it passes (R101, R128). -/
def headerCode (s : State) (slot : Nat) : Nat :=
  let hd := slotHeader s slot
  let len := fieldLE hd 0x0C 4
  let sig := fieldLE hd 0x1C 4
  let uid := slice hd 0x20 16
  let svn := fieldLE hd 0x14 2
  let key := fieldLE hd 0x1A 1
  if !s.flash.valid ∨ slotSpace s.flash slot = 0 then 0x02
  else if slice hd 0 4 ≠ [0x54, 0x50, 0x48, 0x49] ∨ fieldLE hd 4 2 ≠ 1 ∨ fieldLE hd 6 2 ≠ 0x40 then 0x03
  else if fieldLE hd 8 4 ≠ 0x82560A01 then 0x04
  else if 0x1000000 < len ∨ sig % 64 ≠ 0 ∨ len ≠ sig + 192 ∨ slotSpace s.flash slot < len then 0x05
  else if uid ≠ List.replicate 16 0 ∧ uid ≠ s.otp.uid then 0x06
  else if svn < s.otp.floor ∨ 64 < svn then 0x07
  else if 1 < key ∨ keyRevoked s key then 0x08
  else 0

/-- Section table entries in ascending order of (TYPE, INST), no pair twice. -/
def entriesAscend : List Bytes → Bool
  | a :: b :: r => decide (fieldLE a 0 2 * 256 + fieldLE a 2 1 < fieldLE b 0 2 * 256 + fieldLE b 2 1) && entriesAscend (b :: r)
  | _ => true

/-- Sections in ascending order of their place. -/
def sectOrder (img : Bytes) : List Bytes := sortBy (fun e => [fieldLE e 4 4]) (sectEntries img)

/-- No two sections overlap: each ends at or before the next one's start. -/
def noOverlap : List Bytes → Bool
  | a :: b :: r => decide (fieldLE a 4 4 + fieldLE a 8 4 ≤ fieldLE b 4 4) && noOverlap (b :: r)
  | _ => true

/-- The section table holds (R105, R106): NSECT in range, order, places and no overlap. -/
def tableOk (img : Bytes) : Bool :=
  let n := fieldLE img 0x18 2
  let es := sectEntries img
  within 1 64 n && entriesAscend es &&
  es.all (fun e => fieldLE e 4 4 % 64 == 0 && decide (0x40 + 48 * n ≤ fieldLE e 4 4) &&
    decide (fieldLE e 4 4 + fieldLE e 8 4 ≤ fieldLE img 0x1C 4) && fieldLE e 12 4 == 0) &&
  noOverlap (sectOrder img)

/-- The bytes of a stretch of the image are all zero. -/
def gapZero (img : Bytes) (from_ to_ : Nat) : Bool := zeros img from_ (to_ - from_)

/-- The stream of step 4: gaps and hashes in the order in which the bytes pass; the code of the first failure, or 0. -/
def streamCode (img : Bytes) : List Bytes → Nat → Nat
  | [], pos => if gapZero img pos (fieldLE img 0x1C 4) then 0 else 0x0A
  | e :: r, pos =>
    if !gapZero img pos (fieldLE e 4 4) then 0x0A
    else if padTo 32 (Config.sha256 (sectBytes img e)) ≠ slice e 16 32 then 0x0B
    else streamCode img r (fieldLE e 4 4 + fieldLE e 8 4)

/-- The image digest (R116, R117). -/
def imageDigest (img : Bytes) : Bytes := padTo 48 (Config.sha384 (img.take (fieldLE img 0x1C 4)))

/-- The public key and the signature of an image (Table IMG-6). -/
def imagePub (img : Bytes) : Bytes := slice img (fieldLE img 0x1C 4) 96
@[inherit_doc imagePub] def imageSig (img : Bytes) : Bytes := slice img (fieldLE img 0x1C 4 + 96) 96

/-- The checks of step 5: the key hash (KEY), the signature, and the floor once more (R116, R119). -/
def signatureCode (s : State) (img : Bytes) : Nat :=
  let want := if fieldLE img 0x1A 1 = 0 then s.otp.keyHash0 else s.otp.keyHash1
  if padTo 48 (Config.sha384 (imagePub img)) ≠ padTo 48 want ∨ keyRevoked s (fieldLE img 0x1A 1) then 0x08
  else if !Config.ecdsaVerify 1 (imagePub img) (imageDigest img) (imageSig img) then 0x09
  else if fieldLE img 0x14 2 < s.otp.floor then 0x07
  else 0

/-- An image parsed from its bytes. -/
def parseImage (slot : Nat) (img : Bytes) : Image :=
  ⟨slot, fieldLE img 0x10 4, fieldLE img 0x14 2, fieldLE img 0x16 2, fieldLE img 0x1A 1, fieldLE img 0x0C 4, imageDigest img, parseSects img⟩

/-! ## What an image loads -/

/-- The records of a section of an image. -/
def imRecs (im : Image) (typ inst : Nat) : List Bytes :=
  match im.sects.find? (fun c => c.typ == typ && c.inst == inst) with | some c => c.recs | none => []

/-- The live records of an image at commit (R947): key and bytes. -/
def imageLive (im : Image) : KMap Bytes :=
  (im.sects.filter (fun c => c.typ == 4)).foldl (fun m c =>
    c.recs.zipIdx.foldl (fun m p => KMap.put m (liveKey c.inst p.2) p.1) m) []

/-- The host register values that sections other than REG_INIT give (R112). -/
def sectionRegs (im : Image) (m : KMap Word) : KMap Word :=
  let bud := fun (k : Nat) => (imRecs im 9 0).find? (fun r => fieldLE r 0 1 == k)
  let m := match bud 0 with | some r => RegFile.setBits m 0x20004 0 10 (fieldLE r 2 2) | none => m
  let m := (List.range 7).foldl (fun m i => match bud (i + 1) with
    | some r => RegFile.setBits (RegFile.setBits (RegFile.setBits m (0x20010 + 4 * i) 0 10 (fieldLE r 2 2)) (0x20010 + 4 * i) 12 3 (fieldLE r 1 1)) (0x20010 + 4 * i) 16 16 (fieldLE r 4 2)
    | none => m) m
  let m := (imRecs im 3 0).foldl (fun m r =>
    let p := fieldLE r 0 1 * 0x1000
    RegFile.setBits (RegFile.setBits m (0x100000 + p) 8 2 (bits (fieldLE r 1 1) 0 2)) (0x100088 + p) 0 16 (fieldLE r 2 2)) m
  let m := (imRecs im 3 1).foldl (fun m r =>
    let q := fieldLE r 0 2
    let a := 0x100200 + q / 16 * 0x1000 + 4 * (q % 16)
    RegFile.setBits (RegFile.setBits m a 0 17 (fieldLE r 8 4)) (a + 0x40) 0 16 (fieldLE r 12 2)) m
  let m := (imRecs im 6 1).foldl (fun m r =>
    let ch := fieldLE r 0 1
    RegFile.setBits (RegFile.setBits m (chctlReg true ch) 0 1 1) (chwinReg true ch) 0 32 (fieldLE r 12 4)) m
  (imRecs im 7 0).zipIdx.foldl (fun m p => RegFile.setBits m (0x502000 + 4 * p.2) 0 16 (fieldLE p.1 4 2)) m

/-- The register key of a REG_INIT address of the field die: its FCAN pages stand apart from their mirrors on the host die (R420). -/
def fieldRegKey (a : Nat) : Nat := if 0x418000 ≤ a ∧ a < 0x420000 then 0x20000000 + a else a

/-- REG_INIT records of the field die, by register key. -/
def fieldInit (rs : List Bytes) : List Bytes := rs.map (fun r => le 4 (fieldRegKey (fieldLE r 0 4)) ++ r.drop 4)

/-- The field register values of the field sections (R112). -/
def fieldRegs (init graph : List Bytes) (m : KMap Word) : KMap Word :=
  let m := loadRegInit (fieldInit init) m
  graph.foldl (fun m r =>
    let ch := fieldLE r 0 1
    RegFile.setBits (RegFile.setBits m (chctlReg false ch) 0 1 1) (chwinReg false ch) 0 32 (fieldLE r 12 4)) m

/-- The state with the host contents of an image in place (Table IMG-7 steps 7 and 8): registers, live tables, islands and the image itself. -/
def stageHost (im : Image) (s : State) : State :=
  let s := { s with regs := sectionRegs im (loadRegInit (imRecs im 0x0C 0) s.regs), h.img.image := some im, h.img.live := imageLive im }
  let (isl, out) := mapIslands s (imRecs im 1 0) false
  { s with h.rep := { Repair.reset with islands := isl, out := out } }

/-- The state with the contents of the field sections in place: registers, islands, converters. -/
def stageField (sects : List Sect) (s : State) : State :=
  let of := fun (typ inst : Nat) => match sects.find? (fun c => c.typ == typ && c.inst == inst) with | some c => c.recs | none => []
  let s := { s with regs := fieldRegs (of 0x0C 1) (of 6 0) s.regs, f.sects := sects }
  let (isl, out) := mapIslands s (of 1 0) true
  let s := { s with f.rep := { Repair.reset with islands := isl, out := out, lastEnd := fnow s } }
  { s with f.meas := Meas.reset }

/-! ## Contents (R107 to R113 and the rules of chapters 07 to 20) -/

/-- The dies of a section type and the instances it may have, with RECSIZE (Table IMG-4). -/
def listedSect (typ inst die : Nat) : Bool :=
  match typ with
  | 0x1 => inst == 0 && die == 2
  | 0x2 => inst == 0 && die == 0
  | 0x3 => decide (inst ≤ 1) && die == 0
  | 0x4 => decide (inst ≤ 127) && die == 0
  | 0x5 => inst == 0 && die == 2
  | 0x6 => decide (inst ≤ 1) && die == 1 - inst
  | 0x7 => inst == 0 && die == 0
  | 0x8 => decide (inst ≤ 1) && die == inst
  | 0x9 => inst == 0 && die == 0
  | 0xA => inst == 0 && die == 0
  | 0xB => decide (inst ≤ 1) && die == inst
  | 0xC => decide (inst ≤ 1) && die == inst
  | 0xD => inst == 0 && die == 0
  | _ => false

/-- The record size a section must carry. -/
def sizeOf (typ inst kind : Nat) : Nat :=
  match typ with
  | 0x3 => if inst = 0 then 8 else 16
  | 0x4 => match kindShape kind with | some (n, _) => n | none => 0
  | t => (recSize t).getD 0

/-- A section's body agrees with its table entry (R107, R108, R113, R947, R948). -/
def sectBodyOk (img e : Bytes) : Bool :=
  let b := sectBytes img e
  let typ := fieldLE e 0 2
  let inst := fieldLE e 2 1
  let n := fieldLE b 4 4
  let cap := fieldLE b 8 4
  listedSect typ inst (fieldLE e 3 1) && decide (16 ≤ b.length) && fieldLE b 0 2 == typ &&
  (if typ = 0x0B then
    fieldLE b 2 2 == 0 && b.length == 16 + n && decide (cap + n ≤ if inst = 0 then 524288 else 131072) && decide (fieldLE b 12 4 < cap + n)
  else
    fieldLE b 2 2 == sizeOf typ inst (fieldLE b 12 1) && b.length == 16 + n * fieldLE b 2 2 &&
    (if typ = 4 then
      decide (n ≤ cap) && within 1 2 (fieldLE b 13 1) &&
      (match kindShape (fieldLE b 12 1) with | some (_, most) => decide (cap ≤ most) | none => false)
     else cap == n && zeros b 12 4))

/-- The sections every image carries (Table IMG-4). -/
def requiredSects : List (Nat × Nat) :=
  [(1, 0), (2, 0), (3, 0), (3, 1), (5, 0), (6, 0), (8, 0), (8, 1), (9, 0), (0xA, 0), (0xB, 0), (0xB, 1), (0xC, 0)]

/-- No value occurs twice. -/
def distinct (l : List Nat) : Bool := decide (l.length = l.dedup.length)

/-- ISLAND_MAP (R109, R110, R792): kinds with spares only, every duty to one island, every other island spare or excluded. -/
def islandMapOk (rs : List Bytes) : Bool :=
  rs.all (fun r =>
    let k := fieldLE r 2 2 / 256
    mapKinds.contains k && decide (fieldLE r 2 2 % 256 < (kindSize k).2) && fieldLE r 0 2 / 256 == k && fieldLE r 5 1 == k &&
    decide (fieldLE r 4 1 ≤ 2) && zeros r 6 2 &&
    (if fieldLE r 4 1 = 0 then decide (fieldLE r 0 2 % 256 < (kindSize k).1) else fieldLE r 0 2 % 256 == 0xFF)) &&
  distinct (rs.map (fun r => fieldLE r 2 2)) &&
  distinct ((rs.filter (fun r => fieldLE r 4 1 == 0)).map (fun r => fieldLE r 0 2)) &&
  mapKinds.all (fun k =>
    (List.range (kindSize k).1).all (fun d => rs.any (fun r => fieldLE r 4 1 == 0 && fieldLE r 0 2 == k * 256 + d)) &&
    (List.range (kindSize k).2).all (fun i => rs.any (fun r => fieldLE r 2 2 == k * 256 + i)))

/-- SLOT_TABLE (R109, R284). -/
def slotTableOk (rs : List Bytes) : Bool :=
  rs.length == 1024 && rs.all (fun r => decide (fieldLE r 0 1 ≤ 15) && decide (fieldLE r 1 1 ≤ 15) && zeros r 2 2) &&
  (List.range 64).all (fun k =>
    let w := (rs.drop (16 * k)).take 16
    distinct (w.map (fun r => fieldLE r 0 1)) && distinct (w.map (fun r => fieldLE r 1 1))) &&
  (List.range 256).all (fun x => (rs.filter (fun r => fieldLE r 1 1 * 16 + fieldLE r 0 1 == x)).length == 4)

/-- The reach masks among virtual ports have no cycle: ports that lead nowhere are taken away until none is left (R369). A port of role NONE has no queue, so no mask links through it (log entry 14). -/
def acyclicFrom (s : State) : Nat → List Nat → Bool
  | 0, vs => vs.isEmpty
  | n + 1, vs =>
    let left := vs.filter (fun v => vs.any (fun w => inReach s v w))
    if left.length = vs.length then vs.isEmpty else acyclicFrom s n left

/-- QUEUE_PLAN (R109, R281, R297, R314, R316, R318, R351, R369). -/
def queuePlanOk (t : State) (im : Image) : Bool :=
  let ps := imRecs im 3 0
  let qs := imRecs im 3 1
  let port := fun (p : Nat) => ps.find? (fun r => fieldLE r 0 1 == p)
  let pflags := fun (p : Nat) => match port p with | some r => fieldLE r 1 1 | none => 0
  let on := qs.filter (fun r => bit (fieldLE r 2 1) 0)
  ps.all (fun r => decide (fieldLE r 1 1 ≤ 3) && zeros r 6 2 &&
    (fieldLE r 4 2 == 0xFFFF || im.sects.any (fun c => c.typ == 4 && c.inst == fieldLE r 4 2 && c.kind == 1)) &&
    !(bit (fieldLE r 1 1) 0 && decide (80 ≤ fieldLE r 0 1))) &&
  distinct (ps.map (fun r => fieldLE r 0 1)) &&
  qs.all (fun r => decide (fieldLE r 0 2 ≤ 4095) && decide (fieldLE r 2 1 ≤ 7) && decide (fieldLE r 3 1 ≤ 2) &&
    decide (fieldLE r 4 4 ≤ fieldLE r 8 4) && decide (fieldLE r 8 4 ≤ 98304) && decide (1 ≤ fieldLE r 12 2) && zeros r 14 2 &&
    (!bit (fieldLE r 2 1) 1 || decide (fieldLE r 0 2 / 16 ≤ 11))) &&
  distinct (qs.map (fun r => fieldLE r 0 2)) &&
  decide ((ps.filter (fun r => bit (fieldLE r 1 1) 0)).length ≤ 32) &&
  on.all (fun r =>
    let q := fieldLE r 0 2
    let p := q / 16
    !reservedPort p && bit (pflags p) 1 && (decide (q % 16 < 8) || bit (pflags p) 0) &&
    (fieldLE r 3 1 != 2 || (decide (p ≤ 11) && decide (q % 16 < 8) && (match port p with | some x => fieldLE x 4 2 != 0xFFFF | none => false))) &&
    (decide (p < 80) || vrole t p != 0)) &&
  decide (on.foldl (fun n r => n + fieldLE r 4 4) 0 ≤ 94208) &&
  (List.range 256).all (fun p => reservedPort p ||
    (modelRate t p != 0) == (decide (p ≤ 11) || (decide (16 ≤ p) && decide (p ≤ 55)))) &&
  (List.range 12).all (fun p => decide (fieldOf t (0x200004 + p * 0x100) 0 7 + 4 ≤ fieldOf t (0x100004 + p * 0x1000) 0 8)) &&
  acyclicFrom t 176 (((List.range 176).map (fun v => v + 80)).filter (fun v => vrole t v != 0))

/-- The live tables (R352, R354, R368, R430 and the tables of chapters 08 to 10). -/
def liveTablesOk (t : State) (im : Image) : Bool :=
  let ls := im.sects.filter (fun c => c.typ == 4)
  distinct ((ls.filter (fun c => c.kind != 1)).map (fun c => c.kind)) &&
  ls.all (fun c => c.recs.all (fun r => recordOk (xordOf t) (vrole t) c.kind r)) &&
  ls.all (fun c => c.kind != 0x21 || distinct (c.recs.map (fun r => fieldLE r 0 1 * 64 + fieldLE r 1 1)))

/-- MSG_CATALOGUE (R109). -/
def catalogueOk (rs : List Bytes) : Bool :=
  rs.all (fun r => within 16 63 (fieldLE r 0 1) && decide (fieldLE r 1 1 ≤ 1) && within 4 1024 (fieldLE r 2 2) && fieldLE r 2 2 % 4 == 0) &&
  distinct (rs.map (fun r => fieldLE r 0 1))

/-- MEAS_GRAPH of a cluster (R109, R655, R658). -/
def measGraphOk (t : State) (host : Bool) : Bool :=
  let rs := measGraph t host
  let tch := fun (r : Bytes) => (convSeq t host (fieldLE r 9 1)).length * convPer t host (fieldLE r 9 1)
  let ref := graphRec t false (fieldOf t 0x800018 0 7)
  distinct (rs.map (fun r => fieldLE r 0 1)) &&
  rs.all (fun r =>
    let l := if bit (fieldLE r 8 1) 0 then 65536 else fieldLE r 4 4
    let pair := fieldLE r 2 1
    decide (fieldLE r 0 1 ≤ if host then 15 else 127) && decide (fieldLE r 1 1 ≤ if host then 7 else 31) && within 1 4 (fieldLE r 3 1) &&
    within 16 65536 (fieldLE r 4 4) && decide (fieldLE r 8 1 ≤ 7) && decide (fieldLE r 9 1 ≤ if host then 0 else 2) && zeros r 10 2 &&
    decide (16 ≤ fieldLE r 12 4) && decide (fieldLE r 12 4 * l ≤ 2 ^ 40) &&
    (!bit (fieldLE r 8 1) 0 || (!host && (match ref with | some x => tch x == tch r | none => false))) &&
    (pair == 0xFF || (match rs.find? (fun x => fieldLE x 0 1 == pair) with
      | none => false
      | some x => (fieldLE x 2 1 == 0xFF || fieldLE x 2 1 == fieldLE r 0 1) && fieldLE x 3 1 == fieldLE r 3 1 && fieldLE x 4 4 == fieldLE r 4 4 &&
          fieldLE x 12 4 == fieldLE r 12 4 && bits (fieldLE x 8 1) 0 1 == bits (fieldLE r 8 1) 0 1 && tch x == tch r)))

/-- A node of the audio graph exists (Tables AUDP-2, AUDA-2). -/
def nodeOk (kind idx : Nat) : Bool :=
  match kind with
  | 0x01 => decide (idx < 128) | 0x02 => decide (idx < 128) | 0x03 => decide (idx < 4) | 0x04 => decide (idx < 4)
  | 0x05 => decide (idx < 64) | 0x06 => decide (idx < 64) | 0x10 => decide (idx < 4) | 0x11 => decide (idx < 4)
  | 0x12 => decide (idx < 64) | 0x13 => decide (idx < 32) | 0x14 => decide (idx < 64) | 0x15 => decide (idx < 64)
  | 0x16 => decide (idx < 16) | 0x17 => decide (idx < 16) | 0x18 => decide (idx < 2) | 0x19 => idx == 0
  | 0x1A => decide (idx < 8) | 0x1C => decide (idx < 4) | 0x1D => decide (idx < 4)
  | _ => false

/-- The framed port of a port channel node; none for other nodes. -/
def nodePort (kind idx : Nat) : Option Nat :=
  match kind with
  | 0x01 => some (idx / 32) | 0x02 => some (idx / 32) | 0x03 => some (6 + idx / 2) | 0x04 => some (4 + idx / 2)
  | _ => none

/-- Whether a port node's port is lattice-synchronous. -/
def nodeSync (t : State) (kind idx : Nat) : Bool := match nodePort kind idx with | some p => latticeSync t p | none => false

/-- Whether a converter is inbound. -/
def asrcInbound (t : State) (a : Nat) : Bool := !bit (asrcCfg t a) 0

/-- Whether a port channel or listener channel belongs to a converter's domain. -/
def inDomain (t : State) (a kind idx : Nat) : Bool :=
  let c := asrcCfg t a
  match nodePort kind idx with
  | some p => asrcPort c == some p
  | none => kind == 0x05 && bits c 1 2 == 3 && bits c 3 3 == idx / 8

/-- A connection that Table AUDA-3 permits. -/
def feedOk (t : State) (sk si dk di : Nat) : Bool :=
  let out := sk == 0x13 || sk == 0x17
  match dk with
  | 0x12 => (sk == 0x01 && nodeSync t sk si) || sk == 0x10 || sk == 0x11 || (sk == 0x15 && asrcInbound t (si / 8)) || sk == 0x1C
  | 0x13 => sk == 0x12
  | 0x14 => if asrcInbound t (di / 8) then inDomain t (di / 8) sk si && (sk == 0x01 || sk == 0x03 || sk == 0x05) else out
  | 0x16 => sk == 0x13
  | 0x18 => out | 0x19 => out | 0x1D => out | 0x06 => out
  | 0x02 => if nodeSync t dk di then out else sk == 0x15 && !asrcInbound t (si / 8) && asrcPort (asrcCfg t (si / 8)) == nodePort dk di
  | 0x04 => if nodeSync t dk di then out else sk == 0x15 && !asrcInbound t (si / 8) && asrcPort (asrcCfg t (si / 8)) == nodePort dk di
  | 0x1A => sk == 0x10 || sk == 0x11 || out
  | _ => false

/-- AUDIO_GRAPH (R706, R727, R728). -/
def audioGraphOk (t : State) (rs : List Bytes) : Bool :=
  decide (rs.length ≤ 1024) &&
  rs.all (fun r => nodeOk (fieldLE r 0 1) (fieldLE r 1 1) && nodeOk (fieldLE r 2 1) (fieldLE r 3 1) &&
    feedOk t (fieldLE r 0 1) (fieldLE r 1 1) (fieldLE r 2 1) (fieldLE r 3 1) && decide (fieldLE r 6 2 ≤ 1)) &&
  distinct ((rs.filter (fun r => fieldLE r 2 1 != 0x13)).map (fun r => fieldLE r 2 2)) &&
  (List.range 32).all (fun o => decide ((rs.filter (fun r => fieldLE r 2 1 == 0x13 && fieldLE r 3 1 == o)).length ≤ 64))

/-- The converters' domains (R730). -/
def convertersOk (t : State) : Bool :=
  let used := (List.range 8).filter (fun a => asrcCfg t a != 0)
  used.all (fun a =>
    let c := asrcCfg t a
    !(bits c 1 2 == 0 && !bit (reg t (0x500000 + bits c 3 3 * 0x100)) 1 && !bit (reg t (0x500000 + bits c 3 3 * 0x100)) 3) &&
    !(bits c 1 2 == 3 && bit c 0)) &&
  distinct (used.map (fun a => bits (asrcCfg t a) 0 6))

/-- FAULT_POLICY of a die (R109, R111, R761). -/
def faultPolicyOk (inst : Nat) (rs : List Bytes) : Bool :=
  let ids := (List.range (if inst = 0 then 0xC0 else 0x40)).map (fun n => n + 0x100 * inst)
  let marked := fun (n : Nat) => n == 0x5C || n == 0x113 || n == 0x114
  rs.all (fun r =>
    let n := fieldLE r 0 2
    ids.contains n && srcImpl n && within 1 16 (fieldLE r 2 1) && within 1 2 (fieldLE r 3 1) && decide (1 ≤ fieldLE r 4 4) &&
    decide (fieldLE r 8 1 ≤ 4) && decide (fieldLE r 9 1 ≤ 1) && zeros r 10 2 &&
    (fieldLE r 8 1 != 1 || (srcDuty n 0).isSome) &&
    (fieldLE r 8 1 != 2 || (match srcDuty n 0 with | some d => mapKinds.contains (d / 256) | none => false)) &&
    (fieldLE r 3 1 != 2 || decide (3 ≤ fieldLE r 8 1)) &&
    (!marked n || (fieldLE r 9 1 == 1 && fieldLE r 2 1 == 1 && fieldLE r 3 1 == 2 && fieldLE r 8 1 == 4))) &&
  (ids.filter srcImpl).all (fun n => (rs.filter (fun r => fieldLE r 0 2 == n)).length == 1)

/-- BUDGET (R109, R841, R843). -/
def budgetOk (t : State) (rs : List Bytes) : Bool :=
  let lim := match rs.find? (fun r => fieldLE r 0 1 == 0) with | some r => fieldLE r 2 2 | none => 0
  let cost := fun (k : Nat) => match rs.find? (fun r => fieldLE r 0 1 == k) with | some r => fieldLE r 2 2 | none => 0
  rs.length == 8 && distinct (rs.map (fun r => fieldLE r 0 1)) &&
  rs.all (fun r => decide (fieldLE r 0 1 ≤ 7) && decide (fieldLE r 1 1 ≤ 7) && within 1 1000 (fieldLE r 2 2) && zeros r 6 2 &&
    (if fieldLE r 0 1 = 0 then fieldLE r 1 1 == 0 && fieldLE r 4 2 == 0 else decide (fieldLE r 2 2 ≤ lim))) &&
  decide ((if bit (reg t 0x10C000) 0 then cost 3 else 0) + (if bit (reg t 0x10C000) 1 then cost 4 else 0) ≤ lim) &&
  (List.range 2).all (fun k => decide (fieldOf t (0x820C04 + 4 * k) 0 10 ≤ fieldOf t 0x820C00 0 10))

/-- PERMISSION_MATRIX (R109, R115, R136): every BLOCK is the base code of a block. -/
def permissionOk (rs : List Bytes) : Bool :=
  rs.all (fun r => within 1 10 (fieldLE r 0 1) && decide (fieldLE r 2 1 ≤ 2) && zeros r 3 1 && blockOf (fieldLE r 1 1 * 0x10000) == fieldLE r 1 1 &&
    regTable.any (fun d => blockOf d.base == fieldLE r 1 1)) &&
  distinct (rs.map (fun r => fieldLE r 0 1 * 256 + fieldLE r 1 1))

/-- KEY_POLICY (R109, R516, R517, R519, R520). -/
def policyDepth (rs : List Bytes) : Nat → Bytes → Nat
  | 0, _ => 99
  | n + 1, r => if fieldLE r 2 1 = 0xFF then 1 else match rs[fieldLE r 2 1]? with | some p => policyDepth rs n p + 1 | none => 99

@[inherit_doc policyDepth] def keyPolicyOk (rs : List Bytes) : Bool :=
  rs.zipIdx.all (fun p =>
    let r := p.1
    let label := slice r 12 (fieldLE r 8 1)
    within 1 32 (fieldLE r 8 1) && zeros r 9 3 && zeros r (12 + fieldLE r 8 1) (32 - fieldLE r 8 1) && usageOk (fieldLE r 4 2) &&
    within 0x100 0x7FFF (fieldLE r 0 2) && fieldLE r 6 2 == 0 && (fieldLE r 3 1 == 0xFF || within 2 63 (fieldLE r 3 1)) &&
    decide (policyDepth rs 5 r ≤ 4) &&
    (if fieldLE r 2 1 = 0xFF then label == ascii "IDENT" || label == ascii "BUS" || label == ascii "LINK"
     else decide (fieldLE r 2 1 < p.2) && (match rs[fieldLE r 2 1]? with | some q => bit (fieldLE q 4 2) 7 | none => false))) &&
  distinct (rs.map (fun r => fieldLE r 0 2)) &&
  distinct ((rs.filter (fun r => fieldLE r 3 1 != 0xFF)).map (fun r => fieldLE r 3 1)) &&
  decide ((rs.map (fun r => fieldLE r 2 1 :: (slice r 12 (fieldLE r 8 1)).map (fun b => b.toNat))).dedup.length = rs.length) &&
  decide ((rs.filter (fun r => fieldLE r 3 1 != 0xFF || bit (fieldLE r 4 2) 1)).length + 2 ≤ 56)

/-- Fields whose Reset column reads "—" (R112). -/
def keptField (a lo : Nat) : Bool :=
  (a == 0x10 && lo == 11) || a == 0x18 || a == 0x28 || (decide (0x2C ≤ a) && decide (a < 0x3C)) || (decide (0x400800 ≤ a) && decide (a < 0x408000) && a % 0x1000 == 0x814) ||
  (a == 0x70000 && decide (lo ≠ 8)) || a == 0x70004 || a == 0x70008 || (a == 0x60000 && lo == 28) || (a == 0x20040 && lo == 1)

/-- Fields of host registers whose value a section gives, beside those marked so in the register map (R112). -/
def sectionField (a : Nat) (f : Field) : Bool :=
  f.src == .sec || (decide (0x20010 ≤ a) && decide (a < 0x2002C)) || a == 0x80000C || (decide (0x60100 ≤ a) && decide (a < 0x60200)) ||
  (decide (0x100000 ≤ a) && decide (a < 0x200000) && a % 0x1000 == 0 && decide (8 ≤ f.lo))

/-- The addresses of a register array. -/
def dimOffsets : List (Nat × Nat) → List Nat
  | [] => [0]
  | (n, st) :: r => (List.range n).flatMap (fun i => (dimOffsets r).map (fun o => i * st + o))

/-- Whether an address belongs to the REG_INIT instance of a die: the field blocks and the FCAN pages to the field die's. -/
def initOf (field : Bool) (a : Nat) : Bool := (isRemote a || (decide (0x418000 ≤ a) && decide (a < 0x420000))) == field

/-- One REG_INIT record names a field and holds values within its range; a value another source gives must be that value (R109, R112). -/
def regInitRecOk (t : State) (field : Bool) (r : Bytes) : Bool :=
  let a := fieldLE r 0 4
  match regAt a with
  | none => false
  | some d =>
    match d.fields.find? (fun f => f.lo == fieldLE r 4 1 && f.width == fieldLE r 5 1) with
    | none => false
    | some f =>
      let num := fun (o : Nat) => if f.signed then toSigned 32 (fieldLE r o 4) else ((fieldLE r o 4 : Nat) : Int)
      initOf field a && !keptField a f.lo && zeros r 6 2 && a % 4 == 0 &&
      decide (num 12 ≤ num 8) && decide (num 8 ≤ num 16) && decide (f.min ≤ num 12) && decide (num 16 ≤ f.max) &&
      (if sectionField a f then bits (peekReg t field .device d a) f.lo f.width == fieldLE r 8 4
       else f.src == .img || fieldLE r 8 4 == f.rst)

/-- REG_INIT of a die (R112): its records stand, none names a field twice, and every "img" field of the die has one. -/
def regInitOk (t : State) (field : Bool) (rs : List Bytes) : Bool :=
  rs.all (regInitRecOk t field) && distinct (rs.map (fun r => fieldLE r 0 4 * 32 + fieldLE r 4 1)) &&
  regTable.all (fun d => !d.fields.any (fun f => f.src == .img) ||
    ((dimOffsets d.dims).map (fun o => d.base + o)).all (fun a => !d.covers a || !initOf field a ||
      d.fields.all (fun f => f.src != .img || sectionField a f || rs.any (fun r => fieldLE r 0 4 == a && fieldLE r 4 1 == f.lo))))

/-- Values and combinations of registers that the chapters refuse in an image beside their ranges (R397, R473, R671, R689). -/
def comboOk (t : State) : Bool :=
  (List.range 24).all (fun n => canTimingOk (reg t (canReg n 8)) (reg t (canReg n 0xC))) &&
  (List.range 8).all (fun n => canTimingOk (reg t (0x20418008 + n * 0x1000)) (reg t (0x2041800C + n * 0x1000))) &&
  (List.range 96).all (fun k => let v := reg t (0x440100 + k / 8 * 0x10000 + 4 * (k % 8))
    !bit v 31 || (qSched t (16 * (k / 8) + k % 8) != 1 && decide (bits v 0 24 ≤ linkRate t (k / 8) * 1000))) &&
  (List.range 4).all (fun n => tdmWriteOk t n 0 0) &&
  (List.range 4).all (fun k => !bit (reg t (0x580304 + 0x10 * k)) 7 ||
    (match graphRec t true (fieldOf t (0x580308 + 0x10 * k) 8 4) with | some r => fieldLE r 1 1 == k | none => false))

/-- Every section of an image holds what R107 to R113 and the chapters ask (Table IMG-7 step 6); `t` is the state with the image's contents staged. -/
def contentOk (s : State) (im : Image) (img : Bytes) : Bool :=
  let fsects := im.sects.filter (fun c => c.die != 0)
  let t := stageField fsects (stageHost im s)
  (sectEntries img).all (sectBodyOk img) &&
  requiredSects.all (fun p => im.sects.any (fun c => c.typ == p.1 && c.inst == p.2)) &&
  islandMapOk (imRecs im 1 0) && slotTableOk (imRecs im 2 0) && queuePlanOk t im && liveTablesOk t im && catalogueOk (imRecs im 5 0) &&
  measGraphOk t false && measGraphOk t true && audioGraphOk t (imRecs im 7 0) && convertersOk t &&
  faultPolicyOk 0 (imRecs im 8 0) && faultPolicyOk 1 (imRecs im 8 1) && budgetOk t (imRecs im 9 0) && permissionOk (imRecs im 0x0A 0) &&
  keyPolicyOk (imRecs im 0x0D 0) && regInitOk t false (imRecs im 0x0C 0) && regInitOk t true (imRecs im 0x0C 1) && comboOk t

/-- The outcome of a slot that is tried: the code of the first check that fails, or 0 (Tables IMG-7, IMG-8). `fieldCode` tells a result other than OK from the field die. -/
def slotCode (s : State) (slot fieldCode : Nat) : Nat :=
  let img := slotImage s slot
  let head := headerCode s slot
  if head ≠ 0 then head
  else if !tableOk img then 0x0A
  else
    let st := streamCode img (sectOrder img) (0x40 + 48 * fieldLE img 0x18 2)
    if st ≠ 0 then st
    else if fieldCode ≠ 0 then 0x0D
    else
      let sg := signatureCode s img
      if sg ≠ 0 then sg
      else if !contentOk s (parseImage slot img) img then 0x0C
      else 0

end Sys2Proof.Machine
end

