-- ==== Sys2Proof/Machine/Build.lean ====
section
/-! DEFINITION. BUILD, RUN entry, the transfer of field sections, and one-time programming (chapters 02, 03 and 12). -/

namespace Sys2Proof.Machine

open Sys2Proof

/-! ## The host die's BUILD (R101, R122 to R129) -/

/-- The outcome code of a slot set in IMG.BOOTSTAT. -/
def setCode (slot code : Nat) (s : State) : State :=
  if slot = 0 then { s with h.img.codeA := code } else { s with h.img.codeB := code }

/-- The milliseconds since BUILD started, saturating (Table IMG-10). -/
def buildMs (s : State) : Nat := min 4095 ((s.time.now - s.sys.buildAt) / 1000000)

/-- The journal's registers as BUILD loads them from the keeper domain's chain head (R264, R265). -/
def loadChainHead (s : State) : State :=
  let k := s.keeper
  let last := if k.jrnValid then k.jrnLast else 0xFFFFFFFF
  let ack := if k.jrnValid then k.jrnAck else 0xFFFFFFFF
  { s with h.jrn := { Journal.reset with
      lastSeq := last, ackSeq := ack, sentSeq := ack, rstAck := ack, lastMac := if k.jrnValid then k.jrnAckMac else List.replicate 8 0 } }

/-- BUILD ends in HOLD with no image in force (R129). -/
def buildHold (s : State) : State :=
  let ms := buildMs s
  enterHold (loadChainHead { s with h.img.trying := none, h.img.rest := [], h.img.committed := false, h.img.buildMs := ms })

/-- The sections of the slot being tried that go to the field die. -/
def fieldEntries (img : Bytes) : List Bytes := (sectEntries img).filter (fun e => fieldLE e 3 1 != 0)

/-- A field start message and the field sections of a slot sent (Table IMG-7 steps 2 and 4). -/
def sendSlot (slot : Nat) (s : State) : State :=
  let img := slotImage s slot
  let s := sendStart (imageDigest img) { s with h.img.fieldCode := 0, h.img.fieldOk := 0 }
  if tableOk img then sendFieldSections img s else s

/-- A slot is tried: with a new field start message and its field sections. -/
def trySlot (slot : Nat) (rest : List Nat) (s : State) : State :=
  sendSlot slot { s with h.img.trying := some slot, h.img.rest := rest }

/-- The next slot is tried, or BUILD ends (R101, R128). -/
def tryNext (s : State) : State :=
  match s.h.img.rest with
  | k :: r => trySlot k r s
  | [] => buildHold s

/-- The slots whose headers pass, in the order in which they are tried (R101). -/
def slotOrder (s : State) : List Nat :=
  let a := headerCode s 0 == 0
  let b := headerCode s 1 == 0
  let genA := fieldLE (slotHeader s 0) 0x10 4
  let genB := fieldLE (slotHeader s 1) 0x10 4
  if a && b then (if genA < genB then [1, 0] else [0, 1]) else if a then [0] else if b then [1] else []

/-- BUILD has not begun since the reset or wake that led to it. -/
def buildIdle (s : State) : Bool :=
  s.sys.mode == .build && s.sys.inReset.isNone && s.h.img.trying.isNone && s.h.img.rest.isEmpty && !s.h.img.committed &&
  s.h.img.codeA == 0 && s.h.img.codeB == 0 && !s.sys.noImg

/-- BUILD begins (Table IMG-7 steps 1 and 2, R75, R101, R525): engine slots and run-time handles are erased, both headers are judged, and the first slot is tried. -/
def buildStart (s : State) : State :=
  if !buildIdle s then s
  else
    let code := fun (slot : Nat) => let c := headerCode s slot; if c = 0 then 1 else c
    let ord := slotOrder s
    tryNext { s with
      sys.buildAt := s.time.now, h.keys.rt := [], h.keys.slots := [], h.keys.roles := [],
      h.img.codeA := code 0, h.img.codeB := code 1, h.img.firstB := ord.head? == some 1, h.img.rest := ord }

/-- The slot being tried fails a check (R128): its code stands, and the other slot is tried or BUILD ends. -/
def slotFail (s : State) : State :=
  match s.h.img.trying with
  | none => s
  | some k =>
    let c := slotCode s k s.h.img.fieldCode
    if s.sys.mode ≠ .build ∨ s.h.img.committed ∨ c = 0 then s else tryNext (setCode k c { s with h.img.trying := none })

/-- The contents of a committed slot taken back: nothing of the image is left (R123). -/
def dropImage (s : State) : State :=
  let r := reinitHost s
  modePins { r with
    h.tahr := s.h.tahr, h.flt := { s.h.flt with active := false }, h.img.codeA := s.h.img.codeA, h.img.codeB := s.h.img.codeB,
    h.img.firstB := s.h.img.firstB, time := s.time }

/-- BUILD reaches 500 ms (R128, Table MOD-2): the slot being tried, or the committed slot whose RUN entry has not come, reports TIMEOUT. -/
def buildTimeout (s : State) : State :=
  if s.sys.mode ≠ .build ∨ s.time.now < s.sys.buildAt + 500000000 then s
  else match s.h.img.trying, s.h.img.image with
  | some k, _ => buildHold (setCode k 0x0E s)
  | none, some im => if s.h.img.committed then buildHold (setCode im.slot 0x0E (dropImage s)) else s
  | none, none => s

/-- A field die has answered in this BUILD, or its link is up. -/
def fieldThere (s : State) : Bool := s.h.img.fieldAnswer || s.h.tahr.link

/-- The field die counts as absent: none has answered within 5 ms of the BUILD start (R75). -/
def fieldAbsent (s : State) : Bool := !fieldThere s && decide (s.sys.buildAt + 5000000 ≤ s.time.now)

/-- The resident keys of Table KEY-6 and KEY_POLICY with the slots named for them, or none where the lowest free slot serves (R520). -/
def residentKeys (s : State) : List (Nat × Option Nat) :=
  [(1, some 0), (2, some 1)] ++
  ((recs s 0x0D 0).filter (fun r => fieldLE r 3 1 != 0xFF || bit (fieldLE r 4 2) 1)).map (fun r =>
    (fieldLE r 0 2, if fieldLE r 3 1 = 0xFF then none else some (fieldLE r 3 1)))

/-- Every resident key derived into its slot (R520); none exists while the root is not VALID (R506). -/
def deriveResident (s : State) : State :=
  if !rootValid s then s
  else
    let put := fun (h n : Nat) (s : State) => { s with h.keys.slots := KMap.put s.h.keys.slots n (⟨h, 0, true, s.time.now⟩ : KSlot) }
    let ks := residentKeys s
    let s := ks.foldl (fun s k => match k.2 with | some n => put k.1 n s | none => s) s
    ks.foldl (fun s k => match k.2 with
      | some _ => s
      | none => match freeSlotNo s with | some n => put k.1 n s | none => s) s

/-- The grants that the arbiter holds at BUILD commit, without a request (R843), and the planes at the rates the image starts them with (R300). -/
def startPlanes (s : State) : State :=
  let v := reg s 0x10C000
  let g := fun (on : Bool) (k : Nat) => if on then [(⟨k, 0, s.time.now, budCost s false k⟩ : Bud)] else []
  notePeak false { s with
    h.fab.ofull := bit v 0, h.fab.xfull := bit v 1,
    h.arb := { Arbiter.reset with held := g (bit v 0) 3 ++ g (bit v 1) 4 } }

/-- What each live record loaded by BUILD sets (R359, R374, R430). -/
def startLive (s : State) : State :=
  s.h.img.live.foldl (fun s p =>
    match s.h.img.image with
    | none => s
    | some im => match im.sects.find? (fun c => c.typ == 4 && c.inst == p.1 / 65536) with
      | some c => liveChanged c.kind (p.1 % 65536) s
      | none => s) s

/-- The bus ports as BUILD commit leaves them: CAN controllers with INIT 0 integrate, LIN masters stand at their table, Ethernet ports without a link are blocked. -/
def startPorts (s : State) : State :=
  let s := (List.range 24).foldl (fun s n => if bit (reg s (canReg n 0)) 0 then s else canInitEffect n true false s) s
  let s := (List.range 8).foldl (fun s c => setLin s c { linOf s c with table := fieldOf s (linReg c 0) 0 4 }) s
  (List.range 12).foldl (fun s p => ethPortState p s) s

/-- The state after step 8 on the host die: what the commit makes effective at one instant. -/
def commitHost (im : Image) (s : State) : State :=
  let s := stageHost im s
  let s := { s with h.flt.active := true, h.flt.rings := [], h.flt.nseq := 0, h.rep.lastEnd := s.time.now,
                    h.sp.gens := 0, h.pseq := 0 }
  let s := startPorts (startLive (deriveResident (startPlanes (loadChainHead s))))
  startAll true (touchStart (audioStart (refreshOut s)))

/-- All checks of the slot being tried pass (R122 to R125, R127): the host sections take effect and the field die is told to commit, where it has verified its sections or is absent. -/
def buildCommit (s : State) : State :=
  match s.h.img.trying with
  | none => s
  | some k =>
    let img := slotImage s k
    let field := decide (s.h.img.fieldOk = (fieldEntries img).length) || fieldAbsent s
    if s.sys.mode ≠ .build ∨ s.h.img.committed ∨ !field ∨ slotCode s k s.h.img.fieldCode ≠ 0 then s
    else
      let s := setCode k 0 { s with h.img.trying := none, h.img.rest := [], h.img.committed := true }
      let s := commitHost (parseImage k img) s
      let s := if s.keeper.tampReport || s.keeper.lostReport then setInt 7 s else s
      sendImage 4 0 0 [] s

/-- The root-state entries that follow the IMAGE entry (R251, R511): the last tamper detection kept for this BUILD, with its stamp, and a keeper loss. -/
def rootEntries (s : State) : State :=
  let s := if s.keeper.tampReport then
      jChange s.keeper.tampStamp 3 [(5, 5, [byte (rootCode s.keeper.rootState), byte s.keeper.tampSrc, 0, 0, 0, 0, 0, 0])]
        { s with keeper.tampReport := false }
    else s
  if s.keeper.lostReport then
    jEvent 3 5 [2, 0, 0, 0, 0, 0, 0, 0] { s with keeper.lostReport := false }
  else s

/-- The fuses the image asks for (R120, R121): those of the security floor up to its SVN, and the other key slot's revocation; leave is asked where there is one. -/
def wantFuses (im : Image) (s : State) : State :=
  let floor := bit im.flags 0 && decide (s.otp.floor < im.svn)
  let revoke := bit im.flags 1 && !keyRevoked s (1 - im.keysel)
  let s := { s with h.img.floorPend := floor, h.img.revokePend := revoke }
  if floor || revoke then askLeave false 7 0 s.time.now s else s

/-- The IMAGE entry of a BUILD (R126, R264): the first entry after a reset, with the duration of the BUILD noted. -/
def journalImage (im : Image) (s : State) : State :=
  let ms := buildMs s
  let s := { s with h.img.buildMs := ms, h.jrn.loaded := true }
  jPut s.time.now 5 3 im.slot (s.sys.rstCause % 256) (le 4 im.gen ++ le 2 im.svn ++ im.digest.take 2) s

/-- RUN entered by the image load, and the MP started at ENTRY (R75, R88). -/
def startRun (s : State) : State := hartStart false (wakeStop (setMode .run 5 { s with sys.degOrigin := 5 }))

/-- RUN entry (R75, R120, R121, R126, R264, R466, Table IMG-7 steps 9 and 10): once the field die reports FRUN, or is absent. -/
def runEntry (s : State) : State :=
  match s.h.img.image with
  | none => s
  | some im =>
    if s.sys.mode ≠ .build ∨ !s.h.img.committed ∨ !(fmode s == 3 || fieldAbsent s) then s
    else
      let s := startRun (rootEntries (journalImage im s))
      let s := notePorts ((List.range 4).foldl (fun s i => setT1 (6 + i) 0 s) s)
      wantFuses im s

/-- Leave for the next fuse of the image asked again while some fuse is still to be blown and none is asked for or granted (R120, R121, R146). -/
def otpAsk (s : State) : State :=
  if (s.h.img.floorPend || s.h.img.revokePend) && s.sys.mode.live && !holdsLeave s false 7 0 then askLeave false 7 0 s.time.now s else s

/-- One fuse of the image programmed (R120, R121): the floor rises by one, or the other key slot is revoked; leave is given back. -/
def imageFuse (s : State) : State :=
  match s.h.img.image with
  | none => s
  | some im =>
    if !holdsLeave s false 7 0 then s
    else
      let s := giveLeave false 7 0 s
      if s.h.img.floorPend then
        let f := min 64 (s.otp.floor + 1)
        { s with otp.floor := f, h.img.floorPend := decide (f < im.svn) }
      else if s.h.img.revokePend then
        if im.keysel = 0 then { s with otp.revoked1 := true, h.img.revokePend := false }
        else { s with otp.revoked0 := true, h.img.revokePend := false }
      else s

/-! ## Transfers to the field die (R76, R124, R631) -/

/-- The field sections read and sent again (R76): where the image no longer verifies, the mismatch source is raised and nothing is sent. -/
def reloadField (s : State) : State :=
  match s.h.img.image with
  | none => s
  | some im =>
    let img := slotImage s im.slot
    if imageDigest img = im.digest then sendSlot im.slot s else raise 0x056 0 s

/-- A heartbeat handled by the host die, with what it starts (R75, R76, R142, R630, R631): in BUILD, a link that comes up restarts the transfer of the slot being tried or committed; in RUN and DEGRADED, a field die that needs its sections gets them; holds on field registers end where a field reset is first reported. -/
def heartbeatAtHost (m : XMsg) (s : State) : State :=
  let was := s.h.tahr.link
  let old := fmode s
  let wait := s.h.tahr.xferWait
  let s := hostHeartbeat m s
  let st := fmode s
  let s := if (st = 1 ∨ st = 2) ∧ old ≠ st then { s with h.img.holds := s.h.img.holds.filter (fun h => !isRemote h.1) } else s
  let s := if s.sys.mode = .build then { s with h.img.fieldAnswer := true } else s
  let s :=
    if s.sys.mode = .build ∧ !was ∧ !s.h.tahr.startSent then
      match s.h.img.trying, s.h.img.image with
      | some k, _ => sendSlot k s
      | none, some im => sendSlot im.slot s
      | none, none => s
    else s
  if s.sys.mode.live && s.h.tahr.xferWait && (!wait || old == 2 && st != 2) then reloadField s else s

/-- A result of the field die handled by the host die (R76, R124): in BUILD it counts toward the slot; in RUN and DEGRADED a failure raises the mismatch source, and the last section verified is followed by the commit. -/
def imageResult (m : XMsg) (s : State) : State :=
  let r := fieldLE m.payload 0 1
  let need : Nat := match s.h.img.image with
    | some im => (im.sects.filter (fun c => c.die != 0)).length
    | none => 0
  let s := if r = 0 then { s with h.img.fieldOk := s.h.img.fieldOk + 1 } else { s with h.img.fieldCode := r }
  let done := decide (s.h.img.fieldOk = need) && r == 0
  if s.sys.mode = .build then (if s.h.img.committed && done then sendImage 4 0 0 [] s else s)
  else if s.h.tahr.xferWait then
    if r ≠ 0 then raise 0x056 0 s
    else if done then sendImage 4 0 0 [] { s with h.tahr.xferWait := false }
    else s
  else s

/-- An IMAGE COMMIT message at the field die (R124): its sections take effect where every one of them is verified. The permission matrix the field die judges by is that of the image in force (log entry 13). -/
def imageCommit (s : State) : State :=
  if s.f.state ≠ .fbuild ∨ !fieldVerified s then s
  else
    let sects := s.f.entries.map (fun p =>
      parseSect (fieldLE p.2 0 2) (fieldLE p.2 2 1) (fieldLE p.2 3 1) (match s.f.data.find? (fun d => d.1 == p.1) with | some d => d.2 | none => []))
    let s := stageField sects s
    { s with f.digest := s.f.newDigest, f.matrix := recs s 0x0A 0, f.flt.active := true, f.flt.rings := [] }

/-- The field die enters FRUN (R74, R596, R597, R630): from FBUILD with its sections in force and its counter aligned, or from ALONE with the link back and the host die's image digest its own. -/
def frunEntry (s : State) : State :=
  let fresh := s.f.state == .fbuild && !s.f.digest.isEmpty && s.f.digest == s.f.newDigest && s.f.aligned
  let back := s.f.state == .alone && s.f.aligned && !s.f.fe.train && s.f.digest == s.f.newDigest && decide (fnow s < s.f.fe.lastHb + 1000000)
  if fresh then
    let s := { s with f.state := .frun, f.wdog := some (fnow s + wdInterval s), f.wdExpired := false, f.statusNext := 0 }
    let s := (List.range 8).foldl (fun s n => if bit (reg s (canReg (24 + n) 0)) 0 then s else canInitEffect (24 + n) true false s) s
    permitUpdate (hartStart true (releaseHeld (startAll false s)))
  else if back then permitUpdate (releaseHeld { s with f.state := .frun })
  else s

end Sys2Proof.Machine
end

