-- ==== Sys2Proof/Machine/Internal.lean ====
section
/-! DEFINITION. Internal endpoints of the fabric: the journal's drain and acknowledgement, the gates, the catalogue endpoint, and what the take of a message needs (chapters 06, 08, 14). -/

namespace Sys2Proof.Machine

open Sys2Proof

/-- The head frame of an endpoint's port taken where it passes a test. -/
def takeIf (s : State) (e : Nat) (p : Frame → Bool) : Option (Frame × State) :=
  match takeHead s e with
  | none => none
  | some (f, s') => if p f then some (f, s') else none

/-! ## Journal (R254 to R257) -/

/-- The bytes of a drain message over entries (Table JRN-5). -/
def jDrainBytes (es : List JEntry) : Bytes :=
  [0x4A, 0x44, byte es.length, byte (b2n (es.any (fun e => e.carried)))] ++ le 4 ((es.head?.map (fun e => e.seq)).getD 0) ++ es.flatMap jBytes

/-- The journal submits a drain message (R254): the oldest unsent entries, at most BATCH. -/
def jDrain (s : State) : State :=
  if jDrainDue s then
    let es := (s.h.jrn.entries.filter (fun e => e.unsent)).take (fieldOf s 0x10010 0 5)
    submitMsg 66 (jDrainBytes es) 1 { s with h.jrn.awaiting := es.head?.map (fun e => (e.seq, es.length)) }
  else s

/-- An accepted acknowledgement (R256, R263): entries up to ACKSEQ are freed, and the chain head of the keeper domain moves with it. -/
def jAccept (b : Bytes) (s : State) : State :=
  let a := fieldLE b 4 4
  let s := { s with h.jrn.entries := s.h.jrn.entries.filter (fun e => !decide ((a + 2 ^ 32 - e.seq) % 2 ^ 32 < 2 ^ 31)), h.jrn.ackSeq := a,
                    keeper.jrnAckMac := slice b 8 8 }
  jGap (jKeep s)

/-- REWIND: every later entry is unsent from now on (R254, R257); a drain message that awaits admission no longer stands for them. -/
def jRewind (s : State) : State :=
  { s with h.jrn.entries := s.h.jrn.entries.map (fun e => if e.unsent then e else { e with unsent := true, since := s.time.now }),
           h.jrn.sentSeq := s.h.jrn.ackSeq }

/-- An acknowledgement at port 66: accepted, or ignored and counted (R256). -/
def jAcknowledge (b : Bytes) (s : State) : State :=
  if jAckOk s b then
    let s := jAccept b s
    if bit (fieldLE b 2 1) 0 then jRewind s else s
  else bump s 0x10014 16 16 1

/-- The message at the head of port 66 taken as an acknowledgement, where its REWIND bit is as the caller asks, or where it is none at all. -/
def jTakeAck (rewind : Bool) (s : State) : State :=
  match takeIf s 66 (fun f => (bit (fieldLE f.bytes 2 1) 0 && jAckOk s f.bytes) == rewind) with
  | none => s
  | some (f, s) => jAcknowledge f.bytes s

/-! ## Gates (R332, R333) -/

/-- The place of an offset in a gate list: the record and the time left of its interval. -/
def gatePlace : List Bytes → Nat → Nat → Nat × Nat
  | [], i, _ => (i, 0)
  | r :: l, i, t => if t < fieldLE r 0 4 then (i, fieldLE r 0 4 - t) else gatePlace l (i + 1) (t - fieldLE r 0 4)

/-- GBASE of a port. -/
def gateBase (s : State) (e : Nat) : Nat := reg s (0x100098 + e * 0x1000) + reg s (0x10009C + e * 0x1000) * 2 ^ 32

/-- The gates of a port as they stand at an instant by GBASE and the list in force. -/
def gateAt (e : Nat) (t : Stamp) (l : List Bytes) (s : State) : State :=
  let cycle := (l.map (fun r => fieldLE r 0 4)).foldl (· + ·) 0
  if cycle = 0 ∨ t < gateBase s e then
    { s with h.fab.gate := KMap.del s.h.fab.gate e, h.fab.gateList := KMap.del s.h.fab.gateList e }
  else
    let off := (t - gateBase s e) % cycle
    let (i, left) := gatePlace l 0 off
    { s with h.fab.gate := KMap.put s.h.fab.gate e (i, t + left, t - off), h.fab.gateList := KMap.put s.h.fab.gateList e l }

/-- A held GBASE taken at a cycle start. -/
def takeBase (e : Nat) (s : State) : State :=
  match KMap.get? s.h.fab.gbasePend e with
  | none => s
  | some b => { setReg (setReg s (0x100098 + e * 0x1000) (bits b 0 32)) (0x10009C + e * 0x1000) (bits b 32 32) with h.fab.gbasePend := KMap.del s.h.fab.gbasePend e }

/-- A gate-list interval ends within the present tick (R332, R333): the next record's gates take effect, and at a cycle start the list as it stands and a held GBASE do; a port before its GBASE starts its first cycle. -/
def gateEnd (e : Nat) (s : State) : State :=
  match KMap.get? s.h.fab.gate e with
  | none =>
    let t := max s.time.now (gateBase s e)
    if tickOf t ≤ curTick s then gateAt e t (gateRecs s e) s else s
  | some (i, endAt, start) =>
    if curTick s < tickOf endAt then s
    else
      let l := KMap.getD s.h.fab.gateList e []
      if i + 1 < l.length then
        { s with h.fab.gate := KMap.put s.h.fab.gate e (i + 1, endAt + fieldLE (nth l (i + 1) []) 0 4, start) }
      else
        let s := takeBase e s
        gateAt e endAt (gateRecs s e) s

/-! ## Catalogue endpoint (R614) -/

/-- The origin of a body at port 69 by its ingress port. -/
def inportOrigin (p : Nat) : Option Nat :=
  if p = 64 then some 2 else if p = 65 then some 3 else if p = 70 then some 1 else none

/-- The body at the head of port 69 sent as a message of an image-defined type, or refused and counted. -/
def catalogueSend (s : State) : State :=
  match takeHead s 69 with
  | none => s
  | some (f, s) =>
    let typ := fieldLE f.bytes 0 2
    match inportOrigin f.inport with
    | some o =>
      if f.bytes.length < 4 ∨ typ < 0x0F10 ∨ 0x0F3F < typ then bump s 0x600014 0 16 1
      else (sendMsg false (typ - 0x0F00) o s.time.now (f.bytes.drop 4) s).1
    | none => bump s 0x600014 0 16 1

end Sys2Proof.Machine
end

