-- ==== Sys2Proof/Machine/Updates.lean ====
section
/-! DEFINITION. Tamper detection, update messages and network management requests (chapters 11 and 12). -/

namespace Sys2Proof.Machine

open Sys2Proof

/-! ## Tamper detection (R507 to R513) -/

/-- Whether a tamper source is watched and not already disturbed: 1 the mesh, 2 and 3 the armed enclosure inputs (Table KEY-3). -/
def tampWatched (s : State) (src : Nat) : Bool :=
  match src with
  | 1 => !s.h.keys.meshOpen
  | 2 => bit s.keeper.tampArm 0 && !s.h.keys.caseA
  | 3 => bit s.keeper.tampArm 1 && !s.h.keys.caseB
  | _ => false

/-- The condition of a tamper source as TAMPACT sees it (R513). -/
def setTampCond (src : Nat) (on : Bool) (s : State) : State :=
  match src with
  | 1 => { s with h.keys.meshOpen := on }
  | 2 => { s with h.keys.caseA := on }
  | 3 => { s with h.keys.caseB := on }
  | _ => s

/-- The root state after a tamper detection (Table KEY-2): VALID becomes TAMPERED. -/
def tamperedState (st : Nat) : Nat := if st = 0 then 1 else st

/-- The stamp of a detection (R508): the keeper counter while SYSCNT stands. -/
def tampStampNow (s : State) : Stamp := if s.time.running then s.time.now else s.keeper.ctr * 2 ^ 15

/-- What a detection does to the keeper domain and the keys (R508): everything zeroed, the DRBG started anew, the tamper log written. -/
def tampErase (src : Nat) (s : State) : State :=
  let s := zeroKeys (setTampCond src true s)
  { s with h.sp.gens := 0, h.keys.rootMsg := none,
           keeper.rootState := tamperedState s.keeper.rootState, keeper.tampSrc := src,
           keeper.tampCount := satAdd 8 s.keeper.tampCount 1, keeper.tampStamp := tampStampNow s }

/-- The report of a detection (R511): at once in RUN, DEGRADED and HOLD, at the next BUILD otherwise. -/
def tampNote (src : Nat) (s : State) : State :=
  if s.h.jrn.loaded && s.sys.inReset.isNone && (s.sys.mode.live || s.sys.mode == .hold) then
    raise 0x058 0 (jEvent 3 5 ([byte (rootCode s.keeper.rootState), byte src] ++ le 6 0) (setInt 7 s))
  else { s with keeper.tampReport := true }

/-! ## Update messages (R529 to R536) -/

/-- The length of an operation with its header and padding (Tables KEY-8, KEY-9). -/
def updOpLen (op : Bytes) : Nat := 8 + ceilDiv (fieldLE op 6 2) 8 * 8

/-- BLEN is as Table KEY-9 requires for the OPC. -/
def updLenOk (opc blen : Nat) : Bool :=
  match opc with
  | 1 => blen == 24 || blen == 40 || blen == 56
  | 2 => blen == 0
  | 3 => blen == 40
  | 4 => blen == 8
  | _ => false

/-- The operations of a message, cut from the bytes that must hold exactly them (R530 check 1). -/
def updCut : Nat → Bytes → Option (List Bytes)
  | 0, [] => some []
  | 0, _ :: _ => none
  | n + 1, b =>
    let len := updOpLen b
    if b.length < 8 ∨ b.length < len ∨ !updLenOk (fieldLE b 0 1) (fieldLE b 6 2) ∨
        (slice b (8 + fieldLE b 6 2) (len - 8 - fieldLE b 6 2)).any (fun x => x != 0) then none
    else (updCut n (b.drop len)).map (fun r => b.take len :: r)

/-- The operations of an update message, none where its layout fails check 1 of R530. -/
def updOps (m : Bytes) : Option (List Bytes) :=
  let n := fieldLE m 3 1
  if m.length < 0x20 + 192 ∨ fieldLE m 2 1 ≠ 1 ∨ n = 0 ∨ 16 < n ∨ fieldLE m 0x0C 4 ≠ m.length then none
  else updCut n (slice m 0x20 (m.length - 0x20 - 192))

/-- The digest that the signature of a message covers. -/
def updDigest (m : Bytes) : Bytes := padTo 48 (Config.sha384 (m.take (m.length - 96)))

/-- Check 3 of R530: the authority's public key and its signature. -/
def updSigned (s : State) (m : Bytes) : Bool :=
  let pub := slice m (m.length - 192) 96
  padTo 48 (Config.sha384 pub) == padTo 48 s.otp.updHash && Config.ecdsaVerify 1 pub (updDigest m) (slice m (m.length - 96) 96)

/-- The seed transport key at an epoch (R535). -/
def seedKey (s : State) (epoch : Nat) : Bytes := kdf s.otp.seed (ascii "UPD-ROOT") (s.otp.uid ++ be 2 epoch) 256

/-- An INJECT performed (R533): a new vault entry, or the key of an entry replaced, its former key the grace key for GRACE × 100 ms. -/
def updInject (h usage grace : Nat) (key : Bytes) (counter : Nat) (s : State) : State :=
  let s := match vaultEntry s h with
    | none => { s with keeper.vault := s.keeper.vault ++ [⟨h, usage, 0, key⟩] }
    | some e =>
      let s := endGrace h s
      let s := dropSlots h (some 0) { s with keeper.vault := s.keeper.vault.map (fun x => if x.handle == h then ⟨h, usage, e.gen + 1, key⟩ else x) }
      if grace = 0 then s
      else touchSlot h 2 false (setRole h { roleOf s h with grace := some (e.key, curTick s + msTicks (grace * 100)) } s)
  keyEvent 9 h 1 counter s

/-- A DELETE performed (R533, R551): the entry and every key of the handle erased. -/
def updDelete (h counter : Nat) (s : State) : State :=
  let s := setRole h ⟨none, none⟩ (dropSlots h none { s with keeper.vault := s.keeper.vault.filter (fun e => e.handle != h) })
  keyEvent 9 h 4 counter s

/-- A root restored (R536): the root written, its state VALID, the resident keys derived, the entry of code 3 journalled. -/
def updRoot (key : Bytes) (s : State) : State :=
  let s := deriveResident { s with keeper.root := key, keeper.rootState := 0, keeper.tampCount := 0 }
  jEvent 3 5 ([3, 0] ++ le 6 0) (setInt 7 s)

/-- The status that refuses an INJECT (R530 check 8), or its key. -/
def injectCheck (s : State) (op : Bytes) : Except Nat Bytes :=
  let h := fieldLE op 2 2
  let u := fieldLE op 4 2
  let n := fieldLE op 6 2
  if h < 0x100 ∨ 0x7FFF < h ∨ (policyRec s h).isSome then .error 0x28
  else if 100 < fieldLE op 1 1 then .error 0x2A
  else if !usageOk u ∨ ktypeBytes (ktype u) + 8 ≠ n then .error 0x27
  else match internalKeyOf s 3 with
  | none => .error 0x2D
  | some k =>
    match Config.aesUnwrap k (slice op 8 n) with
    | none => .error 0x26
    | some key =>
      if (vaultEntry s h).isNone ∧ 16 ≤ s.keeper.vault.length then .error 0x29
      else if (vaultEntry s h).isSome ∧ fieldLE op 1 1 ≠ 0 ∧ 56 ≤ firmSlots s then .error 0x2C
      else .ok key

/-- GRACE, HANDLE and USAGE of an operation other than INJECT and DELETE are fixed by Table KEY-9. -/
def fixedCheck (op : Bytes) (usage : Nat) : Option Nat :=
  if fieldLE op 1 1 ≠ 0 then some 0x2A
  else if fieldLE op 2 2 ≠ 0 then some 0x28
  else if fieldLE op 4 2 ≠ usage then some 0x27
  else none

/-- One operation checked and performed (R530 check 8, R532, R533): the state after it, or the status that refuses it. The seed transport key is that of `epoch`. -/
def updOp (m : Bytes) (epoch : Nat) (op : Bytes) (s : State) : Except Nat State :=
  let counter := fieldLE m 4 4
  match fieldLE op 0 1 with
  | 1 =>
    match injectCheck s op with
    | .error st => .error st
    | .ok key => .ok (updInject (fieldLE op 2 2) (fieldLE op 4 2) (fieldLE op 1 1) key counter s)
  | 2 =>
    if fieldLE op 1 1 ≠ 0 then .error 0x2A
    else if (vaultEntry s (fieldLE op 2 2)).isNone then .error 0x28
    else if fieldLE op 4 2 ≠ 0 then .error 0x27
    else .ok (updDelete (fieldLE op 2 2) counter s)
  | 3 =>
    match fixedCheck op 0x2080 with
    | some st => .error st
    | none =>
      match Config.aesUnwrap (seedKey s epoch) (slice op 8 40) with
      | none => .error 0x26
      | some key => .ok (updRoot key s)
  | _ =>
    match fixedCheck op 0 with
    | some st => .error st
    | none =>
      let a := fieldLE op 8 4
      if isRemote a then .error 0x05
      else match hostModeStatus s .updateMsg with
      | some st => .error st
      | none =>
        match hostWriteStatus s .updateMsg a (fieldLE op 12 4) 0 with
        | some st => if st = 0x0C then .ok s else .error st
        | none => .ok (hostWrites .updateMsg [(a, fieldLE op 12 4)] s).1

/-- The operations performed in order: the state after them, or the first failing index and its status. -/
def updRun (m : Bytes) (epoch : Nat) : Nat → List Bytes → State → Except (Nat × Nat) State
  | _, [], s => .ok s
  | i, op :: r, s =>
    match updOp m epoch op s with
    | .error st => .error (i, st)
    | .ok s => updRun m epoch (i + 1) r s

/-- The journal entries an operation needs: those of its write, or one EVENT. -/
def updNeeds (s : State) (op : Bytes) : Nat :=
  if fieldLE op 0 1 = 4 then
    match regAt (fieldLE op 8 4) with
    | some d => (writeEntries s .updateMsg d (fieldLE op 8 4) (fieldLE op 12 4)).length
    | none => 0
  else 1

/-- The first operation whose entries no longer fit (R530 check 9, R259). -/
def updSpace (s : State) : Nat → Nat → List Bytes → Option Nat
  | _, _, [] => none
  | i, used, op :: r =>
    let n := updNeeds s op
    if n ≠ 0 ∧ !jFits s used n then some i else updSpace s (i + 1) (used + n) r

/-- Check 7 of R530: the root. -/
def updRootCheck (s : State) (m : Bytes) (ops : List Bytes) : Option Nat :=
  let roots := ops.filter (fun o => fieldLE o 0 1 == 3)
  if bit (fieldLE m 0x0A 2) 0 then
    if rootValid s then some 0x23
    else if roots.length ≠ 1 ∨ fieldLE (nth ops 0 []) 0 1 ≠ 3 then some 0x2A
    else if 32 ≤ s.otp.epoch then some 0x24
    else if tampAct s then some 0x25
    else none
  else if !rootValid s then some 0x22
  else if !roots.isEmpty then some 0x2A
  else none

/-- The checks of R530 from the fourth on: none where the message may take effect, or its status and FAILIX. -/
def updCheck (s : State) (m : Bytes) (ops : List Bytes) : Option (Nat × Nat) :=
  if fieldLE m 8 2 ≠ s.otp.epoch then some (0x20, 0xFF)
  else if fieldLE m 4 4 ≤ s.keeper.updCnt then some (0x21, 0xFF)
  else if s.sys.mode == .hold then some (0x07, 0xFF)
  else match updRootCheck s m ops with
  | some st => some (st, 0xFF)
  | none =>
    match updRun m s.otp.epoch 0 ops s with
    | .error (i, st) => some (st, i)
    | .ok _ => (updSpace s 0 0 ops).map (fun i => (0x0C, i))

/-- The answer to an update message (R534, Table KEY-11). -/
def updAnswer (m : Bytes) (st failix : Nat) (s : State) : State :=
  let b := [0x12, 0x0E, 0x01, byte (fieldLE m 3 1)] ++ slice m 4 4 ++ le 2 s.otp.epoch ++ [byte st, byte failix] ++ le 4 0 ++ le 8 s.time.now
  let mac := match internalKeyOf s 3 with
    | some k => cmacBytes k (b ++ updDigest m)
    | none => List.replicate 16 0
  let s := setField (setField s 0x7001C 0 8 st) 0x7001C 8 8 failix
  submitMsg 65 (b ++ mac) 0 (if st = 0 then bump s 0x70020 0 16 1 else bump s 0x70020 16 16 1)

/-- A message takes effect with all its operations (R531, R532): the stored counter becomes its COUNTER. -/
def updCommit (m : Bytes) (epoch : Nat) (ops : List Bytes) (s : State) : State :=
  match updRun m epoch 0 ops s with
  | .error (i, st) => updAnswer m st i s
  | .ok s => updAnswer m 0 0xFF (markDead (counterChanged (fieldLE m 4 4) s))

/-- A message rejected at check 1 to 3 (R530): counted, with no answer. -/
def updReject (n : Nat) (s : State) : State := bump (setField s 0x7001C 16 4 n) 0x70020 16 16 1

/-- An update message taken by the SP (R530, R532, R536): rejected, refused, in effect, or, where it carries ROOT, waiting for leave to blow the next epoch fuse. -/
def updTake (m : Bytes) (s : State) : State :=
  match updOps m with
  | none => updReject 1 s
  | some ops =>
    if slice m 0x10 16 ≠ s.otp.uid then updReject 2 s
    else if !updSigned s m then updReject 3 s
    else match updCheck s m ops with
    | some (st, i) => updAnswer m st i s
    | none =>
      if bit (fieldLE m 0x0A 2) 0 then askLeave false 7 1 s.time.now { s with h.keys.rootMsg := some m }
      else updCommit m s.otp.epoch ops s

/-- The head of port 65 taken as an update message whose first operation is as a test says; none is taken while a root message is under way. -/
def updFromQueue (p : Nat → Bool) (s : State) : State :=
  if s.h.keys.rootMsg.isSome then s
  else match takeIf s 65 (fun f => f.bytes.length ≥ 16 && fieldLE f.bytes 0 2 == 0x0E11 && p (fieldLE f.bytes 0x20 1)) with
  | none => s
  | some (f, s) => updTake f.bytes s

/-- The next epoch fuse is blown (R536, R537): the waiting root message takes effect, unless a tamper detection took it away. -/
def rootFuse (s : State) : State :=
  if !holdsLeave s false 7 1 then s
  else
    let epoch := s.otp.epoch
    let s := giveLeave false 7 1 { s with otp.epoch := min 32 (s.otp.epoch + 1) }
    match s.h.keys.rootMsg with
    | none => s
    | some m =>
      let s := { s with h.keys.rootMsg := none }
      match updOps m with
      | none => s
      | some ops => updCommit m epoch ops s

/-- Leave for the fuse of a root message was not granted in time (Table PWR-6). -/
def rootRefused (s : State) : State :=
  match s.h.keys.rootMsg with
  | none => s
  | some m => updAnswer m 0x2B 0xFF { s with h.keys.rootMsg := none }

/-- A tamper detection (R507, R508, R511, R537, R547, R549, R866, R882): a root message that has not blown its fuse is refused, the debug session and a token check end, and associations without a key stand idle. -/
def tamper (src : Nat) (s : State) : State :=
  if s.sys.mode == .noSupply || !tampWatched s src then s
  else
    let s := match s.h.keys.rootMsg with
      | some m => if holdsLeave s false 7 1 then s
                  else dropLeave false 7 1 (updAnswer m 0x25 0xFF { s with h.keys.rootMsg := none })
      | none => s
    endSession (tokenAbort 11 (markDead (tampNote src (tampErase src s))))

/-! ## Network management (R487 to R491) -/

/-- An operation of a request: OP, ADDR and VALUE. -/
def nmOps (m : Bytes) : List (Nat × Nat × Nat) :=
  (List.range (fieldLE m 3 1)).map (fun i => (fieldLE m (0x28 + 12 * i) 1, fieldLE m (0x2C + 12 * i) 4, fieldLE m (0x30 + 12 * i) 4))

/-- The checks 1 to 4 of R488: the reason of the first that fails. -/
def nmReason (s : State) (m : Bytes) : Option Nat :=
  let n := fieldLE m 3 1
  if m.length ≠ 56 + 12 * n ∨ fieldLE m 2 1 ≠ 1 ∨ n = 0 ∨ 32 < n then some 1
  else if slice m 0x18 16 ≠ s.otp.uid then some 2
  else if fieldLE m 0x12 2 ≠ s.otp.epoch then some 3
  else if (usableKey s (fieldLE m 0x10 2) 10).isNone then some 4
  else none

/-- The writes of a request, with their operation indices. -/
def nmWrites (ops : List (Nat × Nat × Nat)) : List (Nat × Nat × Nat) :=
  (ops.zipIdx.filter (fun p => p.1.1 == 2)).map (fun p => (p.2, p.1.2.1, p.1.2.2))

/-- The status that refuses a request and its FAILIX (R490): an operation that is neither read nor write, a remote address or one of no register, then the writes in their order. -/
def nmRefused (s : State) (ops : List (Nat × Nat × Nat)) : Option (Nat × Nat) :=
  match ops.findIdx? (fun o => isRemote o.2.1 || (regAt o.2.1).isNone) with
  | some i => some (0x05, i)
  | none =>
    match ops.findIdx? (fun o => o.1 != 1 && o.1 != 2) with
    | some i => some (0x04, i)
    | none =>
      let ws := nmWrites ops
      match hostModeStatus s .netMgmt, ws with
      | some st, w :: _ => some (st, w.1)
      | _, _ =>
        match (List.range ws.length).find? (fun k =>
            match checkHostWrites .netMgmt ((ws.take (k + 1)).map (fun w => w.2)) s [] with | .error _ => true | .ok _ => false) with
        | none => none
        | some k =>
          match checkHostWrites .netMgmt (ws.map (fun w => w.2)) s [] with
          | .error (_, st) => some (st, (nth ws k (0, 0, 0)).1)
          | .ok _ => none

/-- The values of a request's operations: reads take effect in order, writes stand for 0. -/
def nmReads : List (Nat × Nat × Nat) → State → State × List Nat
  | [], s => (s, [])
  | o :: r, s =>
    let (s, v) := if o.1 = 1 then readReg false .netMgmt o.2.1 s else (s, 0)
    let (s, vs) := nmReads r s
    (s, v :: vs)

/-- The response of a request (Table ETH-6), under the committed key of KEYH. -/
def nmRespond (m : Bytes) (st failix : Nat) (vs : List Nat) (s : State) : State :=
  let b := [0x02, 0x0E, 0x01, byte (fieldLE m 3 1)] ++ slice m 4 12 ++ [byte st, byte failix] ++ le 6 0 ++ le 8 s.time.now ++ vs.flatMap (le 4)
  let mac := match usableKey s (fieldLE m 0x10 2) 10 with
    | some (_, k) => cmacBytes k b
    | none => List.replicate 16 0
  submitMsg 65 (b ++ mac) 0 s

/-- A request rejected without a response (R488). -/
def nmReject (n : Nat) (s : State) : State := bump (setField s 0x44F01C 0 8 n) 0x44F018 16 16 1

/-- A request that passed R488 (R489 to R491). -/
def nmRun (m : Bytes) (s : State) : State :=
  let s := bump { s with keeper.nmFloor := fieldLE m 8 8 } 0x44F018 0 16 1
  let ops := nmOps m
  match nmRefused s ops with
  | some (st, i) => nmRespond m st i (ops.map (fun _ => 0)) s
  | none =>
    let (s, vs) := nmReads ops s
    nmRespond m 0 0xFF vs (hostWrites .netMgmt ((nmWrites ops).map (fun w => w.2)) s).1

/-- A request taken by the SP (R488). -/
def nmTake (m : Bytes) (s : State) : State :=
  match nmReason s m with
  | some n => nmReject n s
  | none =>
    match verifyRoles s (fieldLE m 0x10 2) 10 (m.take (m.length - 16)) (slice m (m.length - 16) 16) with
    | .nokey => nmReject 4 s
    | .bad => nmReject 5 s
    | .good s => if fieldLE m 8 8 ≤ s.keeper.nmFloor then nmReject 6 s else nmRun m s

end Sys2Proof.Machine
end

