-- ==== Sys2Proof/Machine/HostPort.lean ====
section
/-! DEFINITION. The host port: transactions, their words, checks and effects, deferred operations, and service requests on either path (chapters 05 and 13). -/

namespace Sys2Proof.Machine

open Sys2Proof

/-! ## Words of a transaction (R200 to R204) -/

/-- The CRC of R200 over bytes. -/
def crc16 (bs : Bytes) : Nat :=
  bs.foldl (fun c b => (List.range 8).foldl (fun c i =>
    let top := (c / 32768 % 2) + b.toNat / 2 ^ (7 - i) % 2
    let c := c * 2 % 65536
    if top = 1 then c ^^^ 0x1021 else c) c) 0xFFFF

/-- The CRC word over the words before it. -/
def crcWord (ws : List Nat) : Nat := crc16 (ws.flatMap (be 4)) * 65536

/-- Words 0 to LEN + 1 of a transaction. -/
def txnWords (op : Nat) (t : Txn) : List Nat :=
  [op % 16 * 2 ^ 28 + t.seq % 256 * 2 ^ 20 + t.arg % 256 * 2 ^ 12 + t.len % 4096, t.addr % 2 ^ 32] ++ t.payload.map (fun w => w.toNat)

/-- The reason that discards a transaction (Table HOST-5), if any. -/
def discardCode (op : Nat) (t : Txn) : Option Nat :=
  if t.clocks % 32 ≠ 0 then some 1
  else if t.clocks ≠ 32 * (t.len + 3) ∨ t.payload.length ≠ t.len then some 2
  else if t.crc.toNat ≠ crcWord (txnWords op t) then some 3
  else none

/-- The fields of a transaction stay within the columns of Table HOST-2 (R201); a SEND states a length its payload holds. -/
def fieldsOk (op : Nat) (t : Txn) : Bool :=
  let z := t.addr == 0
  let a0 := t.arg == 0
  match op with
  | 0 => a0 && decide (t.len ≤ 512) && z
  | 1 => a0 && decide (1 ≤ t.len) && decide (t.len ≤ 512) && t.addr % 4 == 0
  | 2 => a0 && decide (2 ≤ t.len) && decide (t.len ≤ 512) && t.len % 2 == 0 && z
  | 3 => t.len == 0 && t.addr % 4 == 0
  | 4 => a0 && decide (t.len ≤ 512) && z
  | 5 =>
    let n := (t.payload.headD 0).toNat
    a0 && decide (1 ≤ t.len) && decide (t.len ≤ 256) && z && decide (1 ≤ n) && decide (n ≤ 1020) && decide (n ≤ 4 * (t.len - 1))
  | 6 => a0 && t.len == 0 && z
  | 7 => decide (1 ≤ t.len) && decide (t.len ≤ 256) && z
  | 8 => a0 && t.len == 0 && z
  | 9 => a0 && t.len == 0 && z
  | 10 => t.arg == 0xA5 && t.len == 0 && z
  | _ => false

/-! ## What the port drives (R202, R214, R217) -/

/-- PRESULT: the final status of a deferred operation once the response buffer holds its result, DEFER before. -/
def presultNow (s : State) : Nat :=
  if s.h.port.prevDeferred then (if s.h.port.rdy then bits ((s.h.port.resp.headD 0).toNat) 16 8 else 0x0F) else s.h.port.presult

/-- The status header (Table HOST-3). -/
def statusHeader (s : State) : Nat :=
  s.h.port.prevSeq * 2 ^ 24 + presultNow s * 2 ^ 16 + s.h.port.discnt * 2 ^ 12 + s.sys.mode.code * 2 ^ 8 +
  b2n s.h.port.rdy * 128 + b2n (msgWaits s) * 64 + b2n s.sys.int0 * 32 + b2n s.sys.int1 * 16

/-- The words the port drives in a transaction of a length (R202); none in BUILD (R217). -/
def misoWords (s : State) (len : Nat) : List Word :=
  if s.sys.mode = .build then []
  else
    let body := (List.range (len + 1)).map (fun k => if s.h.port.rdy then (nth s.h.port.resp k 0).toNat else 0)
    let ws := statusHeader s :: body
    (ws ++ [crcWord ws]).map (BitVec.ofNat 32)

/-- Whether the port works at all (R218). -/
def portAlive (s : State) : Bool := s.sys.inReset.isNone && s.sys.mode != .keep && s.sys.mode != .noSupply

/-! ## Taking a transaction (R204 to R219) -/

/-- A discarded transaction (R205): only counts, the interrupt and the status header change. -/
def discardTxn (code : Nat) (t : Txn) (s : State) : State :=
  let s := setInt 1 (bump s 0x48 0 16 1)
  { s with h.port.presult := code, h.port.prevDeferred := false, h.port.prevSeq := if t.clocks < 32 then 0 else t.seq % 256,
           h.port.discnt := min 15 (s.h.port.discnt + 1) }

/-- A transaction that the port receives: its words go out, it is discarded, or it takes effect with a status header of its own (R204, R206, R218). -/
def hostTxn (op : Nat) (t : Txn) (run : State → State) (s : State) : State :=
  if !portAlive s then { s with h.port.miso := [] }
  else
    let ws := (misoWords s t.len).take (t.clocks / 32)
    let s := match discardCode op t with
      | some code => discardTxn code t s
      | none =>
        let s := { s with h.port.prevSeq := t.seq % 256, h.port.discnt := 0 }
        if fieldsOk op t then run s else hostStatus 0x04 s
    { s with h.port.miso := ws }

/-- The column of Table HOST-7: SYS reads only, nothing but the plain operations, HOLD with and without an image, or everything. -/
inductive Column
  | standby
  | build
  | full
  | hold
  | holdBare
deriving DecidableEq, Repr

/-- The column in force. -/
def columnNow (s : State) : Column :=
  match s.sys.mode with
  | .run => .full
  | .degraded => .full
  | .hold => if s.h.img.image.isSome then .hold else .holdBare
  | .standby => .standby
  | _ => .build

/-- A deferred operation takes effect (R210, R211): RDY clears, and its result stands from here where it is known. -/
def defer (t : Txn) (op st : Nat) (data : List Word) (ready : Bool) (s : State) : State :=
  { s with h.port.rdy := false, h.port.prevDeferred := true, h.port.presult := 0x0F,
           h.port.deferred := some ⟨t.seq % 256, op, st, s.time.now, data, ready⟩ }

/-- A deferred operation completes (R211, Tables HOST-6, HOST-12): the response buffer is replaced, RDY set, a refusal counted. -/
def deferredComplete (s : State) : State :=
  match s.h.port.deferred with
  | none => s
  | some d =>
    if !d.ready then s
    else
      let head := d.seq * 2 ^ 24 + d.status * 2 ^ 16 + d.op * 2 ^ 12 + d.data.length
      let ws := [head, half d.stamp 0, half d.stamp 1].map (BitVec.ofNat 32) ++ d.data
      let s := setInt 0 { s with h.port.resp := ws, h.port.rdy := true, h.port.deferred := none }
      if refusing d.status then bump s 0x48 16 16 1 else s

/-! ## Writes and reads -/

/-- The writes of a WRITE or WRITEL transaction. -/
def txnWrites (op : Nat) (t : Txn) : List (Nat × Nat) :=
  if op = 1 then (t.payload.zipIdx).map (fun p => (t.addr + 4 * p.2, p.1.toNat))
  else (List.range (t.len / 2)).map (fun i => ((nth t.payload (2 * i) 0).toNat, (nth t.payload (2 * i + 1) 0).toNat))

/-- The effect of a WRITE or WRITEL (R207, R208, R219, R226): the checks in order, then all writes or none; the port's windows end with the transaction. -/
def runWrites (op : Nat) (t : Txn) (s : State) : State :=
  let ws := txnWrites op t
  let rem := ws.filter (fun w => isRemote w.1)
  let close := fun (s : State) => setWindow false .hostSpi 0 (setWindow true .hostSpi 0 s)
  if !rem.isEmpty ∧ rem.length ≠ ws.length then hostStatus 0x14 s
  else if 64 < rem.length then hostStatus 0x04 s
  else match ws.find? (fun w => (regAt w.1).isNone) with
  | some w => hostStatus 0x05 (recordRefusal false .hostSpi w.1 0x05 s)
  | none =>
    if rem.isEmpty then
      let (s, st) := hostWrites .hostSpi ws s
      hostStatus st (close s)
    else if s.h.port.deferred.isSome then hostStatus 0x0E s
    else
      let (s, st) := remoteWrites .hostSpi ws (t.seq % 256) s
      let s := close s
      if st = 0x0F then defer t op 0 [] false s
      else if st = 0x15 then defer t op 0x15 [] true s
      else hostStatus st s

/-- The addresses of a READ. -/
def readAddrs (t : Txn) : List Nat := (List.range (t.arg % 256 + 1)).map (fun i => t.addr + 4 * i)

/-- Whether the mode refuses a READ of some addresses (Table HOST-7). -/
def readRefused (s : State) (addrs : List Nat) : Bool :=
  match columnNow s with
  | .build => true
  | .standby => addrs.any (fun a => decide (0x10000 ≤ a))
  | _ => false

/-- The effect of a READ (R209, R212, R213). -/
def runRead (t : Txn) (s : State) : State :=
  let addrs := readAddrs t
  if s.h.port.deferred.isSome then hostStatus 0x0E s
  else if readRefused s addrs then hostStatus 0x06 s
  else if isRemote t.addr then
    if !s.h.tahr.link then defer t 3 0x15 [] true s
    else remoteSend .hostSpi 1 [(t.addr, addrs.length)] (t.seq % 256) (defer t 3 0 [] false s)
  else
    let st := if addrs.any (fun a => (regAt a).isNone) then 0x05 else 0
    let (s, ws) := readWords false .hostSpi addrs s
    defer t 3 st ws true s

/-! ## Messages -/

/-- The bytes of payload words, the first byte in bits 7:0. -/
def wordBytes (ws : List Word) : Bytes := ws.flatMap (fun w => le 4 w.toNat)

/-- Bytes packed into words, 0 in the bytes after them. -/
def packWords (b : Bytes) : List Word := (List.range (ceilDiv b.length 4)).map (fun i => BitVec.ofNat 32 (wordAt b i))

/-- Whether the mode refuses SEND and RECV (Table HOST-7). -/
def msgRefused (s : State) : Bool :=
  match columnNow s with
  | .full => false
  | .hold => false
  | _ => true

/-- The effect of a SEND: the message goes to port 70; its admission may refuse it later (R239). -/
def runSend (t : Txn) (s : State) : State :=
  if msgRefused s then hostStatus 0x06 s
  else hostStatus 0 (submitMsg 70 ((wordBytes (t.payload.drop 1)).take (bits ((t.payload.headD 0).toNat) 0 16)) 2 s)

/-- The effect of a RECV (R240, Table HOST-6): the head message of port 70, or EMPTY. -/
def runRecv (t : Txn) (s : State) : State :=
  if s.h.port.deferred.isSome then hostStatus 0x0E s
  else if msgRefused s then hostStatus 0x06 s
  else match takeHead s 70 with
  | none => defer t 6 0x13 [] true s
  | some (f, s) =>
    defer t 6 0 (BitVec.ofNat 32 (f.bytes.length % 65536 + f.inport % 256 * 65536) :: packWords (f.bytes.take 1020)) true s

/-! ## Services (R566 to R569) -/

/-- The SVC codes of the host path allowed by SYM.SVCH0 (R568). -/
def svcAllowed (s : State) (svc : Nat) : Bool := decide (svc < 32) && bit (reg s 0x90008) svc

/-- The engine's duties are all out of service (R591). -/
def engineOut (s : State) (engine : Nat) : Bool :=
  let kind := match engine with | 1 => 0x0F | 2 => 0x0D | 3 => 0x0E | _ => 0
  decide (engine ≠ 0) && (List.range (kindSize kind).1).all (fun i => dutyOut s (kind * 256 + i))

/-- A service run on a request, answered SELFCHECK without a result where its engine is out of service (log entry 8). -/
def runService (run : SvcReq → State → State × SvcOut) (q : SvcReq) (s : State) : State × SvcOut :=
  let (s', o) := run q s
  if engineOut s o.engine then (s, svcStatus 0x30) else (s', o)

/-- The request at the head of port 65 for a service, taken by the SP. -/
def fabricService (svc : Nat) (run : SvcReq → State → State × SvcOut) (s : State) : State :=
  match takeIf s 65 (fun f => f.bytes.length ≥ 16 && fieldLE f.bytes 0 2 == 0x0E21 && fieldLE f.bytes 2 1 == svc) with
  | none => s
  | some (f, s) =>
    takeRequest svc (runService run) f.inport f.seq (min (fieldLE f.bytes 3 1 % 8) (fieldOf s 0x90010 4 3)) f.bytes s

/-- The effect of a SERVICE transaction (R567, R568). -/
def runServiceTxn (svc : Nat) (run : SvcReq → State → State × SvcOut) (t : Txn) (s : State) : State :=
  let b := wordBytes t.payload
  let n := 16 + fieldLE b 12 2 + fieldLE b 14 2
  if t.arg ≠ fieldLE b 2 1 ∨ t.len ≠ ceilDiv n 4 ∨ (b.drop n).any (fun x => x != 0) ∨ fieldLE b 0 2 ≠ 0x0E21 then hostStatus 0x04 s
  else if s.h.port.deferred.isSome then hostStatus 0x0E s
  else match columnNow s with
  | .standby => hostStatus 0x06 s
  | .build => hostStatus 0x06 s
  | _ =>
    if !svcAllowed s svc then hostStatus 0x08 s
    else takeRequest svc (runService run) 0xFF (t.seq % 256) (min (fieldLE b 3 1 % 8) (fieldOf s 0x90010 0 3)) b (defer t 7 0 [] false s)

/-- A service request by its path; a transaction that names another service than the command's leaves the state as it is. -/
def serve (p : SvcPath) (svc : Nat) (run : SvcReq → State → State × SvcOut) (s : State) : State :=
  match p with
  | .fabric => fabricService svc run s
  | .host t => if t.arg = svc then hostTxn 7 t (runServiceTxn svc run t) s else s

/-- The SVC codes of Table CRY-5. -/
def knownSvc (svc : Nat) : Bool := decide (1 ≤ svc) && decide (svc ≤ 0x14)

/-- A body at port 65 that is no message the SP takes (R569): counted and not answered; one that names no service of Table CRY-5 is answered with a status the spec leaves open (log entry 2). -/
def badService (s : State) : State :=
  match takeIf s 65 (fun f =>
      f.bytes.length < 16 || (fieldLE f.bytes 0 2 != 0x0E21 && fieldLE f.bytes 0 2 != 0x0E01 && fieldLE f.bytes 0 2 != 0x0E11) ||
      (fieldLE f.bytes 0 2 == 0x0E21 && !knownSvc (fieldLE f.bytes 2 1))) with
  | none => s
  | some (f, s) =>
    if f.bytes.length ≥ 16 ∧ fieldLE f.bytes 0 2 = 0x0E21 then
      let (s, v) := takeFree s
      takeRequest (fieldLE f.bytes 2 1) (fun _ s => (s, svcStatus (v % 256))) f.inport f.seq (min (fieldLE f.bytes 3 1 % 8) (fieldOf s 0x90010 4 3)) f.bytes s
    else bump s 0x90014 16 16 1

/-- A response of the SP given to its requester (R569): at the ingress of port 65, or as the result of the host's deferred operation. -/
def deliverAnswer (j : SpJob) (b : Bytes) (s : State) : State :=
  if j.work ≠ 0 then s
  else if j.reqport = 0xFF then
    match s.h.port.deferred with
    | some d => { s with h.port.deferred := some { d with ready := true, data := packWords b } }
    | none => s
  else submitMsg 65 b 0 s

/-- A service job ends with a status (R569). -/
def finishJob (j : SpJob) (status : Nat) (s : State) : State :=
  let (s, b) := endJob j status s
  deliverAnswer j b s

/-! ## Remote answers (R213, R617, R631) -/

/-- The result of a remote request handed to the host's deferred operation. -/
def remoteResult (st stamp : Nat) (ws : List Word) (s : State) : State :=
  match s.h.port.deferred with
  | some d => { s with h.port.deferred := some { d with status := st, stamp := stamp, data := ws, ready := true } }
  | none => s

/-- The result of a remote debug access of a Debug Module (R870, R874): sberror 7 where it was refused, else the word a read brought. -/
def debugResult (fs : Bool) (op st v : Nat) (s : State) : State :=
  if st ≠ 0 then setSberror fs 7 s
  else if op = 1 then (if fs then { s with h.dbg.sbdFs := v } else { s with h.dbg.sbdMp := v })
  else s

/-- A REMOTE response at the host die: the request it answers ends; the holds its writes placed are noted, and the host port's operation or the Debug Module's access has its result. -/
def remoteAnswer (m : XMsg) (s : State) : State :=
  let b := m.payload
  match s.h.tahr.remote.find? (fun r => r.rid == fieldLE b 0 2 && r.origin == m.origin) with
  | none => s
  | some r =>
    let st := fieldLE b 2 1
    let s := { s with h.tahr.remote := s.h.tahr.remote.filter (fun x => x.rid != r.rid) }
    let s := if r.op = 2 ∧ st = 0 then
        { s with h.img.holds := r.entries.foldl (fun h e =>
            match KMap.get? s.f.holds e.1 with | some o => KMap.put h e.1 o | none => h) s.h.img.holds }
      else s
    if r.origin = 1 then remoteResult st (fieldLE b 8 8) (if r.op = 1 then packWords (b.drop 16) else []) s
    else if r.origin = 4 then debugResult (r.seq == 1) r.op st (fieldLE b 16 4) s
    else s

/-- Outstanding REMOTE requests complete with LINKDOWN (R213, R631). -/
def remoteDown (s : State) : State :=
  let host := s.h.tahr.remote.any (fun r => r.origin == 1)
  let s := (s.h.tahr.remote.filter (fun r => r.origin == 4)).foldl (fun s r => setSberror (r.seq == 1) 7 s) s
  let s := { s with h.tahr.remote := [] }
  if host then remoteResult 0x15 s.time.now [] s else s

/-- REMOTE responses that have arrived at the host die take effect. -/
def takeAnswers (s : State) : State :=
  (s.h.tahr.fe.inbox.filter (fun m => m.typ == 3)).foldl (fun s m => remoteAnswer m s)
    { s with h.tahr.fe.inbox := s.h.tahr.fe.inbox.filter (fun m => m.typ != 3) }

end Sys2Proof.Machine
end

