-- ==== Sys2Proof/Machine/Tick.lean ====
section
/-! DEFINITION. The commit of a tick: the timebase, crossing messages presented in it, the ledger, the fault collectors and their reactions, the publisher, and the audio subsystem (chapters 04, 07, 18). -/

namespace Sys2Proof.Machine

open Sys2Proof

/-! ## The timebase (R151 to R153, R177) -/

/-- The timebase one tick further: the stamp of the events given from here on, the last reference edge, a rate that waits for a beat, and the keeper's copy. -/
def advanceTime (s : State) : State :=
  let now := (s.time.now / 8 + 1) * 8
  let next := ((s.time.edge : Int) + 40 * 2 ^ 32 + s.time.rate).toNat
  let s := { s with time.now := now, time.edge := if next ≤ now * 2 ^ 32 then next else s.time.edge, keeper.ctr := now / 2 ^ 15 }
  if now % 32 = 0 then
    match s.time.rateNext with
    | some r => { s with time.rate := r, time.rateNext := none }
    | none => s
  else s

/-- The remote horizon as TIM.RHLAG reports it, and a shortfall at the commit of tick j, the link up or down (R172, R192; log entry 23). -/
def horizonStep (j : Nat) (s : State) : State :=
  let s := { s with time.rhorizon := s.h.tahr.fe.rhz }
  if s.time.rhorizon + fieldOf s 0x30018 0 12 ≤ j then bump s 0x3001C 16 16 1 else s

/-! ## Crossing messages (R169, R421, R613 to R615) -/

/-- A message that the tick presents at a die: its presentation tick has committed, or its type is not ordered. -/
def ready (s : State) (field : Bool) (m : XMsg) : Bool := !orderedType s field m.typ || dueMsg s field m

/-- An FCAN message from the field die at the host die: a frame becomes the next event of its port, a status record updates the mirrors. -/
def presentFcan (m : XMsg) (s : State) : State :=
  let s := takeCredit m.payload s
  let c := fieldLE m.payload 0 1
  if bit c 7 then takeStatus m.payload s
  else submitAt (40 + c % 8) m.pres m.xstamp 1 1 (m.payload.drop 4) false 0 s

/-- A message of an image-defined type from the field die enters the fabric at port 69 (R614). -/
def presentOpaque (m : XMsg) (s : State) : State :=
  submitAt 69 m.pres m.xstamp 1 4 (le 2 (0x0F00 + m.typ) ++ [byte m.origin, 0] ++ m.payload) false 0 s

/-- A message for the FS at the field die: a frame into the inbox of its controller, or an image-defined message into the receive FIFO of 8 (R613, R615). -/
def presentField (m : XMsg) (s : State) : State :=
  if m.typ = 8 then
    let n := fieldLE m.payload 0 1 % 8
    if (nth s.f.inbox n []).length < 2 then { s with f.inbox := s.f.inbox.set n (nth s.f.inbox n [] ++ [m.payload.drop 4]) } else s
  else if s.f.fifo.length < 8 then { s with f.fifo := s.f.fifo ++ [m] }
  else bump s 0x820030 0 16 1

/-- The messages of some types that a die takes in this tick, in the order of R610, with the state without them. -/
def takeReady (field : Bool) (types : Nat → Bool) (s : State) : List XMsg × State :=
  let e := endOf s field
  let (mine, rest) := e.inbox.partition (fun m => types m.typ && ready s field m)
  (sortBy (fun m => [tickOf m.pres, m.typ, msgSource m.typ m.origin m.payload]) mine, setEnd field { e with inbox := rest } s)

/-- The crossing messages that the tick presents; the measurement records among them go to the publisher. -/
def presentAll (s : State) : State × List Bytes :=
  let (ms, s) := takeReady false (fun t => t == 7 || t == 8 || decide (16 ≤ t)) s
  let s := ms.foldl (fun s m => if m.typ = 8 then presentFcan m s else if m.typ = 7 then s else presentOpaque m s) s
  let (fs, s) := takeReady true (fun t => t == 8 || decide (16 ≤ t)) s
  (fs.foldl (fun s m => presentField m s) s, (ms.filter (fun m => m.typ == 7)).map (fun m => m.payload))

/-! ## Faults (R757, R762, R768 to R784) -/

/-- The events of a collector that a tick takes: one for each source and tick, a real one before an injected one (R757, R783), by tick and source. -/
def dueEvents (pend : List FEvent) (j : Nat) : List FEvent :=
  let due := pend.filter (fun e => decide (e.tick ≤ j))
  let keys := (sortBy (fun k : Nat × Nat => [k.1, k.2]) (due.map (fun e => (e.tick, e.src)))).dedup
  keys.filterMap (fun k =>
    let mine := due.filter (fun e => e.tick == k.1 && e.src == k.2)
    (mine.find? (fun e => !e.injected)).or mine.head?)

/-- A reaction that a classification asks for: the event's tick, source, DETAIL and REACT. -/
structure Ask where
  tick : Nat
  src : Nat
  detail : Nat
  react : Nat
deriving DecidableEq, Repr

/-- One event of the host collector classified and reported (R762, R775 to R777), with the reaction it asks for. -/
def hostEvent (acc : State × List Ask) (e : FEvent) : State × List Ask :=
  match classifyFault e acc.1 with
  | (s, .silent) => (s, acc.2)
  | (s, .minor) => (reportFault e.tick e.src 0 0 e.detail e.stamp s, acc.2)
  | (s, .classified cls react) =>
    (reportFault e.tick e.src cls react e.detail e.stamp s, acc.2 ++ [⟨e.tick, e.src, e.detail, react⟩])

/-- One event of the field collector classified and reported (R778). -/
def fieldEvent (acc : State × List Ask) (e : FEvent) : State × List Ask :=
  match classifyFault e acc.1 with
  | (s, .silent) => (s, acc.2)
  | (s, .minor) => (fieldReport e.src 0 0 e.stamp s, acc.2)
  | (s, .classified cls react) => (fieldReport e.src cls react e.stamp s, acc.2 ++ [⟨e.tick, e.src, e.detail, react⟩])

/-- The ISOLATE and REPAIR reactions of a tick, by duty (R768, R802). -/
def moveUnits (asks : List Ask) (s : State) : State :=
  let units := asks.filterMap (fun a =>
    if a.react = 1 ∨ a.react = 2 then (srcDuty a.src a.detail).map (fun d => (d, a.react, a.tick)) else none)
  (sortBy (fun u : Nat × Nat × Nat => [u.1]) units).foldl (fun s u =>
    if u.2.1 = 1 then isolateDuty (u.2.2 * 8) u.1 s else repairDuty (u.2.2 * 8) u.1 s) s

/-- The reactions of the host collector (Table FLT-3, R93, R770, R773): units first, then HOLD, then DEGRADE. -/
def hostReact (asks : List Ask) (s : State) : State :=
  let s := moveUnits asks s
  let s := if asks.any (fun a => a.react == 4) then enterHold s else s
  if asks.any (fun a => a.react == 3) then degrade s else s

/-- The field die enters FHOLD (R771). -/
def fieldHold (s : State) : State :=
  if s.f.state = .frun ∨ s.f.state = .alone then withdraw 7 { s with f.state := .fhold } else s

/-- The reactions of the field collector (Table FLT-3, R769, R771). -/
def fieldReact (asks : List Ask) (s : State) : State :=
  let s := moveUnits asks s
  if asks.any (fun a => a.react == 4) then fieldHold s else s

/-- The host collector's commit of a tick (R163, R762); the collector is without power once STANDBY has been entered (R789). -/
def hostFaults (j : Nat) (s : State) : State :=
  let due := dueEvents s.h.flt.pend j
  let s := { s with h.flt.pend := s.h.flt.pend.filter (fun e => !decide (e.tick ≤ j)) }
  if s.sys.mode = .standby ∧ !s.sys.entering then s
  else
    let (s, asks) := due.foldl hostEvent (s, [])
    settleLatch 0 (hostReact asks s)

/-- The field collector's commit of a tick of the follower counter (R758, R774). -/
def fieldFaults (s : State) : State :=
  let j := tickOf (fnow s)
  let due := dueEvents s.f.flt.pend j
  let s := { s with f.flt.pend := s.f.flt.pend.filter (fun e => !decide (e.tick ≤ j)) }
  match s.f.state with
  | .frun => let (s, asks) := due.foldl fieldEvent (s, []); fieldReact asks s
  | .alone => let (s, asks) := due.foldl fieldEvent (s, []); fieldReact asks s
  | .fhold => let (s, asks) := due.foldl fieldEvent (s, []); fieldReact asks s
  | _ => s

/-- A field report handled at the commit of its presentation tick (R769, R779). -/
def handleReport (m : XMsg) (s : State) : State :=
  let b := m.payload
  let s := reportFault (tickOf m.pres) (fieldLE b 0 2) (fieldLE b 2 1) (fieldLE b 3 1) 0 (fieldLE b 8 8) s
  if fieldLE b 3 1 = 3 then degrade s else s

/-! ## The tick -/

/-- What the tick does on the field die by itself: its collector, its arbiter's first step, the journal report that waits. -/
def fieldTick (s : State) : State :=
  if s.f.state = .off ∨ s.f.state = .inReset then s else sendJournal (budStep1 true (settleLatch 0x100 (fieldFaults s)))

/-- What the commit of tick j does on both dies. -/
def commitTick (j : Nat) (s : State) : State :=
  let (s, recs) := presentAll (horizonStep j s)
  let s := hostFaults j (ledgerCommit j s)
  let s := publishTick j recs (emitTraces s)
  let s := fieldTick (budStep1 false s)
  notePorts (otpAsk (modeTick (cbsTick 8 s)))

/-- The commit of a tick (R163): SYSCNT reaches the start of tick k, every domain commits what is due at k − 2, the tick of the events given so far, and the events that follow are those of tick k − 1. The graph sample of that tick, if it has one, is computed before them (R748); `codes` holds the decimated codes of the audio inputs for it. -/
def tickCommit (codes : List Int) (s : State) : State :=
  if !s.time.running then s
  else
    let s := commitTick (curTick s) s
    intPins (if s.time.running then audioTick codes (advanceTime s) else s)

end Sys2Proof.Machine
end

