-- ==== Sys2Proof/Machine/Lifecycle.lean ====
section
/-! DEFINITION. Meanings of the life-cycle commands: resets, supplies, BUILD, STANDBY, wake, the tick and the timebase (chapters 02, 03, 04). -/

namespace Sys2Proof.Machine

open Sys2Proof

/-- A command's outcome where it goes on, as every command of this block does. -/
abbrev Out := Host.Outcome State Fault Refusal

/-- A host-die reset from a monitor or a pin, where the host die has power (Table MOD-2: from any mode except KEEP). -/
def poweredReset (cause : Nat) (s : State) : State :=
  if s.sys.mode = .keep ∨ s.sys.mode = .noSupply then s else dropFieldDebug (hostReset cause s)

/-- POWER_ON_RESET: VSUP_H rises, and the power-on reset begins (R64, R78); the level of VIO_H is sensed (R834). -/
def execPowerOnReset (vio18 : Bool) (s : State) : Out :=
  .next (if s.sys.vsupH then s else dropFieldDebug (hostReset causePor { s with sys.vsupH := true, sys.vio18 := vio18 }))

/-- PIN_RESET: RESET_N held low for 1 µs or longer (R65). -/
def execPinReset (s : State) : Out := .next (poweredReset causePin s)

/-- RESET: the host RESET command (R67, Table MOD-3). -/
def execReset (t : Txn) (s : State) : Out := .next (hostTxn 10 t (poweredReset causeHostCmd) s)

/-- SUPPLY_MONITOR_RESET (R64, R891). -/
def execSupplyMonitorReset (s : State) : Out := .next (poweredReset causeSupMon s)

/-- CLOCK_MONITOR_RESET: the 25 MHz reference is missing or outside its limits (R194). -/
def execClockMonitorReset (s : State) : Out :=
  .next (if s.sys.mode = .keep ∨ s.sys.mode = .noSupply then s else poweredReset causeClkMon { s with sys.refOk := false })

/-- TEMPERATURE_MONITOR_RESET (R64, R891). -/
def execTemperatureMonitorReset (s : State) : Out := .next (poweredReset causeTempMon s)

/-- RESET_END: the conditions of the reset are over; SYSCNT starts and a new challenge is drawn (R67, R71, R863). -/
def execResetEnd (s : State) : Out :=
  .next (if s.sys.inReset.isNone then s else newChallenge (resetEnd { s with sys.refOk := true }))

/-- VSUP_H_LOSS (R77, R78). -/
def execVsupHLoss (s : State) : Out := .next (dropFieldDebug (supplyLoss s))

/-- KEEPER_LOSS: VKEEP falls below 1.8 V with VSUP_H absent; in KEEP the device is then without supply (R78, Table MOD-2). -/
def execKeeperLoss (s : State) : Out :=
  .next (if s.sys.vsupH then s
    else modePins (loseKeeper { s with sys.vkeep := false, sys.mode := .noSupply }))

/-- KEEPER_SUPPLY_VALID: VKEEP above 1.8 V with VSUP_H absent: No supply becomes KEEP (R58, Table MOD-2). -/
def execKeeperSupplyValid (s : State) : Out :=
  .next (if s.sys.vsupH then s
    else modePins { s with sys.vkeep := true, sys.mode := if s.sys.mode = .noSupply then .keep else s.sys.mode })

/-- KEEPER_OSCILLATOR_TICK: while SYSCNT stands, the keeper counter advances by one; a lost counter has nothing to advance (R70). -/
def execKeeperOscillatorTick (s : State) : Out :=
  .next (if s.time.running ∨ s.sys.mode = .noSupply ∨ (s.keeper.lost ∧ s.sys.vsupH) then s
    else { s with keeper.ctr := s.keeper.ctr + 1 })

/-- FIELD_POWER_ON: VSUP_F becomes valid, and the field die resets into WAIT (R74, Table MOD-3). -/
def execFieldPowerOn (s : State) : Out :=
  .next (if s.f.state = .off then fieldReset .wait false { s with sys.vsupF := true } else s)

/-- FIELD_MONITOR_RESET: a monitor of the field die trips, and the field die is held in reset (R64, R67). -/
def execFieldMonitorReset (s : State) : Out :=
  .next (if s.f.state = .off then s else fieldReset .inReset false s)

/-- FIELD_RESET_END: the monitor's condition has cleared 100 µs ago, and the field die enters WAIT (R67, R74). -/
def execFieldResetEnd (s : State) : Out :=
  .next (if s.f.state = .inReset then { s with f.state := .wait } else s)

/-- FIELD_SUPPLY_LOSS: VSUP_F is lost, and with it the drive of the PERMIT pins (R79). -/
def execFieldSupplyLoss (s : State) : Out :=
  .next (if s.f.state = .off then s else fieldReset .off false { s with sys.vsupF := false })

/-- BUILD_START (R75, R122). -/
def execBuildStart (s : State) : Out :=
  .next (if s.sys.mode = .build ∧ s.sys.inReset = none then buildStart s else s)

/-- BUILD_SLOT_FAIL (R128, R129). -/
def execBuildSlotFail (s : State) : Out := .next (slotFail s)

/-- BUILD_TIMEOUT (R128, R129). -/
def execBuildTimeout (s : State) : Out := .next (buildTimeout s)

/-- BUILD_COMMIT (R123). -/
def execBuildCommit (s : State) : Out := .next (buildCommit s)

/-- RUN_ENTRY (R75). -/
def execRunEntry (s : State) : Out := .next (runEntry s)

/-- OTP_FUSE_PROGRAMMED: a fuse of the image (R120, R121), or the epoch fuse of a root message (R536), is blown. -/
def execOtpFuseProgrammed (root : Bool) (s : State) : Out := .next (if root then rootFuse s else imageFuse s)

/-- The origins that write registers over a bus by a command of their own; a debug access has its own commands, and the device's own origins write inside other commands. -/
def busMaster (o : Origin) : Bool := o == .hostSpi || o == .mp || o == .sp || o == .fs || o == .updateMsg || o == .netMgmt

/-- The windows of the host port end with its transaction (Table HOST-9). -/
def closeHost (o : Origin) (s : State) : State :=
  if o = .hostSpi then setWindow false .hostSpi 0 (setWindow true .hostSpi 0 s) else s

/-- A single register write by a bus master; one of the host port is a transaction of its own. -/
def masterWrite (o : Origin) (a v : Nat) (s : State) : State :=
  if busMaster o then closeHost o (busWrite o a (BitVec.ofNat 32 v) s).1 else s

/-- A single register read by a bus master that takes effect (R10); the FS reads its own address space. -/
def masterRead (o : Origin) (a : Nat) (s : State) : State :=
  if !busMaster o then s
  else if o = .fs then (if fsReaches a then (readReg true o a s).1 else s)
  else if isRemote a then s
  else (readReg false o a s).1

/-- SYS_CTRL_SLEEP: a write of 1 to SYS.CTRL.SLEEP (R62, R63). -/
def execSysCtrlSleep (o : Origin) (s : State) : Out := .next (masterWrite o 0x14 1 s)

/-- What the host SLEEP operation does (R62, Table HOST-2): a write of SYS.CTRL.SLEEP by HOST_SPI. -/
def runSleep (s : State) : State :=
  let (s, st) := hostWrites .hostSpi [(0x14, 1)] s
  hostStatus st s

/-- SLEEP (R62, R216). -/
def execSleep (t : Txn) (s : State) : Out := .next (hostTxn 9 t runSleep s)

/-- STANDBY_DRAIN_END: the queues are empty, or the drain limit has passed, and the entry completes (R62, R63). -/
def execStandbyDrainEnd (s : State) : Out :=
  .next (if s.h.fab.queues.isEmpty ∨ s.sys.drainAt ≤ s.time.now then finishStandby s else s)

/-- WAKE_EVENT: an event of a wake source with its stamp (R82, R83, R91). -/
def execWakeEvent (src : Nat) (stamp : Nat) (s : State) : Out := .next (wakeEvent src stamp s)

/-- WAKE_DECISION (R83 to R86); the BUILD it begins finds a new challenge (log entry 20). -/
def execWakeDecision (s : State) : Out :=
  let t := wakeDecide s
  .next (if t.sys.mode = .build ∧ s.sys.mode = .standby then newChallenge t else t)

/-- WAKE_OUT_PULSE_END (R86). -/
def execWakeOutPulseEnd (s : State) : Out := .next (pulseEnd s)

/-- What a RESUME does (R87, R217): its status, and the wake event of the host resume. -/
def runResume (s : State) : State := hostStatus (resumeStatus s.time.now s) (wakeEvent 0 s.time.now s)

/-- RESUME (R87). -/
def execResume (t : Txn) (s : State) : Out := .next (hostTxn 8 t runResume s)

/-- SYS_DEGCAUSE_CLEAR: a write of 1 to SYS.DEGCAUSE.REACT (R61). -/
def execSysDegcauseClear (o : Origin) (s : State) : Out := .next (masterWrite o 0x1C 1 s)

/-- TICK_COMMIT (R163). -/
def execTickCommit (codes : List Int) (s : State) : Out := .next (tickCommit codes s)

/-- TIM_RATE_WRITE (R152, R177). -/
def execTimRateWrite (o : Origin) (v : Word) (s : State) : Out := .next (masterWrite o 0x30008 v.toNat s)

/-- TIM_PTPOFSL_WRITE (R176). -/
def execTimPtpofslWrite (o : Origin) (v : Word) (s : State) : Out := .next (masterWrite o 0x3000C v.toNat s)

/-- TIM_PTPOFSH_WRITE (R176). -/
def execTimPtpofshWrite (o : Origin) (v : Word) (s : State) : Out := .next (masterWrite o 0x30010 v.toNat s)

/-- TIM_NOWL_READ: a read of TIM.NOWL loads TIM.NOWH with the same stamp's high half (R158). -/
def execTimNowlRead (o : Origin) (s : State) : Out := .next (masterRead o 0x30000 s)

/-- LOCKSTEP_MISMATCH: source 0x05B of the MP, or 0x111 of the FS (R33). -/
def execLockstepMismatch (field : Bool) (s : State) : Out := .next (raise (if field then 0x111 else 0x05B) 0 s)

/-- The fault source of a compared pair (Tables FLT-1 and FLT-2). -/
def pairSource : Pair → Nat
  | .hostCollector => 0x05C
  | .journal => 0x05D
  | .budgetArbiter => 0x05E
  | .keyStore => 0x05F
  | .tamperMonitor => 0x060
  | .permitGenerator => 0x113
  | .fieldCollector => 0x114

/-- PAIR_MISMATCH: the source of the unit whose copies disagree (R32). -/
def execPairMismatch (u : Pair) (s : State) : Out := .next (raise (pairSource u) 0 s)

end Sys2Proof.Machine
end

