-- ==== Sys2Proof/Machine/HostRows.lean ====
section
/-! DEFINITION. Meanings of the host port's operations, of plain register writes, of the boot flash and of the live-table operations (chapters 03, 05, 09). -/

namespace Sys2Proof.Machine

open Sys2Proof

/-- NOP: the response words go out; nothing else happens (Table HOST-2). -/
def execNop (t : Txn) (s : State) : Out := .next (hostTxn 0 t (hostStatus 0) s)

/-- WRITE: payload word i to ADDR + 4i, all or none (R207). -/
def execWrite (t : Txn) (s : State) : Out := .next (hostTxn 1 t (runWrites 1 t) s)

/-- WRITEL: address and value pairs in payload order, all or none (R207). -/
def execWritel (t : Txn) (s : State) : Out := .next (hostTxn 2 t (runWrites 2 t) s)

/-- READ: up to 256 words into the response buffer (R212). -/
def execRead (t : Txn) (s : State) : Out := .next (hostTxn 3 t (runRead t) s)

/-- FETCH: as NOP (R215, Table HOST-2). -/
def execFetch (t : Txn) (s : State) : Out := .next (hostTxn 4 t (hostStatus 0) s)

/-- SEND: a message submitted at port 70 (R239). -/
def execSend (t : Txn) (s : State) : Out := .next (hostTxn 5 t (runSend t) s)

/-- RECV: the head message of port 70 into the response buffer (R240). -/
def execRecv (t : Txn) (s : State) : Out := .next (hostTxn 6 t (runRecv t) s)

/-- BADOP: a transaction whose OP or a field lies outside Table HOST-2 (R201). One that lies within it is no such transaction. -/
def execBadop (op : Nat) (t : Txn) (s : State) : Out := .next (if fieldsOk op t then s else hostTxn op t (hostStatus 0x04) s)

/-- DEFERRED_COMPLETE (R211). -/
def execDeferredComplete (s : State) : Out := .next (deferredComplete s)

/-- SYS_UNLOCK_WRITE (R225). -/
def execSysUnlockWrite (o : Origin) (v : Word) (s : State) : Out := .next (masterWrite o 0x40 v.toNat s)

/-- UNLOCK_WINDOW_EXPIRE: an origin's window for the host die's blocks, or for the field blocks, ends (R226). -/
def execUnlockWindowExpire (o : Origin) (field : Bool) (s : State) : Out := .next (setWindow field o 0 s)

/-- REGISTER_WRITE: a write of a register that has no command of its own (R138). -/
def execRegisterWrite (o : Origin) (a : Nat) (v : Word) (s : State) : Out := .next (masterWrite o a v.toNat s)

/-- FLASH_READ_PAGE: SYS.FLCTL.CMD 1 (R234). -/
def execFlashReadPage (o : Origin) (s : State) : Out := .next (masterWrite o 0x60 1 s)

/-- FLASH_PROGRAM_PAGE: SYS.FLCTL.CMD 2 (R234). -/
def execFlashProgramPage (o : Origin) (s : State) : Out := .next (masterWrite o 0x60 2 s)

/-- FLASH_ERASE_4K: SYS.FLCTL.CMD 3 (R234). -/
def execFlashErase4k (o : Origin) (s : State) : Out := .next (masterWrite o 0x60 3 s)

/-- FLASH_ERASE_64K: SYS.FLCTL.CMD 4 (R234). -/
def execFlashErase64k (o : Origin) (s : State) : Out := .next (masterWrite o 0x60 4 s)

/-- FLASH_OP_COMPLETE: the operation under way ends, with a flash error where `ok` is false (R235). -/
def execFlashOpComplete (ok : Bool) (s : State) : Out := .next (flashDone ok s)

/-- IMG_RELEASE: the writer's expert hold on the named register ends (R142). -/
def execImgRelease (o : Origin) (v : Word) (s : State) : Out := .next (masterWrite o 0x40040 v.toNat s)

/-- IMG_RELEASEREC: the writer's expert hold on the named record ends (R142). -/
def execImgReleaserec (o : Origin) (v : Word) (s : State) : Out := .next (masterWrite o 0x40048 v.toNat s)

/-- LT_WRITE: GTW.LTCTL.OP 1 (R380). -/
def execLtWrite (o : Origin) (s : State) : Out := .next (masterWrite o 0x210004 1 s)

/-- LT_DELETE: GTW.LTCTL.OP 2 (R380). -/
def execLtDelete (o : Origin) (s : State) : Out := .next (masterWrite o 0x210004 2 s)

/-- LT_STAGE: GTW.LTCTL.OP 3 (R380). -/
def execLtStage (o : Origin) (s : State) : Out := .next (masterWrite o 0x210004 3 s)

/-- LT_STAGEDEL: GTW.LTCTL.OP 4 (R380). -/
def execLtStagedel (o : Origin) (s : State) : Out := .next (masterWrite o 0x210004 4 s)

/-- LT_COMMIT: GTW.LTCTL.OP 5 (R381). -/
def execLtCommit (o : Origin) (s : State) : Out := .next (masterWrite o 0x210004 5 s)

/-- LT_DISCARD: GTW.LTCTL.OP 6 (R380). -/
def execLtDiscard (o : Origin) (s : State) : Out := .next (masterWrite o 0x210004 6 s)

/-- LT_READ: GTW.LTCTL.OP 7 (R380). -/
def execLtRead (o : Origin) (s : State) : Out := .next (masterWrite o 0x210004 7 s)

end Sys2Proof.Machine
end

