-- ==== Sys2Proof/Machine/RegisterRows.lean ====
section
/-! DEFINITION. Meanings of the commands that are an access to one register with an effect of its own (chapters 07 to 21). -/

namespace Sys2Proof.Machine

open Sys2Proof

/-- A value with some of its bits forced: those of a field at `lo`, `w` bits wide, to `x`. -/
def forced (v : Word) (lo w x : Nat) : Nat := putBits v.toNat lo w x

/-- PLANECTL_WRITE: a write of FAB.PLANECTL (R300). -/
def execPlanectlWrite (o : Origin) (v : Word) (s : State) : Out := .next (masterWrite o 0x10C000 v.toNat s)

/-- FAB_GBASEL_WRITE: a write of FAB.GBASEL of port e, held until GBASEH is written (R333). -/
def execFabGbaselWrite (o : Origin) (e : Nat) (v : Word) (s : State) : Out := .next (masterWrite o (0x100098 + e * 0x1000) v.toNat s)

/-- FAB_GBASEH_WRITE: a write of FAB.GBASEH of port e (R333). -/
def execFabGbasehWrite (o : Origin) (e : Nat) (v : Word) (s : State) : Out := .next (masterWrite o (0x10009C + e * 0x1000) v.toNat s)

/-- The address of a CAN controller's register. -/
def canAddr (n off : Nat) : Nat := 0x400000 + n * 0x1000 + off

/-- CAN_CTL_INIT_WRITE: a write of CAN.CTL without RECOVER (R398). -/
def execCanCtlInitWrite (o : Origin) (n : Nat) (v : Word) (s : State) : Out := .next (masterWrite o (canAddr n 0) (v.toNat % 2) s)

/-- CAN_RECOVER: a write of 1 to CAN.CTL.RECOVER that leaves INIT as it is (R407). -/
def execCanRecover (o : Origin) (n : Nat) (s : State) : Out := .next (masterWrite o (canAddr n 0) (reg s (canReg n 0) % 2 + 2) s)

/-- CAN_TXABORT: a write of CAN.TXABORT (R415). -/
def execCanTxabort (o : Origin) (n : Nat) (v : Word) (s : State) : Out := .next (masterWrite o (canAddr n 0x20) v.toNat s)

/-- LIN_SCHED_WRITE: a write of LIN.CTL without SLEEP and WAKE (R436). -/
def execLinSchedWrite (o : Origin) (c : Nat) (v : Word) (s : State) : Out := .next (masterWrite o (linReg c 0) (v.toNat % 16) s)

/-- LIN_SLEEP: a write of 1 to LIN.CTL.SLEEP that leaves SCHED as it is (R436). -/
def execLinSleep (o : Origin) (c : Nat) (s : State) : Out := .next (masterWrite o (linReg c 0) (reg s (linReg c 0) % 16 + 0x100) s)

/-- LIN_WAKE: a write of 1 to LIN.CTL.WAKE that leaves SCHED as it is (R437). -/
def execLinWake (o : Origin) (c : Nat) (s : State) : Out := .next (masterWrite o (linReg c 0) (reg s (linReg c 0) % 16 + 0x200) s)

/-- ETH_PLCA_WRITE: a write of ETH.PLCA, or of ETH.PLCA2, of a port (R470). -/
def execEthPlcaWrite (o : Origin) (p : Nat) (second : Bool) (v : Word) (s : State) : Out :=
  .next (masterWrite o (ethReg p (if second then 0x10 else 0x0C)) v.toNat s)

/-- TC10_SLEEP: a write of 1 to ETH.T1CTL.SLEEP (R464). -/
def execTc10Sleep (o : Origin) (p : Nat) (s : State) : Out := .next (masterWrite o (ethReg p 8) (reg s (ethReg p 8) % 16 / 4 * 4 + 1) s)

/-- TC10_WAKE: a write of 1 to ETH.T1CTL.WAKE (R464). -/
def execTc10Wake (o : Origin) (p : Nat) (s : State) : Out := .next (masterWrite o (ethReg p 8) (reg s (ethReg p 8) % 16 / 4 * 4 + 2) s)

/-- ETH_TSTX0_POP: a read of ETH.TSTX0 (R475). -/
def execEthTstx0Pop (o : Origin) (p : Nat) (s : State) : Out := .next (masterRead o (ethReg p 0x20) s)

/-- The registers of an association: transmit association k, or association k mod 4 of receive channel k / 4. -/
def saBase (p : Nat) (rx : Bool) (k : Nat) : Nat := if rx then rxSa p (k / 4) (k % 4) else txSa p k

/-- ETH_SAPNL_WRITE: a write of PNL, held until the PNH write (R486). -/
def execEthSapnlWrite (o : Origin) (p : Nat) (rx : Bool) (k : Nat) (v : Word) (s : State) : Out :=
  .next (masterWrite o (saBase p rx k + 4) v.toNat s)

/-- ETH_SAPNH_WRITE: a write of PNH, which sets both halves (R486). -/
def execEthSapnhWrite (o : Origin) (p : Nat) (rx : Bool) (k : Nat) (v : Word) (s : State) : Out :=
  .next (masterWrite o (saBase p rx k + 8) v.toNat s)

/-- MDIO_ADDRESS: ETH.MDIOCMD written with OP 0 (R458). -/
def execMdioAddress (o : Origin) (v : Word) (s : State) : Out := .next (masterWrite o 0x44F000 (forced v 11 2 0) s)

/-- MDIO_WRITE: ETH.MDIOCMD written with OP 1 (R458). -/
def execMdioWrite (o : Origin) (v : Word) (s : State) : Out := .next (masterWrite o 0x44F000 (forced v 11 2 1) s)

/-- MDIO_READ: ETH.MDIOCMD written with OP 2 (R458). -/
def execMdioRead (o : Origin) (v : Word) (s : State) : Out := .next (masterWrite o 0x44F000 (forced v 11 2 2) s)

/-- MDIO_READ_INCREMENT: ETH.MDIOCMD written with OP 3 (R458). -/
def execMdioReadIncrement (o : Origin) (v : Word) (s : State) : Out := .next (masterWrite o 0x44F000 (forced v 11 2 3) s)

/-- MDIO_COMPLETE: the frame under way ends; `data` is what a read brought (R458). -/
def execMdioComplete (data : Nat) (s : State) : Out := .next (mdioDone data s)

/-- TAHR_PERMCTL_WRITE: a write of TAHR.PERMCTL.GRANT (R623). -/
def execTahrPermctlWrite (o : Origin) (v : Word) (s : State) : Out := .next (masterWrite o 0x600004 v.toNat s)

/-- FSUP_TXCTL_SEND: a write of FSUP.TXCTL with SEND 1 by the FS (R615). -/
def execFsupTxctlSend (v : Word) (s : State) : Out := .next (masterWrite .fs 0x820020 (forced v 24 1 1) s)

/-- FSUP_RXPOP: a read of FSUP.RXPOP by the FS (R615). -/
def execFsupRxpop (s : State) : Out := .next (masterRead .fs 0x820024 s)

/-- FSUP_PERMIT_WRITE: a write of FSUP.PERMIT by the FS (R627). -/
def execFsupPermitWrite (v : Word) (s : State) : Out := .next (masterWrite .fs 0x820004 v.toNat s)

/-- WATCHDOG_REFRESH: a write of FSUP.WDT by the FS (R597). -/
def execWatchdogRefresh (v : Word) (s : State) : Out := .next (masterWrite .fs 0x82000C v.toNat s)

/-- MEAS_CHCTL_WRITE: a write of CHCTL of a channel (R679). -/
def execMeasChctlWrite (o : Origin) (host : Bool) (ch : Nat) (v : Word) (s : State) : Out := .next (masterWrite o (chctlReg host ch) v.toNat s)

/-- MEAS_CHWIN_WRITE: a write of CHWIN of a channel (R679). -/
def execMeasChwinWrite (o : Origin) (host : Bool) (ch : Nat) (v : Word) (s : State) : Out := .next (masterWrite o (chwinReg host ch) v.toNat s)

/-- MEAS_CALCTL_REQ: a write of MEAS.CALCTL (R667). -/
def execMeasCalctlReq (o : Origin) (v : Word) (s : State) : Out := .next (masterWrite o 0x800010 v.toNat s)

/-- HSNS_CALCTL_REQ: a write of 1 to HSNS.CALCTL.REQ (R670). -/
def execHsnsCalctlReq (o : Origin) (s : State) : Out := .next (masterWrite o 0x580004 1 s)

/-- TDM_TDMBST0_POP: a read of AUD.TDMBST0 of a TDM port (R694). -/
def execTdmTdmbst0Pop (o : Origin) (n : Nat) (s : State) : Out := .next (masterRead o (0x500030 + 0x100 * n) s)

/-- TDM_ENABLE_WRITE: a write of AUD.TDMCTL of a TDM port (R690). -/
def execTdmEnableWrite (o : Origin) (n : Nat) (v : Word) (s : State) : Out := .next (masterWrite o (0x500000 + 0x100 * n) v.toNat s)

/-- BPT_CSCOMMIT: CSCOMMIT of a transmitter written 1, its other fields as they stand (R701). -/
def execBptCscommit (o : Origin) (x : Nat) (s : State) : Out :=
  .next (masterWrite o (0x500400 + 0x100 * x) (reg s (0x500400 + 0x100 * x) % 8 + 8) s)

/-- BPT_UCOMMIT: UCOMMIT of a transmitter written 1, its other fields as they stand (R701). -/
def execBptUcommit (o : Origin) (x : Nat) (s : State) : Out :=
  .next (masterWrite o (0x500400 + 0x100 * x) (reg s (0x500400 + 0x100 * x) % 8 + 16) s)

/-- AUD_RGAIN_WRITE: a write of AUD.RGAIN of a graph record (R729). -/
def execAudRgainWrite (o : Origin) (r : Nat) (v : Word) (s : State) : Out := .next (masterWrite o (0x502000 + 4 * r) v.toNat s)

/-- BIQUAD_COMMIT: COMMIT of a section written 1; `key` names the section as the model numbers them (chain × 8 + section, or 0x1000 + analyser × 16 + band × 2 + section) (R735). -/
def execBiquadCommit (o : Origin) (key : Nat) (s : State) : Out := .next (masterWrite o (bqReg key + 0x14) 1 s)

/-- SPKCTL_WRITE: a write of AUD.SPKCTL (R738). -/
def execSpkctlWrite (o : Origin) (v : Word) (s : State) : Out := .next (masterWrite o 0x500E40 v.toNat s)

/-- DACCTL_WRITE: a write of AUD.DACCTL of a line DAC (R738). -/
def execDacctlWrite (o : Origin) (n : Nat) (v : Word) (s : State) : Out := .next (masterWrite o (0x500E00 + 0x10 * n) v.toNat s)

/-- DETECT_SPEAKER: a write of 1 to AUD.DETCTL.SPK (R741). -/
def execDetectSpeaker (o : Origin) (s : State) : Out := .next (masterWrite o 0x500F00 1 s)

/-- DETECT_LINE_OUT: a write of 1 to AUD.DETCTL.LOUT of an output (R741). -/
def execDetectLineOut (o : Origin) (n : Nat) (s : State) : Out := .next (masterWrite o 0x500F00 (2 * 2 ^ (n % 2)) s)

/-- AUDIO_CALREQ: a write of AUD.CALREQ (R746). -/
def execAudioCalreq (o : Origin) (v : Word) (s : State) : Out := .next (masterWrite o 0x500F40 v.toNat s)

/-- FLT_INJECT: a write of FLT.INJECT (R780). -/
def execFltInject (o : Origin) (v : Word) (s : State) : Out := .next (masterWrite o 0x50040 v.toNat s)

/-- FFLT_INJECT: a write of FFLT.INJECT (R780). -/
def execFfltInject (o : Origin) (v : Word) (s : State) : Out := .next (masterWrite o 0x810040 v.toNat s)

/-- FLT_SEV_CLEAR: a write of 1 to FLT.STATUS.SEV (R767). -/
def execFltSevClear (o : Origin) (s : State) : Out := .next (masterWrite o 0x50000 1 s)

/-- FFLT_SEV_CLEAR: a write of 1 to FFLT.STATUS.SEV (R767). -/
def execFfltSevClear (o : Origin) (s : State) : Out := .next (masterWrite o 0x810000 1 s)

/-- SHEDREQ_GO: a write of REP.SHEDREQ with GO 1 (R819). -/
def execShedreqGo (o : Origin) (v : Word) (s : State) : Out := .next (masterWrite o 0x60008 (forced v 16 1 1) s)

/-- RETCTL_GO: a write of REP.RETCTL with GO 1 (R821). -/
def execRetctlGo (o : Origin) (v : Word) (s : State) : Out := .next (masterWrite o 0x6000C (forced v 16 1 1) s)

/-- AGECLR: a write of REP.AGECLR (R810). -/
def execAgeclr (o : Origin) (v : Word) (s : State) : Out := .next (masterWrite o 0x60044 v.toNat s)

end Sys2Proof.Machine
end

