-- ==== Sys2Proof/Machine/FabricRows.lean ====
section
/-! DEFINITION. Meanings of the journal's, the gateway's and the fabric's events, and of the virtual ports (chapters 06 to 09). -/

namespace Sys2Proof.Machine

open Sys2Proof

/-! ## Journal -/

/-- JOURNAL_DRAIN: the journal submits a drain message where one is due (R254). -/
def execJournalDrain (s : State) : Out := .next (jDrain s)

/-- JOURNAL_ACK: the message at the head of port 66 taken, where it is no accepted acknowledgement with REWIND (R256). -/
def execJournalAck (s : State) : Out := .next (jTakeAck false s)

/-- JOURNAL_REWIND: the acknowledgement at the head of port 66 taken, where it is accepted and carries REWIND (R257). -/
def execJournalRewind (s : State) : Out := .next (jTakeAck true s)

/-! ## Gateway and fabric -/

/-- The first event of an ingress port whose tick is due (R159, R163). -/
def readyEvent (s : State) (p : Nat) : Option Event :=
  s.h.fab.ingress.find? (fun e => e.port == p && decide (tickOf e.pres ≤ curTick s))

/-- The state without an event of an ingress port. -/
def dropEvent (e : Event) (s : State) : State :=
  { s with h.fab.ingress := s.h.fab.ingress.filter (fun x => !(x.port == e.port && x.seq == e.seq && x.pres == e.pres)) }

/-- A drain message that no longer waits for admission (R254): none of its making stands before the ledger. -/
def drainOver (e : Event) (s : State) : State :=
  if e.mark == 1 && !s.h.fab.toAdmit.any (fun f => f.mark == 1) then { s with h.jrn.awaiting := none } else s

/-- The next event of port p taken by its pipeline (R277, R344, R323): dropped and counted where the port's pipelines are out (Table REP-4), kept while the ingress stages take no cells, and classified otherwise. -/
def classifyNext (p : Nat) (s : State) : State :=
  match readyEvent s p with
  | none => s
  | some e =>
    if ingressOut s p then drainOver e (bump (dropEvent e s) 0x60024 0 32 1)
    else if s.h.fab.pressure then s
    else drainOver e (classifyEvent e (dropEvent e s))

/-- GATEWAY_CLASSIFY: a pipeline takes the next event of port p (R277). -/
def execGatewayClassify (p : Nat) (s : State) : Out := .next (classifyNext p s)

/-- HEAD_RELEASE: egress port e releases the heads that may be released (R287). -/
def execHeadRelease (e : Nat) (s : State) : Out := .next (releaseHeads e s)

/-- EXPRESS_MATCH: one cell time of the express matcher (R293). -/
def execExpressMatch (s : State) : Out := .next (matchCell s)

/-- The scheduler's frame for a port, taken out of its queue (R330). -/
def scheduled (s : State) (e : Nat) : Option (Frame × State) :=
  match chooseQueue s e with
  | none => none
  | some (q, s) => popQueue s q

/-- The transmitter of an Ethernet port is free: the frame on the wire is over, and the next one starts (R330, R461). -/
def scheduleEth (e : Nat) (s : State) : State :=
  if (KMap.get? s.h.fab.txing e).isSome && decide (s.time.now < (ethOf s e).txEnd) then s
  else
    let s := ethTxDone e s
    match scheduled s e with
    | none => s
    | some (f, s) => ethStart e f s

/-- A transmit slot of CAN controller n of the host die is free: a frame is placed into it (R331, R409). -/
def scheduleCan (n : Nat) (s : State) : State :=
  if (freeSlot (canOf s n)).isNone then s
  else match scheduled s (16 + n) with
  | none => s
  | some (f, s) => placeFrame n f.bytes f.queue f.pres s

/-- A transmit slot of FCAN controller n is free: the oldest frame of its inbox is placed into it (R409, R613). The crossing message names no queue, so frames of one controller keep their order (log entry 15). -/
def scheduleFcan (n : Nat) (s : State) : State :=
  if (freeSlot (canOf s (24 + n))).isNone then s
  else match nth s.f.inbox n [] with
  | [] => s
  | b :: r => placeFrame (24 + n) b 0 (fnow s) { s with f.inbox := setNth s.f.inbox n r }

/-- A frame of a LIN port moves into its publish buffer (R331, R431). -/
def scheduleLin (c : Nat) (s : State) : State :=
  match scheduled s (48 + c) with
  | none => s
  | some (f, s) => linMove c f.bytes s

/-- The processor or endpoint that owns an internal port without a command of its own takes its head message. -/
def scheduleInternal (e : Nat) (s : State) : State :=
  match takeHead s e with
  | none => s
  | some (_, s) => s

/-- EGRESS_SCHEDULE: the scheduler of port e chooses the next frame (R330, R331). Ports 65, 66, 69 and 70, the stream endpoints and the virtual ports take their frames by commands of their own. -/
def execEgressSchedule (e : Nat) (s : State) : Out :=
  .next (if e ≤ 11 then scheduleEth e s
    else if 16 ≤ e ∧ e ≤ 39 then scheduleCan (e - 16) s
    else if 40 ≤ e ∧ e ≤ 47 then scheduleFcan (e - 40) s
    else if 48 ≤ e ∧ e ≤ 55 then scheduleLin (e - 48) s
    else if e = 64 ∨ e = 67 ∨ e = 68 then scheduleInternal e s
    else s)

/-- MODEL_DEPARTURE: the model credit of port e covers its head entries (R319). -/
def execModelDeparture (e : Nat) (s : State) : Out := .next (departPort e s)

/-- HOLD_LIMIT_PURGE: port e, blocked or out of service, purges the frames past HOLDMS (R327). -/
def execHoldLimitPurge (e : Nat) (s : State) : Out :=
  .next (if wasStopped s e then purgePort (curTick s) e s else s)

/-- LEDGER_DIVERGENCE: the divergence source of port e (R323). -/
def execLedgerDivergence (e : Nat) (s : State) : Out := .next (if e < 256 then raise (0x40 + e / 16) 0 s else s)

/-- BUFFER_PRESSURE: fewer than 1,024 physical cells are free (R323). -/
def execBufferPressure (s : State) : Out := .next (raise 0x50 0 { s with h.fab.pressure := true })

/-- BUFFER_PRESSURE_END: 2,048 physical cells are free again (R323). -/
def execBufferPressureEnd (s : State) : Out := .next { s with h.fab.pressure := false }

/-- GATE_INTERVAL_END: an interval of port e's gate list ends (R332). -/
def execGateIntervalEnd (e : Nat) (s : State) : Out := .next (gateEnd e s)

/-! ## Virtual ports -/

/-- VIRTUAL_PORT_CONSUME: virtual port v consumes its next input (R370). -/
def execVirtualPortConsume (v : Nat) (s : State) : Out := .next (consumeNext v s)

/-- CONTAINER_PERIODIC_EMIT: the boundary of a periodic container of port v is reached (R375). -/
def execContainerPeriodicEmit (v : Nat) (s : State) : Out := .next (periodicEmit v s)

/-- ACF_TIMED_EMIT: MAXWAIT has passed since the first message of tunnel record t (R378). -/
def execAcfTimedEmit (t : Nat) (s : State) : Out := .next (timedEmit t s)

/-! ## Toward the field die -/

/-- The credits of an FCAN inbox with one used (R613). -/
def useCredit (n : Nat) (s : State) : State := { s with h.tahr.credits := updNth s.h.tahr.credits n (fun c => c - 1) }

/-- A frame of port 40 + n sent to its FCAN inbox (R613): while a credit is held and MININT has passed. -/
def fcanToField (n : Nat) (s : State) : State :=
  if nth s.h.tahr.credits n 0 = 0 ∨ minintOver s false 8 n = false then s
  else match scheduled s (40 + n) with
  | none => s
  | some (f, s) => (sendMsg false 8 0 s.time.now ([byte n, 0, 0, 0] ++ f.bytes) (useCredit n s)).1

/-- FCAN_FRAME_TO_FIELD: port 40 + n sends a frame, one credit used (R613). -/
def execFcanFrameToField (n : Nat) (s : State) : Out := .next (if n < 8 then fcanToField n s else s)

/-- TAHR_CATALOGUE_SEND: the body at the head of port 69 sent as a message of an image-defined type (R614). -/
def execTahrCatalogueSend (s : State) : Out := .next (catalogueSend s)

end Sys2Proof.Machine
end

