-- ==== Sys2Proof/Machine/CanRows.lean ====
section
/-! DEFINITION. Meanings of the events of the CAN FD controllers and their wake listeners (chapter 10). Controllers 0 to 23 are those of the host die, 24 to 31 FCAN0 to FCAN7. -/

namespace Sys2Proof.Machine

open Sys2Proof

/-- CAN_BUS_INTEGRATE: 11 recessive bits, and controller n takes part in the bus (R399). -/
def execCanBusIntegrate (n : Nat) (s : State) : Out := .next (canIntegrate n s)

/-- BUS_OFF_RECOVERY_END: 128 occurrences of 11 recessive bits (R407). -/
def execBusOffRecoveryEnd (n : Nat) (s : State) : Out := .next (canRecovered n s)

/-- CAN_TX_ATTEMPT: at the end of intermission controller n offers a slot; `measured` is the transmitter delay that the attempt measures (R400, R412). -/
def execCanTxAttempt (n : Nat) (measured : Nat) (s : State) : Out := .next (canAttempt n measured s)

/-- CAN_TX_COMPLETE: the frame in an attempt is transmitted without error (R414). -/
def execCanTxComplete (n : Nat) (s : State) : Out := .next (canComplete n s)

/-- TEC after an error of the transmitter, and the state it leads to (R406, R408). -/
def canTxError (n code : Nat) (dataPhase noDominant stuffArb : Bool) (more : Nat) (s : State) : State :=
  let s := canErrCode n code dataPhase s
  let c := canOf s n
  settleErrors n { c with tec := tecAfterError c code noDominant stuffArb more } s

/-- An attempt that fails (R406, R408, R413, R415, R442): by lost arbitration where `code` is 0, by an error of the type `code` otherwise. -/
def canFail (n code : Nat) (dataPhase noDominant stuffArb : Bool) (more : Nat) (s : State) : State :=
  if (attemptSlot (canOf s n)).isNone ∨ 6 < code then s
  else
    let s := if code = 0 then bump s (canReg n 0x2C) 16 16 1
      else canTxError n code dataPhase noDominant stuffArb more s
    finishStop n (canAttemptOver n s)

/-- CAN_TX_ATTEMPT_FAIL: the attempt loses arbitration (`code` 0) or ends in an error of a type of R408, in the data phase or not; `noDominant`, `stuffArb` and `more` tell what the fault-confinement rules ask of it (log entry 10). -/
def execCanTxAttemptFail (n : Nat) (code : Nat) (dataPhase : Bool) (noDominant : Bool) (stuffArb : Bool) (more : Nat) (s : State) : Out :=
  .next (canFail n code dataPhase noDominant stuffArb more s)

/-- CAN_TRANSMIT_STALL: STALLMS has passed since the reference with a slot occupied (R416). -/
def execCanTransmitStall (n : Nat) (s : State) : Out :=
  .next (if stallDue s n then canPortState n (setCan s n { canOf s n with stall := true }) else s)

/-- The frames a controller has received and its pipeline has not taken (R418): for a controller of the field die, those that still wait for the link. -/
def rxWaiting (s : State) (n : Nat) : Nat :=
  if n < 24 then (s.h.fab.ingress.filter (fun e => e.port == 16 + n)).length
  else (s.f.fe.waiting.filter (fun f => f.typ == 8 && f.first && fieldLE f.payload 0 1 == n - 24)).length

/-- The counters after a frame received without error (R406): in restricted operation they stand (R404). -/
def canRxCount (n : Nat) (s : State) : State :=
  let c := canOf s n
  if canRestricted c then s
  else if c.rxErr ≤ 127 then settleErrors n { c with rxErr := c.rxErr - 1 } s
  else
    let (s, v) := takeFree s
    settleErrors n { canOf s n with rxErr := recAfterRx v c.rxErr } s

/-- A received body handed on with its stamp (R417): the next event of its port, or an FCAN message with the inbox's credit. -/
def canHand (n : Nat) (stamp : Stamp) (body : Bytes) (s : State) : State :=
  if n < 24 then submitAt (16 + n) stamp stamp 0 1 body false 0 s
  else fieldSendAt 8 0 stamp ([byte (n - 24), byte (fcanCredit s (n - 24)), 0, 0] ++ body) s

/-- A frame received without error (R167, R403, R406, R417, R418). -/
def canReceive (n : Nat) (stamp : Stamp) (body : Bytes) (s : State) : State :=
  let c := canOf s n
  let fd := bit (canIdw body) 31
  if 32 ≤ n ∨ !canActive c ∨ !canBodyOk body ∨ (fd ∧ !bit c.cfg 0) then s
  else if n < 24 ∧ isLate s stamp then dropLate s
  else
    let s := canRxCount n s
    if 8 ≤ rxWaiting s n then
      raise (if n < 24 then 0x18 + n else 0x108 + (n - 24)) (if n < 24 then n else n - 24) (bump s (canReg n 0x30) 16 16 1)
    else canHand n stamp (overlay body 6 [0, 0]) (bump s (canReg n 0x30) 0 16 1)

/-- CAN_RX_FRAME: a frame received without error by controller n, with its stamp and its body (R417). -/
def execCanRxFrame (n : Nat) (stamp : Nat) (body : List Byte) (s : State) : Out := .next (canReceive n stamp body s)

/-- CAN_RX_ERROR: an error of a type of R408 in another node's frame; `flagBit`, `firstDominant` and `more` tell what the fault-confinement rules ask of it (R406, log entry 10). Restricted operation keeps the counters (R404). -/
def execCanRxError (n : Nat) (code : Nat) (dataPhase : Bool) (flagBit : Bool) (firstDominant : Bool) (more : Nat) (s : State) : Out :=
  .next (
    if !canActive (canOf s n) ∨ code = 0 ∨ 6 < code then s
    else
      let s := canErrCode n code dataPhase s
      let c := canOf s n
      if canRestricted c then s else settleErrors n { c with rxErr := recAfterError c.rxErr flagBit firstDominant more } s)

/-- FCAN_STATUS_REPORT: the status source of the field die sends its next record (R421, R612): the controllers take turns, part 0 before part 1. -/
def execFcanStatusReport (s : State) : Out :=
  .next (
    if (s.f.state = .frun ∨ s.f.state = .fhold ∨ s.f.state = .alone) ∧ minintOver s true 8 8 then
      let k := s.f.statusNext % 16
      fieldSend 8 0 (statusPayload s (k / 2) (k % 2)) { s with f.statusNext := (k + 1) % 16 }
    else s)

/-! ## Wake listeners -/

/-- A listener. -/
def listenerOf (s : State) (l : Nat) : Listener := nth s.h.listeners l ⟨false, 0, false⟩

/-- The state with a listener replaced. -/
def setListener (l : Nat) (x : Listener) (s : State) : State := { s with h.listeners := setNth s.h.listeners l x }

/-- The address of a listener's register. -/
def wlReg (l off : Nat) : Nat := 0x400800 + l * 0x1000 + off

/-- A matching wake frame (R424): format, identifier, DLC and the masked data bits. -/
def wakeMatch (s : State) (l : Nat) (ide : Bool) (ident dlc : Nat) (data : Bytes) : Bool :=
  let cfg := reg s (wlReg l 0)
  let mask := reg s (wlReg l 8)
  let dm := reg s (wlReg l 0xC) + reg s (wlReg l 0x10) * 2 ^ 32
  ide == bit cfg 12 && Nat.land ident mask == Nat.land (reg s (wlReg l 4)) mask && dlc == bits cfg 16 4 &&
    (dm == 0 || Nat.land (leNat (data.take 8)) dm != 0)

/-- LISTENER_WAKE_FRAME: listener l decodes a classical data frame without error, stamped at its end; a matching one raises its wake source (R424, R425). -/
def execListenerWakeFrame (l : Nat) (stamp : Nat) (ide : Bool) (ident : Nat) (dlc : Nat) (data : List Byte) (s : State) : Out :=
  .next (
    let x := listenerOf s l
    if !x.armed then s
    else
      let s := setListener l { x with fec := x.fec - 1 } s
      if wakeMatch s l ide ident dlc data then wakeEvent (2 + l) stamp s else s)

/-- LISTENER_FRAME_ERROR: listener l decodes a frame with a stuff, form or CRC error (R425). -/
def execListenerFrameError (l : Nat) (s : State) : Out :=
  .next (
    let x := listenerOf s l
    if x.armed then setListener l { x with fec := min 32 (x.fec + 1) } s else s)

/-- LISTENER_FEC_OVERFLOW: the counter of listener l has reached 32, with the stamp of the error that brought it there (R425). -/
def execListenerFecOverflow (l : Nat) (stamp : Nat) (s : State) : Out :=
  .next (
    let x := listenerOf s l
    if x.armed ∧ x.fec = 32 ∧ !x.fecOvf then wakeEvent (2 + l) stamp (setListener l { x with fecOvf := true } s) else s)

end Sys2Proof.Machine
end

