-- ==== Sys2Proof/Machine/LinRows.lean ====
section
/-! DEFINITION. Meanings of the events of the LIN controllers (chapter 10). -/

namespace Sys2Proof.Machine

open Sys2Proof

/-- LIN_SLOT_START: a slot of the master's schedule starts (R432). -/
def execLinSlotStart (c : Nat) (s : State) : Out := .next (linSlot c s)

/-- A header as a slave receives it (R433, R436): its buffer is published, or, on the sleep frame, it enters sleep. PRESUMED, log entry 10: ISO 17987 has a slave pass over a header whose PID parity is wrong. -/
def linHeader (c pid : Nat) (sleep : Bool) (s : State) : State :=
  let fid := pid % 64
  if linMaster s c || (linOf s c).state != 0 || linPid fid != pid then s
  else if sleep && fid == 0x3C then linSleepNow c s
  else startHeader c fid 0 0xFF s

/-- LIN_HEADER_RX: slave c receives a header with a PID; `sleep` tells that the frame is the master request of R436. -/
def execLinHeaderRx (c : Nat) (pid : Nat) (sleep : Bool) (s : State) : Out := .next (linHeader c pid sleep s)

/-- LIN_RESPONSE_RX: a response ends on the bus of controller c, with its stamp, PID, checksum byte and data; `bitErr` tells of a bit, framing or sync error (R434, R435). -/
def execLinResponseRx (c : Nat) (stamp : Nat) (pid : Nat) (cksum : Nat) (data : List Byte) (bitErr : Bool) (s : State) : Out :=
  .next (if (linOf s c).state = 0 then linResponse c stamp pid cksum data bitErr s else s)

/-- The time limit of a response has passed (R434): 1.4 × (34 + 10 × (LEN + 1)) bit times after the break start. -/
def linOverdue (s : State) (c len : Nat) : Bool :=
  let baud := fieldOf s (linReg c 4) 16 15
  decide (14 * (34 + 10 * (len + 1)) * 1000000000 ≤ 10 * baud * (s.time.now - (linOf s c).headerAt))

/-- A response on a subscribed identifier that is not complete in time (R434). -/
def linMissing (c : Nat) (s : State) : State :=
  match (linOf s c).header with
  | none => s
  | some (fid, _, _) =>
    match respRec s c fid with
    | none => s
    | some r =>
      if fieldLE r 2 1 = 2 ∧ linOverdue s c (fieldLE r 3 1) then
        bump (setLin s c { linOf s c with header := none }) (linReg c 0x10) 16 16 1
      else s

/-- LIN_NO_RESPONSE: the response to the header outstanding is missing or late (R434). -/
def execLinNoResponse (c : Nat) (s : State) : Out := .next (linMissing c s)

/-- LIN_WAKE_PULSE: a dominant pulse of 150 µs or longer ends on the bus, the controller's own among them (R437). -/
def execLinWakePulse (c : Nat) (s : State) : Out := .next (linWoken c s)

/-- LIN_IDLE_SLEEP: a slave has seen 4 s without bus activity (R436). -/
def execLinIdleSleep (c : Nat) (s : State) : Out :=
  .next (if !linMaster s c && (linOf s c).state == 0 then linSleepNow c s else s)

/-- LIN_SCHEDULE_RESUME: WAKEDLY ms after a wake a master's schedule may start (R437). -/
def execLinScheduleResume (c : Nat) (s : State) : Out :=
  .next (match (linOf s c).resume with
    | some t => if t ≤ s.time.now then setLin s c { linOf s c with resume := none } else s
    | none => s)

/-- LIN_BUS_FAULT: RX stays dominant or differs from TX (R438). -/
def execLinBusFault (c : Nat) (s : State) : Out :=
  .next (if (linOf s c).state = 2 then s
    else raise (0x30 + c) c (linPortState c (setLin s c { linOf s c with state := 2, header := none, pulse := false })))

/-- LIN_BUS_FAULT_END: 11 consecutive recessive bits on RX (R438). -/
def execLinBusFaultEnd (c : Nat) (s : State) : Out :=
  .next (if (linOf s c).state = 2 then linPortState c (setLin s c { linOf s c with state := 0 }) else s)

end Sys2Proof.Machine
end

