-- ==== Sys2Proof/Machine/EthRows.lean ====
section
/-! DEFINITION. Meanings of the events of the Ethernet ports (chapter 11). -/

namespace Sys2Proof.Machine

open Sys2Proof

/-- ETH_RX_FRAME: a frame received by port p, stamped at its SFD: its bytes from the destination address to the last byte before the FCS, and whether its FCS was right (R459). A stamp whose tick has committed is late (R167). -/
def execEthRxFrame (p : Nat) (stamp : Nat) (frame : List Byte) (fcsOk : Bool) (s : State) : Out :=
  .next (if 11 < p || !hostOn s then s else if isLate s stamp then dropLate s else ethReceive p stamp frame fcsOk s)

/-- ETH_LINK_CHANGE: the link of port p goes up or down, with the signal quality and the Clause 37 completion it shows (R456, R462). -/
def execEthLinkChange (p : Nat) (up : Bool) (sqi : Nat) (anDone : Bool) (s : State) : Out :=
  .next (if 11 < p then s else ethLink p up sqi anDone s)

/-- ETH_COLLISION: a collision of port p ends a transmission (R469). -/
def execEthCollision (p : Nat) (s : State) : Out := .next (ethCollide p s)

/-- A T1 port. -/
def t1Port (p : Nat) : Bool := decide (6 ≤ p) && decide (p ≤ 9)

/-- A sleep request of the port that came to nothing (Table ETH-2, R496): NORMAL again, and SLREJ counts. -/
def sleepRejected (p : Nat) (s : State) : State := setT1 p 0 (bump s (ethReg p 0x54) 0 16 1)

/-- TC10_SLEEP_ACK: the partner acknowledges, and SLEEPREQ becomes SLEEP (R464). -/
def execTc10SleepAck (p : Nat) (s : State) : Out :=
  .next (if t1Port p && (ethOf s p).t1 == 1 then setT1 p 2 s else s)

/-- TC10_SLEEPREQ_TIMEOUT: the partner rejects, or 16 ms have passed, and SLEEPREQ becomes NORMAL (R464). -/
def execTc10SleepreqTimeout (p : Nat) (s : State) : Out :=
  .next (if t1Port p && (ethOf s p).t1 == 1 then sleepRejected p s else s)

/-- A sleep request of the partner (R464, R495, Table ETH-2): accepted in SLEEPREQ, and in NORMAL where SLEEPACK is 1. -/
def partnerSleep (p : Nat) (s : State) : State :=
  if !t1Port p then s
  else if (ethOf s p).t1 = 1 ∨ ((ethOf s p).t1 = 0 ∧ bit (reg s (ethReg p 8)) 2) then setT1 p 2 s
  else s

/-- TC10_PARTNER_SLEEP: a sleep request of the partner is accepted or rejected by SLEEPACK (R464). -/
def execTc10PartnerSleep (p : Nat) (s : State) : Out := .next (partnerSleep p s)

/-- A wake-up pulse or request of the partner (R464, R465, R496): it wakes the port or ends its sleep request, or, in STANDBY, stamps its wake source. -/
def tc10Wake (p : Nat) (stamp : Stamp) (s : State) : State :=
  if !t1Port p then s
  else
    let s := if s.sys.wake.recording then wakeEvent (0x0A + (p - 6)) stamp s else s
    if s.sys.mode = .standby then s
    else if (ethOf s p).t1 = 2 then setT1 p 3 s
    else if (ethOf s p).t1 = 1 then sleepRejected p s
    else s

/-- TC10_WAKE_DETECT: port p detects a wake-up pulse or request (R465). -/
def execTc10WakeDetect (p : Nat) (stamp : Nat) (s : State) : Out := .next (tc10Wake p stamp s)

end Sys2Proof.Machine
end

