-- ==== Sys2Proof/Machine/ServiceRows.lean ====
section
/-! DEFINITION. Meanings of the commands about keys, tamper, updates, network management, the services of the security processor and its engines (chapters 11 to 13). -/

namespace Sys2Proof.Machine

open Sys2Proof

/-! ## Messages at port 65 -/

/-- A network management request at the head of port 65 (R488). -/
def netMgmt (s : State) : State :=
  match takeIf s 65 (fun f => f.bytes.length ≥ 16 && fieldLE f.bytes 0 2 == 0x0E01) with
  | none => s
  | some (f, s) => nmTake f.bytes s

/-- NET_MGMT_REQUEST: the request at the head of port 65 is checked, executed and answered (R488). -/
def execNetMgmtRequest (s : State) : Out := .next (netMgmt s)

/-- UPDATE_INJECT: the update message at the head of port 65, of one or more operations that begin with none of the three other rows' (R530, R533). -/
def execUpdateInject (s : State) : Out := .next (updFromQueue (fun c => !(c == 2 || c == 3 || c == 4)) s)

/-- UPDATE_DELETE: an update message that begins with DELETE (R533). -/
def execUpdateDelete (s : State) : Out := .next (updFromQueue (fun c => c == 2) s)

/-- UPDATE_ROOT: an update message that begins with ROOT (R536). -/
def execUpdateRoot (s : State) : Out := .next (updFromQueue (fun c => c == 3) s)

/-- UPDATE_REGWRITE: an update message that begins with REGWRITE (R532). -/
def execUpdateRegwrite (s : State) : Out := .next (updFromQueue (fun c => c == 4) s)

/-! ## Tamper and grace -/

/-- TAMPER_DETECT: source 1 the mesh, 2 and 3 the enclosure inputs (Table KEY-3, R508). -/
def execTamperDetect (src : Nat) (s : State) : Out := .next (tamper src s)

/-- TAMPER_CONDITION_END: the disturbance of a source has ended (R507, R513). -/
def execTamperConditionEnd (src : Nat) (s : State) : Out := .next (setTampCond src false s)

/-- GRACE_EXPIRY: the grace of a handle's former key has ended (R541). -/
def execGraceExpiry (h : Nat) (s : State) : Out :=
  .next (match (roleOf s h).grace with
    | some (_, t) => if t ≤ curTick s then endGrace h s else s
    | none => s)

/-! ## Services (Table CRY-5) -/

/-- RANDOM: service 0x01, random bytes. -/
def execRandom (p : SvcPath) (s : State) : Out := .next (serve p 0x01 svcRandom s)

/-- MACGEN: service 0x02, a truncated CMAC. -/
def execMacgen (p : SvcPath) (s : State) : Out := .next (serve p 0x02 svcMacgen s)

/-- MACVER: service 0x03, a CMAC tag verified. -/
def execMacver (p : SvcPath) (s : State) : Out := .next (serve p 0x03 svcMacver s)

/-- GCMENC: service 0x04, GCM encryption. -/
def execGcmenc (p : SvcPath) (s : State) : Out := .next (serve p 0x04 svcGcmenc s)

/-- GCMDEC: service 0x05, GCM decryption. -/
def execGcmdec (p : SvcPath) (s : State) : Out := .next (serve p 0x05 svcGcmdec s)

/-- CTRENC: service 0x06, CTR mode. -/
def execCtrenc (p : SvcPath) (s : State) : Out := .next (serve p 0x06 svcCtrenc s)

/-- WRAP: service 0x07, the key of a run-time handle wrapped. -/
def execWrap (p : SvcPath) (s : State) : Out := .next (serve p 0x07 svcWrap s)

/-- UNWRAP: service 0x08, a key unwrapped into a handle. -/
def execUnwrap (p : SvcPath) (s : State) : Out := .next (serve p 0x08 svcUnwrap s)

/-- GENKEY: service 0x09, a new AES key in a run-time handle. -/
def execGenkey (p : SvcPath) (s : State) : Out := .next (serve p 0x09 svcGenkey s)

/-- ERASE: service 0x0A, a handle erased. -/
def execErase (p : SvcPath) (s : State) : Out := .next (serve p 0x0A svcErase s)

/-- CANCEL: service 0x0B, the pending key of a handle discarded. -/
def execCancel (p : SvcPath) (s : State) : Out := .next (serve p 0x0B svcCancel s)

/-- CONFIRM: service 0x0C, a confirmation tag compared. -/
def execConfirm (p : SvcPath) (s : State) : Out := .next (serve p 0x0C svcConfirm s)

/-- KDF: service 0x0D, a key derived from a DERIVE parent. -/
def execKdf (p : SvcPath) (s : State) : Out := .next (serve p 0x0D svcKdf s)

/-- SIGN: service 0x0E, an ECDSA signature. -/
def execSign (p : SvcPath) (s : State) : Out := .next (serve p 0x0E svcSign s)

/-- VERIFY: service 0x0F, a signature verified. -/
def execVerify (p : SvcPath) (s : State) : Out := .next (serve p 0x0F svcVerify s)

/-- AGREE: service 0x10, one-pass ECDH. -/
def execAgree (p : SvcPath) (s : State) : Out := .next (serve p 0x10 svcAgree s)

/-- MKADERIVE: service 0x11, ICK and KEK of a CAK. -/
def execMkaderive (p : SvcPath) (s : State) : Out := .next (serve p 0x11 svcMkaderive s)

/-- PKLOAD: service 0x12, bytes into a public-key buffer. -/
def execPkload (p : SvcPath) (s : State) : Out := .next (serve p 0x12 svcPkload s)

/-- HASH: service 0x13, a SHA-2 digest. -/
def execHash (p : SvcPath) (s : State) : Out := .next (serve p 0x13 svcHash s)

/-- SELFTEST: service 0x14, a self-test. -/
def execSelftest (p : SvcPath) (s : State) : Out := .next (serve p 0x14 svcSelftest s)

/-- SERVICE_BADMSG: a body at port 65 that is no message the SP takes (R569). -/
def execServiceBadmsg (s : State) : Out := .next (badService s)

/-- A job that has its leave and its engine, and no block left, ends with its answer (R569). -/
def jobComplete (id : Nat) (s : State) : State :=
  match jobOf s id with
  | none => s
  | some j =>
    if j.work = 1 then tokenComplete s
    else if j.leave = 1 ∨ (j.engine ≠ 0 ∧ j.ctx.isNone) ∨ j.blocks ≠ 0 then s
    else finishJob j j.status s

/-- SP_JOB_COMPLETE: a job of the SP ends (R569). -/
def execSpJobComplete (id : Nat) (s : State) : Out := .next (jobComplete id s)

/-! ## Engines and random numbers -/

/-- LME_ROW_END: an LME row ends; `issues` is what the SP writes into the contexts it holds (R553, R554, R557). -/
def execLmeRowEnd (issues : List LmeIssue) (s : State) : Out := .next (lmeRowEnd issues s)

/-- SHA_BLOCK_END: a block of SHA-2 engine e ends (R564). -/
def execShaBlockEnd (e : Nat) (s : State) : Out := .next (if e < 2 then shaBlockEnd e s else s)

/-- DRBG_RESEED: the DRBG reseeds, after 65,536 generate requests, or once both tests pass again after a failure (R579, R580). -/
def execDrbgReseed (s : State) : Out :=
  .next (if !s.h.sp.health ∨ 65536 ≤ s.h.sp.gens then bump { s with h.sp.health := true, h.sp.gens := 0 } 0x90018 16 16 1 else s)

/-- ENTROPY_TEST_FAIL: a health test fails (R580). -/
def execEntropyTestFail (s : State) : Out := .next (raise 0x5A 0 { s with h.sp.health := false })

end Sys2Proof.Machine
end

