-- ==== Sys2Proof/Machine/TahrRows.lean ====
section
/-! DEFINITION. Meanings of the events of the Tahr link, of the messages that cross it, and of the field die (chapters 02, 03 and 14). -/

namespace Sys2Proof.Machine

open Sys2Proof

/-- Whether a die has power and is out of reset: the field die, or the host die. -/
def dieOn (s : State) (field : Bool) : Bool :=
  if field then s.f.state != .off && s.f.state != .inReset else hostOn s

/-! ## Frames and training -/

/-- TAHR_FRAME_RX: a frame arrives at the field die or at the host die (R604 to R608); REMOTE answers among its messages take effect at once. -/
def execTahrFrameRx (toField : Bool) (bytes : List Byte) (delimOk : Bool) (s : State) : Out :=
  .next (if !dieOn s toField then s
    else if toField then frameRx true bytes delimOk s
    else takeAnswers (frameRx false bytes delimOk s))

/-- A third transmission stands unacknowledged at an end (R609). -/
def thirdFailed (s : State) : Bool :=
  (endOf s false).unacked.any (fun f => decide (3 ≤ f.sends)) || (endOf s true).unacked.any (fun f => decide (3 ≤ f.sends))

/-- TAHR_RETRAIN: a third transmission is not acknowledged (R609). -/
def execTahrRetrain (s : State) : Out := .next (if thirdFailed s then retrain s else s)

/-- LANE_RETIRE: the receiver of a die retires lane l of its direction (R601). -/
def execLaneRetire (field : Bool) (l : Nat) (s : State) : Out := .next (if dieOn s field then retireLane field l s else s)

/-- TRAINING_COMPLETE: the lanes are deskewed, with one lane at least in each direction (R603); the exchange of offsets starts anew (R621). -/
def execTrainingComplete (s : State) : Out :=
  .next (if ((endOf s false).train || (endOf s true).train) && dieOn s false && dieOn s true &&
      activeLanes (endOf s false) != 0 && activeLanes (endOf s true) != 0 then
      { trained s with h.tahr.syncN := 0, f.synced := false }
    else s)

/-- TRAINING_RETRY: training has failed and starts again; both ends train on (R603). -/
def execTrainingRetry (s : State) : Out :=
  .next (if (endOf s false).train || (endOf s true).train then { s with h.tahr.fe.train := true, f.fe.train := true } else s)

/-- NULL_FRAME_SEND: a direction without a frame for 128 ns sends a null frame (R170). -/
def execNullFrameSend (field : Bool) (s : State) : Out :=
  .next (
    let e := endOf s field
    if dieOn s field && !e.train && decide (e.lastTx + 128 ≤ dieNow s field) then setEnd field { e with lastTx := dieNow s field } s else s)

/-! ## Heartbeats and time -/

/-- HEARTBEAT_SEND: a die sends its heartbeat (R611, Table TAHR-3). -/
def execHeartbeatSend (field : Bool) (s : State) : Out :=
  .next (if dieOn s field && !(endOf s field).train then (sendMsg field 1 0 (dieNow s field) (heartbeat s field) s).1 else s)

/-- HEARTBEAT_RX: a heartbeat that has arrived is handled by a die (R628, R630). -/
def execHeartbeatRx (field : Bool) (s : State) : Out :=
  .next (match takeInbox field (fun m => m.typ == 1) s with
    | none => s
    | some (m, s) => if field then fieldHeartbeat m s else heartbeatAtHost m s)

/-- LINK_DOWN: 1 ms has passed at a die without a heartbeat (R628, R631, R637). -/
def execLinkDown (field : Bool) (s : State) : Out :=
  .next (if decide ((endOf s field).lastHb + 1000000 ≤ dieNow s field) && dieOn s field then
      (if field then fieldLinkDown (endFieldWork s) else if s.h.tahr.link then remoteDown (hostLinkDown s) else s)
    else s)

/-- A TIMESYNC request sent (R620): its number, its departure, and the offset of the exchange before it. -/
def timesyncRequest (s : State) : State :=
  let t := s.h.tahr
  let p := [byte 1, byte t.syncN] ++ List.replicate 6 0 ++ le 8 s.time.now ++ le 8 0 ++ le 8 (ofSigned 64 t.ofs)
  (sendMsg false 2 0 s.time.now p { s with h.tahr.syncT1 := s.time.now }).1

/-- TIMESYNC_REQUEST: the host die starts an exchange (R620). -/
def execTimesyncRequest (s : State) : Out :=
  .next (if dieOn s false && !s.h.tahr.fe.train then timesyncRequest s else s)

/-- A request at the field die, which arrived at a follower stamp (R620, R621): the offset it carries is that of the exchange before it, and the first request after training carries none; the reply goes out. -/
def timesyncAtField (m : XMsg) (arr : Stamp) (s : State) : State :=
  let n := fieldLE m.payload 1 1
  let s := if n = 0 then s else takeOffset (toSigned 64 (fieldLE m.payload 24 8)) s
  let p := [byte 2, byte n] ++ List.replicate 6 0 ++ le 8 (fnow s) ++ le 8 arr ++ le 8 0
  (sendMsg true 2 0 (fnow s) p s).1

/-- The reply to the last request at the host die (R620): the offset is computed and reported. Numbers go from 1 to 255 after the first (log entry 17). -/
def timesyncAtHost (m : XMsg) (arr : Stamp) (s : State) : State :=
  if fieldLE m.payload 1 1 ≠ s.h.tahr.syncN then s
  else
    let o := exchangeOffset s.h.tahr.syncT1 (fieldLE m.payload 16 8) (fieldLE m.payload 8 8) arr
    reportOffset o { s with h.tahr.syncN := s.h.tahr.syncN % 255 + 1 }

/-- TIMESYNC_RX: a TIMESYNC frame whose SOF arrived at the stamp `arr` of the receiving die (R620). -/
def execTimesyncRx (toField : Bool) (arr : Nat) (s : State) : Out :=
  .next (match takeInbox toField (fun m => m.typ == 2 && fieldLE m.payload 0 1 == (if toField then 1 else 2)) s with
    | none => s
    | some (m, s) => if toField then timesyncAtField m arr s else timesyncAtHost m arr s)

/-! ## Remote accesses (R617, R213) -/

/-- An origin by its code (Table SCO-6). -/
def originOf (c : Nat) : Origin :=
  match c with
  | 1 => .hostSpi | 2 => .mp | 3 => .sp | 4 => .debug | 5 => .imageLoad | 6 => .faultReaction | 7 => .repair
  | 8 => .fs | 9 => .updateMsg | 10 => .netMgmt | _ => .device

/-- The entries of a REMOTE request: address and value. -/
def remoteEntries (m : XMsg) : List (Nat × Nat) :=
  (List.range (fieldLE m.payload 1 1)).map (fun i => (fieldLE m.payload (8 + 8 * i) 4, fieldLE m.payload (12 + 8 * i) 4))

/-- A REMOTE read executed on the field die (R213): a read of DEBUG is a peek (R872). -/
def remoteReadExec (m : XMsg) (s : State) : State :=
  let (a, n) := (remoteEntries m).headD (0, 0)
  let addrs := (List.range (min 256 n)).map (fun i => a + 4 * i)
  let rid := fieldLE m.payload 2 2
  if m.origin = 4 then
    remoteReply 4 rid 0 0 (fnow s) (addrs.map (fun x => BitVec.ofNat 32 (peekAt true .debug s x))) s
  else
    let (t, ws) := readWords true (originOf m.origin) addrs s
    remoteReply m.origin rid 0 0 (fnow s) ws t

/-- REMOTE_READ: a REMOTE read request is executed on the field die and answered (R617). -/
def execRemoteRead (s : State) : Out :=
  .next (match takeInbox true (fun m => m.typ == 3 && fieldLE m.payload 0 1 == 1) s with
    | none => s
    | some (m, s) => remoteReadExec m s)

/-- The writes of a request on the field die, each checked on the state the earlier ones leave: the first refusal with its index, or the state after all. -/
def remoteWriteRun (o : Origin) : List (Nat × Nat) → Nat → State → Except (Nat × Nat × Nat) State
  | [], _, s => .ok s
  | (a, v) :: r, i, s =>
    match fieldWriteStatus s o a v with
    | some st => .error (st, i, a)
    | none => remoteWriteRun o r (i + 1) (fieldApply o a v s)

/-- A REMOTE write executed in one tick of the field die, all of it or nothing (R617, R222). The host die keeps the windows of its origins, so the field die leaves them as they are. -/
def remoteWriteExec (m : XMsg) (s : State) : State :=
  let o := originOf m.origin
  let rid := fieldLE m.payload 2 2
  match remoteWriteRun o (remoteEntries m) 0 s with
  | .ok t => remoteReply m.origin rid 0 0 (fnow s) [] { t with f.windows := s.f.windows }
  | .error (st, i, a) => remoteReply m.origin rid st i (fnow s) [] (recordRefusal true o a st s)

/-- REMOTE_WRITE: a REMOTE write request is executed on the field die and answered (R617). -/
def execRemoteWrite (s : State) : Out :=
  .next (match takeInbox true (fun m => m.typ == 3 && fieldLE m.payload 0 1 == 2) s with
    | none => s
    | some (m, s) => remoteWriteExec m s)

/-! ## Image transfer -/

/-- The first IMAGE message of an OP at the field die, handled. -/
def imageMsg (op : Nat) (run : XMsg → State → State) (s : State) : State :=
  match takeInbox true (fun m => m.typ == 6 && fieldLE m.payload 0 1 == op) s with
  | none => s
  | some (m, s) => run m s

/-- FIELD_START: a field start message (R98). -/
def execFieldStart (s : State) : Out := .next (imageMsg 1 fieldStart s)

/-- IMAGE_ENTRY: a section table entry (R124). -/
def execImageEntry (s : State) : Out := .next (imageMsg 2 imageEntry s)

/-- IMAGE_DATA: bytes of a section (R124). -/
def execImageData (s : State) : Out := .next (imageMsg 3 imageData s)

/-- IMAGE_COMMIT: the field sections take effect (R124). -/
def execImageCommit (s : State) : Out := .next (imageMsg 4 (fun _ => imageCommit) s)

/-- IMAGE_ABORT: the transfer is abandoned (R631). -/
def execImageAbort (s : State) : Out := .next (imageMsg 5 (fun _ => imageAbort) s)

/-- IMAGE_RESULT: a result of the field die at the host die (R76, R124). -/
def execImageResult (s : State) : Out :=
  .next (match takeInbox false (fun m => m.typ == 6) s with
    | none => s
    | some (m, s) => imageResult m s)

/-- FIELD_FRUN_ENTRY: the field die enters FRUN (R74, R596). -/
def execFieldFrunEntry (s : State) : Out := .next (frunEntry s)

/-! ## Reports and decisions -/

/-- FIELD_FAULT_REPORT: a FAULT message is handled at its presentation tick (R779). -/
def execFieldFaultReport (s : State) : Out :=
  .next (match takeInbox false (fun m => m.typ == 4 && dueMsg s false m) s with
    | none => s
    | some (m, s) => handleReport m s)

/-- The head of the field collector's queue of reports sent, MININT after the one before (R778). -/
def sendReport (s : State) : State :=
  match s.f.flt.reports with
  | [] => s
  | p :: r =>
    if (s.f.state = .frun ∨ s.f.state = .fhold ∨ s.f.state = .alone) ∧ minintOver s true 4 0 then
      fieldSend 4 0 p { s with f.flt.reports := r }
    else s

/-- FAULT_REPORT_SEND: the field collector commits its next report for sending (R778). -/
def execFaultReportSend (s : State) : Out := .next (sendReport s)

/-- A JOURNAL message handled by the host die (R245, R804, R140): a swap, or a register write of the field die with its writer's level and hold. -/
def journalReport (m : XMsg) (s : State) : State :=
  let b := m.payload
  let stamp := fieldLE b 0 8
  let a := fieldLE b 8 4
  let v := fieldLE b 12 4
  let o := fieldLE b 16 1
  if 0xFFFF0000 ≤ a then
    let duty := a - 0xFFFF0000
    mirrorSwap duty (v % 65536) (jChange stamp 7 [(5, 3, le 2 duty ++ le 2 (v / 65536) ++ le 2 v ++ le 2 0)] s)
  else
    let s := jChange stamp o [(1, fieldLE b 17 1, le 4 a ++ le 4 v)] s
    if fieldLE b 17 1 = 2 ∧ Origin.governed (originOf o) then { s with h.img.holds := KMap.put s.h.img.holds a o } else s

/-- FIELD_JOURNAL_REPORT: a JOURNAL message is journalled at its presentation tick (R245). -/
def execFieldJournalReport (s : State) : Out :=
  .next (match takeInbox false (fun m => m.typ == 9 && dueMsg s false m) s with
    | none => s
    | some (m, s) => journalReport m s)

/-- PERMIT_MESSAGE: a PERMIT message takes effect at its presentation tick (R623). -/
def execPermitMessage (s : State) : Out :=
  .next (match takeInbox true (fun m => m.typ == 5 && dueMsg s true m) s with
    | none => s
    | some (m, s) => setHostGrant (bit (fieldLE m.payload 0 1) 0) s)

/-- MEAS_RECORD_SEND: the head of the record queue is committed for sending (R662). -/
def execMeasRecordSend (s : State) : Out := .next (recordSend s)

/-- HOLD_LINE_ASSERT: 400 ns without an edge of the wave (R622). -/
def execHoldLineAssert (s : State) : Out := .next (if dieOn s true then setHoldSeen true s else s)

/-- HOLD_LINE_DEASSERT: 1 µs of unbroken wave, which the host die sends while it de-asserts the line (R622). -/
def execHoldLineDeassert (s : State) : Out := .next (if dieOn s true && !s.sys.holdLine then setHoldSeen false s else s)

/-- PERMIT_GRANT_START: a rising instant of PERMIT_A, a multiple of 10,000 of the follower (R624). -/
def execPermitGrantStart (s : State) : Out := .next (if fnow s % 10000 < 8 then permitStart s else s)

/-- PERMIT_READBACK_MISMATCH: a pin reads back a wrong level (R625). -/
def execPermitReadbackMismatch (s : State) : Out := .next (if dieOn s true then readbackMismatch s else s)

/-- WATCHDOG_EXPIRY: the watchdog's interval has passed (R597). -/
def execWatchdogExpiry (s : State) : Out := .next (wdExpire s)

end Sys2Proof.Machine
end

