-- ==== Sys2Proof/Machine/MeasRows.lean ====
section
/-! DEFINITION. Meanings of the events of the measurement clusters and of the touch channels (chapter 15). -/

namespace Sys2Proof.Machine

open Sys2Proof

/-- FILTER_OUTPUT: a channel of the host's or the field's cluster completes an output from the converter codes `samples`, and those of its pair (R656). -/
def execFilterOutput (host : Bool) (ch : Nat) (samples : List Int) (pairSamples : List Int) (s : State) : Out :=
  .next (filterOutput host ch samples pairSamples s)

/-- WINDOW_CLOSE: a channel's window of WIN outputs closes (R661). -/
def execWindowClose (host : Bool) (ch : Nat) (s : State) : Out := .next (windowClose host ch s)

/-- MEAS_SPARE_CALIBRATED: calibration of the spare converter ends, with ERR 2 where it failed (R667). -/
def execMeasSpareCalibrated (ok : Bool) (s : State) : Out := .next (spareCalibrated ok s)

/-- CONVERTER_SWAP: the calibrated spare connects to its duty (R667). -/
def execConverterSwap (s : State) : Out := .next (converterSwap s)

/-- MEAS_CALIBRATION_DONE: the freed converter's calibration ends (R667, R668). -/
def execMeasCalibrationDone (ok : Bool) (s : State) : Out := .next (calibrationDone ok s)

/-- HSNS_CALIBRATION_END: the host sense calibration ends (R670). -/
def execHsnsCalibrationEnd (ok : Bool) (s : State) : Out := .next (hsnsResume ok s)

/-- TOUCH_READING: touch channel t takes the reading its host sense channel has made (R672). -/
def execTouchReading (t : Nat) (s : State) : Out := .next (touchReading t s)

/-- TOUCH_STUCK: touch channel t takes the reading that makes it STUCK, HOLDS seconds after the press (R672). -/
def execTouchStuck (t : Nat) (s : State) : Out := .next (if touchStuckDue s t then touchReading t s else s)

/-- TOUCH_WAKE_SCAN: a scan of touch channel t in STANDBY reads r at a stamp (R673). -/
def execTouchWakeScan (t : Nat) (r : Int) (stamp : Nat) (s : State) : Out := .next (touchScan t r stamp s)

end Sys2Proof.Machine
end

