-- ==== Sys2Proof/Machine/AudioRows.lean ====
section
/-! DEFINITION. Meanings of the events of the audio subsystem (chapters 16 and 17). -/

namespace Sys2Proof.Machine

open Sys2Proof

/-! ## Ports and endpoints -/

/-- TDM_FRAME: the last bit clock of a frame of TDM port n passes; `slots` holds the words DIN carried (R697). -/
def execTdmFrame (n : Nat) (slots : List Word) (s : State) : Out := .next (if n < 4 then tdmFrame n slots s else s)

/-- An FS active edge of a slave port, and the transmit words of the frame it begins (R691, R692, R697). -/
def slaveEdge (n : Nat) (stamp : Stamp) (clocks : Nat) (s : State) : State :=
  let s := tdmEdge n stamp clocks s
  let p := portOf s n
  if p.run && !portMaster s n then tdmLatch n (if p.lock then outboundFrame n p.frame s else s) else s

/-- TDM_FS_EDGE: an FS active edge of slave port n with its stamp, `clocks` bit clocks after the one before (R691). -/
def execTdmFsEdge (n : Nat) (stamp : Nat) (clocks : Nat) (s : State) : Out := .next (if n < 4 then slaveEdge n stamp clocks s else s)

/-- A transmitter at a lattice frame, its words from an outbound converter computed before it (R700, R732). -/
def transmitFrame (x : Nat) (s : State) : State :=
  let p := portOf s (4 + x)
  if p.run && decide (tickOf (frameAt s (4 + x) p.frame) ≤ curTick s) then bptFrame x (outboundFrame (4 + x) p.frame s) else s

/-- BPT_FRAME: transmitter x reaches a lattice frame (R700). -/
def execBptFrame (x : Nat) (s : State) : Out := .next (if x < 2 then transmitFrame x s else s)

/-- BPR_FRAME_RX: receiver r takes a frame that began at a stamp, with a B preamble or not, with a preamble or code error or not, and its two subframes (R702). -/
def execBprFrameRx (r : Nat) (stamp : Nat) (pre : Bool) (bad : Bool) (subA : Nat) (subB : Nat) (s : State) : Out :=
  .next (if r < 2 then bprFrame r stamp pre bad subA subB s else s)

/-- BPR_BLOCK_END: receiver r completes a block (R703). -/
def execBprBlockEnd (r : Nat) (s : State) : Out := .next (if r < 2 then bprBlockEnd r s else s)

/-- AAF_TALKER_PDU: talker e emits a PDU once its samples are gathered (R709). -/
def execAafTalkerPdu (e : Nat) (s : State) : Out := .next (if e < 8 then talkerPdu e s else s)

/-- AAF_LISTENER_TAKE: listener e takes the PDU at the head of its port's queue (R711). -/
def execAafListenerTake (e : Nat) (s : State) : Out := .next (if e < 8 then listenerTake e s else s)

/-- AAF_UNDERRUN: two periods without a sample frame at listener e (R713). -/
def execAafUnderrun (e : Nat) (s : State) : Out := .next (if e < 8 then listenerUnder e s else s)

/-! ## Output nodes: 0 the speaker bridge, 1 and 2 the line DACs (Table AUDA-4) -/

/-- OUTPUT_PRECHARGE_END (R738). -/
def execOutputPrechargeEnd (n : Nat) (s : State) : Out := .next (if n < 3 then outPrecharged n s else s)

/-- OUTPUT_RAMPDOWN_END (R738). -/
def execOutputRampdownEnd (n : Nat) (s : State) : Out := .next (if n < 3 then outRamped n s else s)

/-- OUTPUT_DISCHARGE_END (R738). -/
def execOutputDischargeEnd (n : Nat) (s : State) : Out := .next (if n < 3 then outDischarged n s else s)

/-- OUTPUT_FAULT: a short, overcurrent or over-temperature of node n, or VSPK below its limit (R738). -/
def execOutputFault (n : Nat) (vspk : Bool) (s : State) : Out := .next (if n < 3 then outFault n vspk s else s)

/-- FAULT_CAUSE_CLEARED: what held node n in FAULT has cleared, or VSPK is back (R738). -/
def execFaultCauseCleared (n : Nat) (vspk : Bool) (s : State) : Out := .next (if n < 3 then causeCleared n vspk s else s)

/-- LIMITER_BLOCK: the end of a 48-sample block of the speaker limiter (R739). -/
def execLimiterBlock (s : State) : Out := .next (limiterBlock s)

/-! ## Inputs, detection, analysers, calibration -/

/-- INPUT_SETTLE_END: 6 ms after the enable of an input (R737). -/
def execInputSettleEnd (key : Nat) (s : State) : Out := .next (inputSettled key s)

/-- DETECT_COMPLETE: a load measurement ends with its class, and for the speaker with its resistance (R741). -/
def execDetectComplete (n : Nat) (cls : Nat) (r : Nat) (s : State) : Out := .next (detectDone n cls r s)

/-- MIC_BIAS_SAMPLE: the bias current of microphone n is sampled and classed (R742). -/
def execMicBiasSample (n : Nat) (cls : Nat) (s : State) : Out := .next (micSample n cls s)

/-- BAND_WINDOW_CLOSE: the window of analyser a closes (R745). -/
def execBandWindowClose (a : Nat) (s : State) : Out := .next (bandClose a s)

/-- AUDIO_CAL_HOLD_END: a forced request has held 2,400 samples (R746). -/
def execAudioCalHoldEnd (s : State) : Out := .next (calHeld s)

/-- AUDIO_CALIBRATION_DONE: an offset calibration ends (R747). -/
def execAudioCalibrationDone (s : State) : Out := .next (audCalDone s)

end Sys2Proof.Machine
end

