-- ==== Sys2Proof/Machine/RepairRows.lean ====
section
/-! DEFINITION. Meanings of the events of redundancy, repair and the shed cycle, and of the power-budget arbiters (chapters 19 and 20). -/

namespace Sys2Proof.Machine

open Sys2Proof

/-! ## Islands and SRAM -/

/-- ISLAND_CHECK_FAIL: a transfer or state check of the island of a code fails; `again` tells that a replay of its duty had not caught up (R797). -/
def execIslandCheckFail (code : Nat) (again : Bool) (s : State) : Out := .next (islandCheck code again s)

/-- SRAM_CORRECTED: ECC corrects a word in a row of an array of a die (R811). -/
def execSramCorrected (field : Bool) (arr : Nat) (row : Nat) (s : State) : Out := .next (sramCorrected field arr (row % 512) s)

/-- SRAM_ROW_REPLACE: a row is replaced by a spare row (R812). -/
def execSramRowReplace (field : Bool) (s : State) : Out := .next (sramReplace field s)

/-- SRAM_UNCORRECTABLE: an uncorrectable word of a die raises its source, and the island that consumed it, if one did, fails its check (R813). -/
def execSramUncorrectable (field : Bool) (consumer : Option Nat) (s : State) : Out :=
  .next (
    let s := raise (if field then 0x124 else 0xA3) 0 s
    match consumer with
    | some code => islandCheck code false s
    | none => s)

/-! ## The shed cycle and returns -/

/-- SHED_VISIT_START: INTERVAL ms after the last visit of a die, a visit starts (R814). -/
def execShedVisitStart (field : Bool) (s : State) : Out := .next (visitStart field s)

/-- SHED_SHADOW_END: a shadow ends without mismatch (R815, R821). -/
def execShedShadowEnd (field : Bool) (s : State) : Out := .next (shadowEnd field s)

/-- SHED_HANDOVER: a handover point, and the spare takes the duty (R815). -/
def execShedHandover (field : Bool) (s : State) : Out := .next (visitHandover field s)

/-- SHED_SELFTEST_DONE: the self-test of the freed or returning island ends (R815, R816, R821). -/
def execShedSelftestDone (field : Bool) (pass : Bool) (s : State) : Out := .next (selftestDone field pass s)

/-- SHED_HANDBACK: a handover point, and the tested island takes its duty back (R815). -/
def execShedHandback (field : Bool) (s : State) : Out := .next (visitHandback field s)

/-- SHED_HANDOVER_TIMEOUT: no handover point within WAITMS (R817). -/
def execShedHandoverTimeout (field : Bool) (s : State) : Out := .next (visitDefer field s)

/-- RETURN_COMPLETE: a returning island takes its duty or stands in reserve (R821, R823). -/
def execReturnComplete (field : Bool) (s : State) : Out := .next (returnComplete field s)

/-! ## The budget arbiters -/

/-- The job of an LME context. -/
def leaveJob (s : State) (ctx : Nat) : Option SpJob := s.h.sp.jobs.find? (fun j => j.leave == 1 && j.engine == 1 && j.ctx == some ctx)

/-- What a grant of the host arbiter lets start (Table PWR-5). -/
def hostGranted (b : Bud) (s : State) : State :=
  match b.kind with
  | 1 => (match leaveJob s b.inst with | some j => setJob { j with leave := 2 } s | none => s)
  | 2 => visitGranted false b.inst s
  | 3 => { s with h.fab.ofull := true }
  | 4 => { s with h.fab.xfull := true }
  | 5 => spkGranted s
  | 6 =>
    if b.inst = 0 then
      (match s.h.meas.cal with | some c => { s with h.meas.cal := some { c with step := max 1 s.time.now } } | none => s)
    else audCalGranted s
  | _ => s

/-- What a grant of the field arbiter lets start (Table PWR-7). -/
def fieldGranted (b : Bud) (s : State) : State :=
  match b.kind with
  | 1 => visitGranted true b.inst s
  | 2 => calStep 2 s
  | _ => s

/-- The arbiter of a die runs: the host die's once BUILD has committed, the field die's in FRUN, ALONE and FHOLD (R127, R847). -/
def arbiterOn (s : State) (field : Bool) : Bool :=
  if field then s.f.state == .frun || s.f.state == .alone || s.f.state == .fhold
  else s.sys.mode.live || (s.sys.mode == .build && s.h.img.committed)

/-- BUDGET_GRANT: the first waiting request of a die fits under LIMIT and is granted (R845). -/
def execBudgetGrant (field : Bool) (s : State) : Out :=
  .next (if !arbiterOn s field then s else
    match budGrantOne field s with
    | none => s
    | some (b, s) => if field then fieldGranted b s else hostGranted b s)

/-- The outcome of a host request's timeout (Table PWR-6). -/
def hostTimedOut (b : Bud) (s : State) : State :=
  match b.kind with
  | 1 => (match leaveJob s b.inst with
    | some j => if j.work = 1 then tokenAbort 10 s else finishJob j 0x2B s
    | none => s)
  | 2 => visitRefused false b.inst s
  | 3 => if bit (reg s 0x10C000) 0 then askLeave false 3 0 s.time.now s else s
  | 4 => if bit (reg s 0x10C000) 1 then askLeave false 4 0 s.time.now s else s
  | 5 => spkRefused s
  | 6 => if b.inst = 0 then hsnsCalEnd 1 0 s else audCalEnd 3 s
  | 7 => if b.inst = 0 then askLeave false 7 0 s.time.now s else rootRefused s
  | _ => s

/-- The outcome of a field request's timeout (Table PWR-6, R668). -/
def fieldTimedOut (b : Bud) (s : State) : State :=
  match b.kind with
  | 1 => visitRefused true b.inst s
  | 2 => calEnd 1 0 s
  | _ => s

/-- BUDGET_TIMEOUT: a waiting request of a die is past its TIMEOUT and is refused (R845, R846). -/
def execBudgetTimeout (field : Bool) (s : State) : Out :=
  .next (if !arbiterOn s field then s else
    match budTimeoutOne field s with
    | none => s
    | some (b, s) => if field then fieldTimedOut b s else hostTimedOut b s)

end Sys2Proof.Machine
end

