-- ==== Sys2Proof/Machine/DebugRows.lean ====
section
/-! DEFINITION. Meanings of the debug commands: the TAP, tokens and sessions, run control, abstract commands and System Bus Access (chapter 21). PRESUMED, log entry 11: the places of the fields of a Debug Module's registers are those of the RISC-V External Debug specification. -/

namespace Sys2Proof.Machine

open Sys2Proof

/-! ## The TAP (R859 to R864) -/

/-- TAP_EXTEST: EXTEST loaded, with the boundary scan register's contents (R860). -/
def execTapExtest (pins : List Byte) (s : State) : Out := .next (tapExtest pins s)

/-- EXTEST_EXIT: the instruction register leaves EXTEST for another instruction (R860). -/
def execExtestExit (ir : Nat) (s : State) : Out := .next (if ir % 32 = 0 then s else tapLeave ir s)

/-- TAP_IDCODE: the 32 bits of IDCODE (Table DBG-1). -/
def execTapIdcode (s : State) : Out := .next (tapLoad 0x01 0x18256567 s)

/-- TAP_SAMPLE_PRELOAD: the boundary scan register captures the pins and is loaded (R859, R860). -/
def execTapSamplePreload (captured : List Byte) (loaded : List Byte) (s : State) : Out :=
  .next (let s := tapLoad 0x02 (leNat captured) s; { s with h.dbg.bsr := loaded })

/-- TAP_DTMCS: dtmcs (Table DBG-1). -/
def execTapDtmcs (s : State) : Out := .next (tapLoad 0x10 (dtmcs s) s)

/-- The words of a program buffer. -/
def progOf (s : State) (fs : Bool) : List Word := if fs then s.h.dbg.progFs else s.h.dbg.progMp

/-- What a plain DMI read of a module's register returns: data0, nextdm, the program buffer, abstractcs.cmderr, sbcs.sberror and sbdata0; none for another register. -/
def dmiRead (s : State) (fs : Bool) (off : Nat) : Option Nat :=
  if off = 0x04 then some (if fs then s.h.dbg.datFs else s.h.dbg.datMp)
  else if off = 0x1D then some (if fs then 0 else 0x100)
  else if 0x20 ≤ off ∧ off < 0x28 then some (nth (progOf s fs) (off - 0x20) 0).toNat
  else if off = 0x16 then some (pack [(0, 4, 1), (8, 3, if fs then s.h.dbg.cmdFs else s.h.dbg.cmdMp), (24, 5, 8)])
  else if off = 0x38 then some (pack [(2, 1, 1), (5, 7, 32), (12, 3, if fs then s.h.dbg.sbFs else s.h.dbg.sbMp), (29, 3, 1)])
  else if off = 0x3C then some (if fs then s.h.dbg.sbdFs else s.h.dbg.sbdMp)
  else none

/-- A plain DMI write: data0, the program buffer, and the error fields that a write of ones clears; requests of run control and accesses have commands of their own. -/
def dmiWrite (fs : Bool) (off data : Nat) (s : State) : State :=
  if off = 0x04 then (if fs then { s with h.dbg.datFs := data } else { s with h.dbg.datMp := data })
  else if 0x20 ≤ off ∧ off < 0x28 then
    let p := setNth (progOf s fs) (off - 0x20) (BitVec.ofNat 32 data)
    if fs then { s with h.dbg.progFs := p } else { s with h.dbg.progMp := p }
  else if off = 0x16 then setCmderr fs (Nat.land (if fs then s.h.dbg.cmdFs else s.h.dbg.cmdMp) (7 - bits data 8 3)) s
  else if off = 0x38 then setSberror fs (Nat.land (if fs then s.h.dbg.sbFs else s.h.dbg.sbMp) (7 - bits data 12 3)) s
  else s

/-- The DMI register as an operation leaves it: address, data and the op code of the answer. -/
def dmiAnswer (addr data op : Nat) : Nat := addr % 512 * 2 ^ 34 + data % 2 ^ 32 * 4 + op

/-- A DMI operation (R859, R861, R868): busy while the host die is in STANDBY, BUILD or a reset, failed outside a session. -/
def dmiRun (addr op data : Nat) (s : State) : State :=
  let fs := bit addr 8
  let off := addr % 128
  if dbgBusy s then tapLoad 0x11 (dmiAnswer addr data 3) s
  else if !s.h.dbg.open_ then tapLoad 0x11 (dmiAnswer addr data 2) s
  else if op = 1 then
    match dmiRead s fs off with
    | some v => tapLoad 0x11 (dmiAnswer addr v 0) s
    | none => let (s, v) := takeFree s; tapLoad 0x11 (dmiAnswer addr v 0) s
  else if op = 2 then tapLoad 0x11 (dmiAnswer addr data 0) (dmiWrite fs off data s)
  else tapLoad 0x11 (dmiAnswer addr data 0) s

/-- TAP_DMI: a DMI operation, op 1 a read, 2 a write (R859). -/
def execTapDmi (addr : Nat) (op : Nat) (data : Nat) (s : State) : Out := .next (dmiRun addr op data s)

/-- TAP_DBGCHAL: the challenge, state and last result (Table DBG-1). -/
def execTapDbgchal (s : State) : Out := .next (tapLoad 0x12 (dbgChal s) s)

/-- TAP_DBGTOKEN: an Update-DR of DBGTOKEN (R864). -/
def execTapDbgtoken (token : List Byte) (s : State) : Out := .next (tokenUpdate token (tapLoad 0x13 0 s))

/-- TAP_BYPASS: BYPASS, or any code that Table DBG-1 does not list (R859). -/
def execTapBypass (code : Nat) (s : State) : Out :=
  .next (tapLoad (if [0x00, 0x01, 0x02, 0x10, 0x11, 0x12, 0x13].contains (code % 32) then 0x1F else code % 32) 0 s)

/-! ## Sessions (R864 to R866) -/

/-- TOKEN_CHECK_COMPLETE: a token check ends (R864). -/
def execTokenCheckComplete (s : State) : Out := .next (tokenComplete s)

/-- TOKEN_BLOCK_END: 100 ms after a failed check (R865). -/
def execTokenBlockEnd (s : State) : Out := .next (blockEnds s)

/-- SESSION_EXPIRY: LIFE seconds have passed (R866). -/
def execSessionExpiry (s : State) : Out := .next (sessionExpire s)

/-- Whether a debug write of this tick may go on: a session is open and does not end in it (R880). -/
def sessionOpen (s : State) : Bool := s.h.dbg.open_ && decide (tickOf s.time.now < tickOf s.h.dbg.until_)

/-- A debug write that the session does not allow (R874, R880). -/
def debugDenied (a : Nat) (s : State) : State := recordRefusal false .debug a 0x08 s

/-- DBG_CTL_END: a write of 1 to DBG.CTL.END by DEBUG ends the session (R866). -/
def execDbgCtlEnd (s : State) : Out :=
  .next (if sessionOpen s then (busWrite .debug 0xF00004 1 s).1 else debugDenied 0xF00004 s)

/-! ## Run control (R867 to R869, R876, R877) -/

/-- A command of a Debug Module reaches it in a session only, and not while the module is busy (R859, R861). -/
def inSession (run : State → State) (s : State) : State := if dbgBusy s || !s.h.dbg.open_ then s else run s

/-- DM_HALT: a halt request for the MP, or for the FS (R869). -/
def execDmHalt (fs : Bool) (s : State) : Out := .next (inSession (dmHalt fs) s)

/-- DM_RESUME: a resume request (R868). -/
def execDmResume (fs : Bool) (s : State) : Out := .next (inSession (dmResume fs) s)

/-- DM_NDMRESET: ndmreset (R869). -/
def execDmNdmreset (fs : Bool) (s : State) : Out := .next (inSession (dmNdmreset fs) s)

/-- DM_SINGLE_STEP: a single step (R877). -/
def execDmSingleStep (fs : Bool) (s : State) : Out := .next (inSession (dmStep fs) s)

/-! ## Debug accesses (R870 to R875) -/

/-- The value of a debug read (R872): a peek, or a free value at an address of no register, where the memories of the processors lie (log entry 2). -/
def debugLoad (fs : Bool) (a : Nat) (s : State) : State × Nat :=
  if (regAt a).isSome && (!fs || fsReaches a) then (s, peekAt fs .debug s a) else takeFree s

/-- A store of a halted FS core (R871, R874): checked on the field die with the level of DEBUG, and recorded in its bank of FSUP.WREFUSE where it is refused. -/
def fsDebugStore (a v : Nat) (s : State) : State :=
  match regAt a with
  | none => recordRefusal true .debug a 0x05 s
  | some d =>
    if !fsReaches a then recordRefusal true .debug a 0x05 s
    else match fieldModeStatus s .debug d with
    | some st => recordRefusal true .debug a st s
    | none =>
      if deniedWrite s true .debug d a v then recordRefusal true .debug a 0x08 s
      else if heldWrite s true .debug a then recordRefusal true .debug a 0x09 s
      else match fieldWriteStatus s .debug a v with
      | some st => recordRefusal true .debug a st s
      | none => if lockedWrite s .debug d a then recordRefusal true .debug a 0x0D s else fieldApply .debug a v s

/-- One access of a halted core: a load into data0, or a store. A store into the processor's own memories is no register write. -/
def debugAccess (fs : Bool) (s : State) (op : Nat × Option Nat) : State :=
  match op.2 with
  | none =>
    let (s, v) := debugLoad fs op.1 s
    if fs then { s with h.dbg.datFs := v } else { s with h.dbg.datMp := v }
  | some v =>
    if !sessionOpen s then debugDenied op.1 s
    else if fs then fsDebugStore op.1 (v % 2 ^ 32) s
    else (busWrite .debug op.1 (BitVec.ofNat 32 v) s).1

/-- An abstract command or a run of the program buffer (R869, R871): on a hart that is not halted it answers cmderr 4. -/
def abstractRun (fs : Bool) (ops : List (Nat × Option Nat)) (s : State) : State :=
  if (if fs then s.h.dbg.cmdFs else s.h.dbg.cmdMp) ≠ 0 then s
  else if !runGrant s fs || !halted s fs then setCmderr fs 4 s
  else ops.foldl (debugAccess fs) s

/-- DM_ABSTRACT_COMMAND: the loads (an address) and stores (an address and a value) that an abstract command or the program buffer executes on a halted core (R871). -/
def execDmAbstractCommand (fs : Bool) (ops : List (Nat × Option Nat)) (s : State) : Out := .next (inSession (abstractRun fs ops) s)

/-- A System Bus Access read (R870, R872): of the host address space at once, of the field blocks and the FS address space as a REMOTE message. An address of no register reads a bad address, sberror 2. -/
def sbaRead (fs : Bool) (a : Nat) (s : State) : State :=
  if !bit s.h.dbg.grant 2 then setSberror fs 7 s
  else if (regAt a).isNone ∨ (fs ∧ !fsReaches a) then setSberror fs 2 s
  else if fs ∨ isRemote a then
    (if !s.h.tahr.link then setSberror fs 7 s
     else if remoteBusy s .debug then s
     else remoteSend .debug 1 [(a, 1)] (b2n fs) s)
  else { s with h.dbg.sbdMp := peekAt false .debug s a }

/-- SBA_READ: a System Bus Access read of the MP module, or of the FS module (R872). -/
def execSbaRead (fs : Bool) (a : Nat) (s : State) : Out := .next (inSession (sbaRead fs a) s)

/-- The host die's checks of a write of the FS module (R617, R874). -/
def sbaFsStatus (s : State) (a v : Nat) : Option Nat :=
  match regAt a with
  | none => some 0x05
  | some d =>
    if !fsReaches a then some 0x05
    else match hostModeStatus s .debug with
    | some st => some st
    | none =>
      if deniedWrite s true .debug d a v then some 0x08
      else if heldWrite s (decide (a < 0x800000)) .debug a then some 0x09
      else if lockedWrite s .debug d a then some 0x0D
      else none

/-- A System Bus Access write (R870, R874, R880): refused without its grants, checked as a write of origin DEBUG, and with sberror 7 where it is refused. -/
def sbaWrite (fs : Bool) (a v : Nat) (s : State) : State :=
  if !sessionOpen s ∨ !bit s.h.dbg.grant 3 ∨ !runGrant s fs then setSberror fs 7 (debugDenied a s)
  else if fs then
    match sbaFsStatus s a v with
    | some st => setSberror true 7 (recordRefusal false .debug a st s)
    | none =>
      if !s.h.tahr.link then setSberror true 7 s
      else if remoteBusy s .debug then s
      else remoteSend .debug 2 [(a, v)] 1 (windowAfter s .debug a v s)
  else
    let (s, st) := busWrite .debug a (BitVec.ofNat 32 v) s
    if st = 0 ∨ st = 0x0F then s else setSberror false 7 s

/-- SBA_WRITE: a System Bus Access write of the MP module, or of the FS module (R874). -/
def execSbaWrite (fs : Bool) (a : Nat) (v : Word) (s : State) : Out := .next (inSession (sbaWrite fs a v.toNat) s)

end Sys2Proof.Machine
end

