-- ==== Sys2Proof/Machine/Dispatch.lean ====
section
/-! DEFINITION. The dispatch: one arm per command, each a direct call of the command's meaning. -/

namespace Sys2Proof.Machine

open Sys2Proof

/-- What a command does to everything but the queue of waiting commands. -/
def exec (i : Instr) (s : State) : Host.Outcome State Fault Refusal :=
  match i with
  | .powerOnReset vio18 => Sys2Proof.Machine.execPowerOnReset vio18 s
  | .pinReset => Sys2Proof.Machine.execPinReset s
  | .reset t => Sys2Proof.Machine.execReset t s
  | .supplyMonitorReset => Sys2Proof.Machine.execSupplyMonitorReset s
  | .clockMonitorReset => Sys2Proof.Machine.execClockMonitorReset s
  | .temperatureMonitorReset => Sys2Proof.Machine.execTemperatureMonitorReset s
  | .resetEnd => Sys2Proof.Machine.execResetEnd s
  | .vsupHLoss => Sys2Proof.Machine.execVsupHLoss s
  | .keeperLoss => Sys2Proof.Machine.execKeeperLoss s
  | .fieldPowerOn => Sys2Proof.Machine.execFieldPowerOn s
  | .fieldMonitorReset => Sys2Proof.Machine.execFieldMonitorReset s
  | .fieldSupplyLoss => Sys2Proof.Machine.execFieldSupplyLoss s
  | .buildStart => Sys2Proof.Machine.execBuildStart s
  | .buildSlotFail => Sys2Proof.Machine.execBuildSlotFail s
  | .buildTimeout => Sys2Proof.Machine.execBuildTimeout s
  | .buildCommit => Sys2Proof.Machine.execBuildCommit s
  | .runEntry => Sys2Proof.Machine.execRunEntry s
  | .otpFuseProgrammed root => Sys2Proof.Machine.execOtpFuseProgrammed root s
  | .sysCtrlSleep o => Sys2Proof.Machine.execSysCtrlSleep o s
  | .sleep t => Sys2Proof.Machine.execSleep t s
  | .standbyDrainEnd => Sys2Proof.Machine.execStandbyDrainEnd s
  | .wakeEvent src stamp => Sys2Proof.Machine.execWakeEvent src stamp s
  | .wakeDecision => Sys2Proof.Machine.execWakeDecision s
  | .wakeOutPulseEnd => Sys2Proof.Machine.execWakeOutPulseEnd s
  | .resume t => Sys2Proof.Machine.execResume t s
  | .sysDegcauseClear o => Sys2Proof.Machine.execSysDegcauseClear o s
  | .tickCommit codes => Sys2Proof.Machine.execTickCommit codes s
  | .timRateWrite o v => Sys2Proof.Machine.execTimRateWrite o v s
  | .timPtpofslWrite o v => Sys2Proof.Machine.execTimPtpofslWrite o v s
  | .timPtpofshWrite o v => Sys2Proof.Machine.execTimPtpofshWrite o v s
  | .timNowlRead o => Sys2Proof.Machine.execTimNowlRead o s
  | .nop t => Sys2Proof.Machine.execNop t s
  | .write t => Sys2Proof.Machine.execWrite t s
  | .writel t => Sys2Proof.Machine.execWritel t s
  | .read t => Sys2Proof.Machine.execRead t s
  | .fetch t => Sys2Proof.Machine.execFetch t s
  | .send t => Sys2Proof.Machine.execSend t s
  | .recv t => Sys2Proof.Machine.execRecv t s
  | .badop op t => Sys2Proof.Machine.execBadop op t s
  | .deferredComplete => Sys2Proof.Machine.execDeferredComplete s
  | .sysUnlockWrite o v => Sys2Proof.Machine.execSysUnlockWrite o v s
  | .unlockWindowExpire o field => Sys2Proof.Machine.execUnlockWindowExpire o field s
  | .registerWrite o a v => Sys2Proof.Machine.execRegisterWrite o a v s
  | .flashReadPage o => Sys2Proof.Machine.execFlashReadPage o s
  | .flashProgramPage o => Sys2Proof.Machine.execFlashProgramPage o s
  | .flashErase4k o => Sys2Proof.Machine.execFlashErase4k o s
  | .flashErase64k o => Sys2Proof.Machine.execFlashErase64k o s
  | .flashOpComplete ok => Sys2Proof.Machine.execFlashOpComplete ok s
  | .imgRelease o v => Sys2Proof.Machine.execImgRelease o v s
  | .imgReleaserec o v => Sys2Proof.Machine.execImgReleaserec o v s
  | .journalDrain => Sys2Proof.Machine.execJournalDrain s
  | .journalAck => Sys2Proof.Machine.execJournalAck s
  | .journalRewind => Sys2Proof.Machine.execJournalRewind s
  | .gatewayClassify p => Sys2Proof.Machine.execGatewayClassify p s
  | .headRelease e => Sys2Proof.Machine.execHeadRelease e s
  | .expressMatch => Sys2Proof.Machine.execExpressMatch s
  | .egressSchedule e => Sys2Proof.Machine.execEgressSchedule e s
  | .planectlWrite o v => Sys2Proof.Machine.execPlanectlWrite o v s
  | .modelDeparture e => Sys2Proof.Machine.execModelDeparture e s
  | .holdLimitPurge e => Sys2Proof.Machine.execHoldLimitPurge e s
  | .ledgerDivergence e => Sys2Proof.Machine.execLedgerDivergence e s
  | .bufferPressure => Sys2Proof.Machine.execBufferPressure s
  | .bufferPressureEnd => Sys2Proof.Machine.execBufferPressureEnd s
  | .gateIntervalEnd e => Sys2Proof.Machine.execGateIntervalEnd e s
  | .fabGbaselWrite o e v => Sys2Proof.Machine.execFabGbaselWrite o e v s
  | .fabGbasehWrite o e v => Sys2Proof.Machine.execFabGbasehWrite o e v s
  | .virtualPortConsume v => Sys2Proof.Machine.execVirtualPortConsume v s
  | .containerPeriodicEmit v => Sys2Proof.Machine.execContainerPeriodicEmit v s
  | .acfTimedEmit t => Sys2Proof.Machine.execAcfTimedEmit t s
  | .ltWrite o => Sys2Proof.Machine.execLtWrite o s
  | .ltDelete o => Sys2Proof.Machine.execLtDelete o s
  | .ltStage o => Sys2Proof.Machine.execLtStage o s
  | .ltStagedel o => Sys2Proof.Machine.execLtStagedel o s
  | .ltCommit o => Sys2Proof.Machine.execLtCommit o s
  | .ltDiscard o => Sys2Proof.Machine.execLtDiscard o s
  | .ltRead o => Sys2Proof.Machine.execLtRead o s
  | .canCtlInitWrite o n v => Sys2Proof.Machine.execCanCtlInitWrite o n v s
  | .canBusIntegrate n => Sys2Proof.Machine.execCanBusIntegrate n s
  | .canRecover o n => Sys2Proof.Machine.execCanRecover o n s
  | .busOffRecoveryEnd n => Sys2Proof.Machine.execBusOffRecoveryEnd n s
  | .canTxAttempt n measured => Sys2Proof.Machine.execCanTxAttempt n measured s
  | .canTxComplete n => Sys2Proof.Machine.execCanTxComplete n s
  | .canTxAttemptFail n code dataPhase noDominant stuffArb more => Sys2Proof.Machine.execCanTxAttemptFail n code dataPhase noDominant stuffArb more s
  | .canTxabort o n v => Sys2Proof.Machine.execCanTxabort o n v s
  | .canTransmitStall n => Sys2Proof.Machine.execCanTransmitStall n s
  | .canRxFrame n stamp body => Sys2Proof.Machine.execCanRxFrame n stamp body s
  | .fcanStatusReport => Sys2Proof.Machine.execFcanStatusReport s
  | .listenerWakeFrame l stamp ide ident dlc data => Sys2Proof.Machine.execListenerWakeFrame l stamp ide ident dlc data s
  | .listenerFrameError l => Sys2Proof.Machine.execListenerFrameError l s
  | .listenerFecOverflow l stamp => Sys2Proof.Machine.execListenerFecOverflow l stamp s
  | .linSlotStart c => Sys2Proof.Machine.execLinSlotStart c s
  | .linHeaderRx c pid sleep => Sys2Proof.Machine.execLinHeaderRx c pid sleep s
  | .linResponseRx c stamp pid cksum data bitErr => Sys2Proof.Machine.execLinResponseRx c stamp pid cksum data bitErr s
  | .linNoResponse c => Sys2Proof.Machine.execLinNoResponse c s
  | .linSchedWrite o c v => Sys2Proof.Machine.execLinSchedWrite o c v s
  | .linSleep o c => Sys2Proof.Machine.execLinSleep o c s
  | .linWake o c => Sys2Proof.Machine.execLinWake o c s
  | .linWakePulse c => Sys2Proof.Machine.execLinWakePulse c s
  | .linIdleSleep c => Sys2Proof.Machine.execLinIdleSleep c s
  | .linScheduleResume c => Sys2Proof.Machine.execLinScheduleResume c s
  | .linBusFault c => Sys2Proof.Machine.execLinBusFault c s
  | .linBusFaultEnd c => Sys2Proof.Machine.execLinBusFaultEnd c s
  | .ethRxFrame p stamp frame fcsOk => Sys2Proof.Machine.execEthRxFrame p stamp frame fcsOk s
  | .ethLinkChange p up sqi anDone => Sys2Proof.Machine.execEthLinkChange p up sqi anDone s
  | .ethCollision p => Sys2Proof.Machine.execEthCollision p s
  | .ethPlcaWrite o p second v => Sys2Proof.Machine.execEthPlcaWrite o p second v s
  | .tc10Sleep o p => Sys2Proof.Machine.execTc10Sleep o p s
  | .tc10SleepAck p => Sys2Proof.Machine.execTc10SleepAck p s
  | .tc10SleepreqTimeout p => Sys2Proof.Machine.execTc10SleepreqTimeout p s
  | .tc10PartnerSleep p => Sys2Proof.Machine.execTc10PartnerSleep p s
  | .tc10Wake o p => Sys2Proof.Machine.execTc10Wake o p s
  | .tc10WakeDetect p stamp => Sys2Proof.Machine.execTc10WakeDetect p stamp s
  | .ethTstx0Pop o p => Sys2Proof.Machine.execEthTstx0Pop o p s
  | .ethSapnlWrite o p rx k v => Sys2Proof.Machine.execEthSapnlWrite o p rx k v s
  | .ethSapnhWrite o p rx k v => Sys2Proof.Machine.execEthSapnhWrite o p rx k v s
  | .mdioAddress o v => Sys2Proof.Machine.execMdioAddress o v s
  | .mdioWrite o v => Sys2Proof.Machine.execMdioWrite o v s
  | .mdioRead o v => Sys2Proof.Machine.execMdioRead o v s
  | .mdioReadIncrement o v => Sys2Proof.Machine.execMdioReadIncrement o v s
  | .mdioComplete data => Sys2Proof.Machine.execMdioComplete data s
  | .netMgmtRequest => Sys2Proof.Machine.execNetMgmtRequest s
  | .tamperDetect src => Sys2Proof.Machine.execTamperDetect src s
  | .updateInject => Sys2Proof.Machine.execUpdateInject s
  | .updateDelete => Sys2Proof.Machine.execUpdateDelete s
  | .updateRoot => Sys2Proof.Machine.execUpdateRoot s
  | .updateRegwrite => Sys2Proof.Machine.execUpdateRegwrite s
  | .graceExpiry h => Sys2Proof.Machine.execGraceExpiry h s
  | .random p => Sys2Proof.Machine.execRandom p s
  | .macgen p => Sys2Proof.Machine.execMacgen p s
  | .macver p => Sys2Proof.Machine.execMacver p s
  | .gcmenc p => Sys2Proof.Machine.execGcmenc p s
  | .gcmdec p => Sys2Proof.Machine.execGcmdec p s
  | .ctrenc p => Sys2Proof.Machine.execCtrenc p s
  | .wrap p => Sys2Proof.Machine.execWrap p s
  | .unwrap p => Sys2Proof.Machine.execUnwrap p s
  | .genkey p => Sys2Proof.Machine.execGenkey p s
  | .erase p => Sys2Proof.Machine.execErase p s
  | .cancel p => Sys2Proof.Machine.execCancel p s
  | .confirm p => Sys2Proof.Machine.execConfirm p s
  | .kdf p => Sys2Proof.Machine.execKdf p s
  | .sign p => Sys2Proof.Machine.execSign p s
  | .verify p => Sys2Proof.Machine.execVerify p s
  | .agree p => Sys2Proof.Machine.execAgree p s
  | .mkaderive p => Sys2Proof.Machine.execMkaderive p s
  | .pkload p => Sys2Proof.Machine.execPkload p s
  | .hash p => Sys2Proof.Machine.execHash p s
  | .selftest p => Sys2Proof.Machine.execSelftest p s
  | .serviceBadmsg => Sys2Proof.Machine.execServiceBadmsg s
  | .spJobComplete id => Sys2Proof.Machine.execSpJobComplete id s
  | .lmeRowEnd issues => Sys2Proof.Machine.execLmeRowEnd issues s
  | .shaBlockEnd e => Sys2Proof.Machine.execShaBlockEnd e s
  | .drbgReseed => Sys2Proof.Machine.execDrbgReseed s
  | .entropyTestFail => Sys2Proof.Machine.execEntropyTestFail s
  | .tahrFrameRx toField bytes delimOk => Sys2Proof.Machine.execTahrFrameRx toField bytes delimOk s
  | .tahrRetrain => Sys2Proof.Machine.execTahrRetrain s
  | .laneRetire field l => Sys2Proof.Machine.execLaneRetire field l s
  | .trainingComplete => Sys2Proof.Machine.execTrainingComplete s
  | .trainingRetry => Sys2Proof.Machine.execTrainingRetry s
  | .nullFrameSend field => Sys2Proof.Machine.execNullFrameSend field s
  | .heartbeatSend field => Sys2Proof.Machine.execHeartbeatSend field s
  | .heartbeatRx field => Sys2Proof.Machine.execHeartbeatRx field s
  | .linkDown field => Sys2Proof.Machine.execLinkDown field s
  | .timesyncRequest => Sys2Proof.Machine.execTimesyncRequest s
  | .timesyncRx toField arr => Sys2Proof.Machine.execTimesyncRx toField arr s
  | .remoteRead => Sys2Proof.Machine.execRemoteRead s
  | .remoteWrite => Sys2Proof.Machine.execRemoteWrite s
  | .fieldStart => Sys2Proof.Machine.execFieldStart s
  | .imageEntry => Sys2Proof.Machine.execImageEntry s
  | .imageData => Sys2Proof.Machine.execImageData s
  | .imageCommit => Sys2Proof.Machine.execImageCommit s
  | .imageAbort => Sys2Proof.Machine.execImageAbort s
  | .imageResult => Sys2Proof.Machine.execImageResult s
  | .fieldFrunEntry => Sys2Proof.Machine.execFieldFrunEntry s
  | .fieldFaultReport => Sys2Proof.Machine.execFieldFaultReport s
  | .faultReportSend => Sys2Proof.Machine.execFaultReportSend s
  | .fieldJournalReport => Sys2Proof.Machine.execFieldJournalReport s
  | .permitMessage => Sys2Proof.Machine.execPermitMessage s
  | .tahrPermctlWrite o v => Sys2Proof.Machine.execTahrPermctlWrite o v s
  | .fcanFrameToField n => Sys2Proof.Machine.execFcanFrameToField n s
  | .tahrCatalogueSend => Sys2Proof.Machine.execTahrCatalogueSend s
  | .fsupTxctlSend v => Sys2Proof.Machine.execFsupTxctlSend v s
  | .fsupRxpop => Sys2Proof.Machine.execFsupRxpop s
  | .measRecordSend => Sys2Proof.Machine.execMeasRecordSend s
  | .holdLineAssert => Sys2Proof.Machine.execHoldLineAssert s
  | .holdLineDeassert => Sys2Proof.Machine.execHoldLineDeassert s
  | .permitGrantStart => Sys2Proof.Machine.execPermitGrantStart s
  | .permitReadbackMismatch => Sys2Proof.Machine.execPermitReadbackMismatch s
  | .fsupPermitWrite v => Sys2Proof.Machine.execFsupPermitWrite v s
  | .watchdogRefresh v => Sys2Proof.Machine.execWatchdogRefresh v s
  | .watchdogExpiry => Sys2Proof.Machine.execWatchdogExpiry s
  | .filterOutput host ch samples pairSamples => Sys2Proof.Machine.execFilterOutput host ch samples pairSamples s
  | .windowClose host ch => Sys2Proof.Machine.execWindowClose host ch s
  | .measChctlWrite o host ch v => Sys2Proof.Machine.execMeasChctlWrite o host ch v s
  | .measChwinWrite o host ch v => Sys2Proof.Machine.execMeasChwinWrite o host ch v s
  | .measCalctlReq o v => Sys2Proof.Machine.execMeasCalctlReq o v s
  | .measSpareCalibrated ok => Sys2Proof.Machine.execMeasSpareCalibrated ok s
  | .converterSwap => Sys2Proof.Machine.execConverterSwap s
  | .measCalibrationDone ok => Sys2Proof.Machine.execMeasCalibrationDone ok s
  | .hsnsCalctlReq o => Sys2Proof.Machine.execHsnsCalctlReq o s
  | .hsnsCalibrationEnd ok => Sys2Proof.Machine.execHsnsCalibrationEnd ok s
  | .touchReading t => Sys2Proof.Machine.execTouchReading t s
  | .touchStuck t => Sys2Proof.Machine.execTouchStuck t s
  | .touchWakeScan t r stamp => Sys2Proof.Machine.execTouchWakeScan t r stamp s
  | .tdmFrame n slots => Sys2Proof.Machine.execTdmFrame n slots s
  | .tdmFsEdge n stamp clocks => Sys2Proof.Machine.execTdmFsEdge n stamp clocks s
  | .tdmTdmbst0Pop o n => Sys2Proof.Machine.execTdmTdmbst0Pop o n s
  | .tdmEnableWrite o n v => Sys2Proof.Machine.execTdmEnableWrite o n v s
  | .bptCscommit o x => Sys2Proof.Machine.execBptCscommit o x s
  | .bptUcommit o x => Sys2Proof.Machine.execBptUcommit o x s
  | .bprBlockEnd r => Sys2Proof.Machine.execBprBlockEnd r s
  | .aafTalkerPdu e => Sys2Proof.Machine.execAafTalkerPdu e s
  | .aafListenerTake e => Sys2Proof.Machine.execAafListenerTake e s
  | .aafUnderrun e => Sys2Proof.Machine.execAafUnderrun e s
  | .audRgainWrite o r v => Sys2Proof.Machine.execAudRgainWrite o r v s
  | .biquadCommit o key => Sys2Proof.Machine.execBiquadCommit o key s
  | .spkctlWrite o v => Sys2Proof.Machine.execSpkctlWrite o v s
  | .dacctlWrite o n v => Sys2Proof.Machine.execDacctlWrite o n v s
  | .outputPrechargeEnd n => Sys2Proof.Machine.execOutputPrechargeEnd n s
  | .outputRampdownEnd n => Sys2Proof.Machine.execOutputRampdownEnd n s
  | .outputDischargeEnd n => Sys2Proof.Machine.execOutputDischargeEnd n s
  | .outputFault n vspk => Sys2Proof.Machine.execOutputFault n vspk s
  | .limiterBlock => Sys2Proof.Machine.execLimiterBlock s
  | .inputSettleEnd key => Sys2Proof.Machine.execInputSettleEnd key s
  | .detectSpeaker o => Sys2Proof.Machine.execDetectSpeaker o s
  | .detectLineOut o n => Sys2Proof.Machine.execDetectLineOut o n s
  | .detectComplete n cls r => Sys2Proof.Machine.execDetectComplete n cls r s
  | .bandWindowClose a => Sys2Proof.Machine.execBandWindowClose a s
  | .audioCalreq o v => Sys2Proof.Machine.execAudioCalreq o v s
  | .audioCalHoldEnd => Sys2Proof.Machine.execAudioCalHoldEnd s
  | .audioCalibrationDone => Sys2Proof.Machine.execAudioCalibrationDone s
  | .fltInject o v => Sys2Proof.Machine.execFltInject o v s
  | .ffltInject o v => Sys2Proof.Machine.execFfltInject o v s
  | .fltSevClear o => Sys2Proof.Machine.execFltSevClear o s
  | .ffltSevClear o => Sys2Proof.Machine.execFfltSevClear o s
  | .islandCheckFail code again => Sys2Proof.Machine.execIslandCheckFail code again s
  | .sramCorrected field arr row => Sys2Proof.Machine.execSramCorrected field arr row s
  | .sramRowReplace field => Sys2Proof.Machine.execSramRowReplace field s
  | .sramUncorrectable field consumer => Sys2Proof.Machine.execSramUncorrectable field consumer s
  | .shedVisitStart field => Sys2Proof.Machine.execShedVisitStart field s
  | .shedShadowEnd field => Sys2Proof.Machine.execShedShadowEnd field s
  | .shedHandover field => Sys2Proof.Machine.execShedHandover field s
  | .shedSelftestDone field pass => Sys2Proof.Machine.execShedSelftestDone field pass s
  | .shedHandback field => Sys2Proof.Machine.execShedHandback field s
  | .shedHandoverTimeout field => Sys2Proof.Machine.execShedHandoverTimeout field s
  | .shedreqGo o v => Sys2Proof.Machine.execShedreqGo o v s
  | .retctlGo o v => Sys2Proof.Machine.execRetctlGo o v s
  | .returnComplete field => Sys2Proof.Machine.execReturnComplete field s
  | .ageclr o v => Sys2Proof.Machine.execAgeclr o v s
  | .budgetGrant field => Sys2Proof.Machine.execBudgetGrant field s
  | .budgetTimeout field => Sys2Proof.Machine.execBudgetTimeout field s
  | .tapExtest pins => Sys2Proof.Machine.execTapExtest pins s
  | .extestExit ir => Sys2Proof.Machine.execExtestExit ir s
  | .tapIdcode => Sys2Proof.Machine.execTapIdcode s
  | .tapSamplePreload captured loaded => Sys2Proof.Machine.execTapSamplePreload captured loaded s
  | .tapDtmcs => Sys2Proof.Machine.execTapDtmcs s
  | .tapDmi addr op data => Sys2Proof.Machine.execTapDmi addr op data s
  | .tapDbgchal => Sys2Proof.Machine.execTapDbgchal s
  | .tapDbgtoken token => Sys2Proof.Machine.execTapDbgtoken token s
  | .tapBypass code => Sys2Proof.Machine.execTapBypass code s
  | .tokenCheckComplete => Sys2Proof.Machine.execTokenCheckComplete s
  | .tokenBlockEnd => Sys2Proof.Machine.execTokenBlockEnd s
  | .sessionExpiry => Sys2Proof.Machine.execSessionExpiry s
  | .dbgCtlEnd => Sys2Proof.Machine.execDbgCtlEnd s
  | .dmHalt fs => Sys2Proof.Machine.execDmHalt fs s
  | .dmResume fs => Sys2Proof.Machine.execDmResume fs s
  | .dmNdmreset fs => Sys2Proof.Machine.execDmNdmreset fs s
  | .dmSingleStep fs => Sys2Proof.Machine.execDmSingleStep fs s
  | .dmAbstractCommand fs ops => Sys2Proof.Machine.execDmAbstractCommand fs ops s
  | .sbaRead fs a => Sys2Proof.Machine.execSbaRead fs a s
  | .sbaWrite fs a v => Sys2Proof.Machine.execSbaWrite fs a v s
  | .keeperSupplyValid => Sys2Proof.Machine.execKeeperSupplyValid s
  | .keeperOscillatorTick => Sys2Proof.Machine.execKeeperOscillatorTick s
  | .tamperConditionEnd src => Sys2Proof.Machine.execTamperConditionEnd src s
  | .fieldResetEnd => Sys2Proof.Machine.execFieldResetEnd s
  | .lockstepMismatch field => Sys2Proof.Machine.execLockstepMismatch field s
  | .pairMismatch u => Sys2Proof.Machine.execPairMismatch u s
  | .canRxError n code dataPhase flagBit firstDominant more => Sys2Proof.Machine.execCanRxError n code dataPhase flagBit firstDominant more s
  | .bptFrame x => Sys2Proof.Machine.execBptFrame x s
  | .bprFrameRx r stamp pre bad subA subB => Sys2Proof.Machine.execBprFrameRx r stamp pre bad subA subB s
  | .micBiasSample n cls => Sys2Proof.Machine.execMicBiasSample n cls s
  | .faultCauseCleared n vspk => Sys2Proof.Machine.execFaultCauseCleared n vspk s

end Sys2Proof.Machine
end

