-- ==== Sys2Proof/WellFormed.lean ====
section
/-! DEFINITION. Well-formed commands: each operand within the range that the spec gives it (a port, a unit's number, a field's width, a stamp's 64 bits). -/

namespace Sys2Proof

/-- The fields of a transaction within the widths of Table HOST-1. -/
def Txn.wf (t : Txn) : Bool :=
  decide (t.seq < 256) && decide (t.arg < 256) && decide (t.len < 4096) && decide (t.addr < 2 ^ 32)

/-- The transaction of a service path within its widths. -/
def SvcPath.wf : SvcPath → Bool
  | .fabric => true
  | .host t => t.wf

/-- Every operand of a command lies within its range. -/
def Instr.wf (i : Instr) : Bool :=
  match i with
  | .powerOnReset _ => true
  | .pinReset => true
  | .reset t => t.wf
  | .supplyMonitorReset => true
  | .clockMonitorReset => true
  | .temperatureMonitorReset => true
  | .resetEnd => true
  | .vsupHLoss => true
  | .keeperLoss => true
  | .fieldPowerOn => true
  | .fieldMonitorReset => true
  | .fieldSupplyLoss => true
  | .buildStart => true
  | .buildSlotFail => true
  | .buildTimeout => true
  | .buildCommit => true
  | .runEntry => true
  | .otpFuseProgrammed _ => true
  | .sysCtrlSleep _ => true
  | .sleep t => t.wf
  | .standbyDrainEnd => true
  | .wakeEvent src stamp => decide (src < 16) && decide (stamp < 2 ^ 64)
  | .wakeDecision => true
  | .wakeOutPulseEnd => true
  | .resume t => t.wf
  | .sysDegcauseClear _ => true
  | .tickCommit _ => true
  | .timRateWrite _ _ => true
  | .timPtpofslWrite _ _ => true
  | .timPtpofshWrite _ _ => true
  | .timNowlRead _ => true
  | .nop t => t.wf
  | .write t => t.wf
  | .writel t => t.wf
  | .read t => t.wf
  | .fetch t => t.wf
  | .send t => t.wf
  | .recv t => t.wf
  | .badop op t => decide (op < 16) && t.wf
  | .deferredComplete => true
  | .sysUnlockWrite _ _ => true
  | .unlockWindowExpire _ _ => true
  | .registerWrite _ a _ => decide (a < 2 ^ 24)
  | .flashReadPage _ => true
  | .flashProgramPage _ => true
  | .flashErase4k _ => true
  | .flashErase64k _ => true
  | .flashOpComplete _ => true
  | .imgRelease _ _ => true
  | .imgReleaserec _ _ => true
  | .journalDrain => true
  | .journalAck => true
  | .journalRewind => true
  | .gatewayClassify p => decide (p < 256)
  | .headRelease e => decide (e < 256)
  | .expressMatch => true
  | .egressSchedule e => decide (e < 256)
  | .planectlWrite _ _ => true
  | .modelDeparture e => decide (e < 256)
  | .holdLimitPurge e => decide (e < 256)
  | .ledgerDivergence e => decide (e < 256)
  | .bufferPressure => true
  | .bufferPressureEnd => true
  | .gateIntervalEnd e => decide (e < 12)
  | .fabGbaselWrite _ e _ => decide (e < 12)
  | .fabGbasehWrite _ e _ => decide (e < 12)
  | .virtualPortConsume v => (decide (80 ≤ v) && decide (v ≤ 255))
  | .containerPeriodicEmit v => (decide (80 ≤ v) && decide (v ≤ 255))
  | .acfTimedEmit _ => true
  | .ltWrite _ => true
  | .ltDelete _ => true
  | .ltStage _ => true
  | .ltStagedel _ => true
  | .ltCommit _ => true
  | .ltDiscard _ => true
  | .ltRead _ => true
  | .canCtlInitWrite _ n _ => decide (n < 32)
  | .canBusIntegrate n => decide (n < 32)
  | .canRecover _ n => decide (n < 32)
  | .busOffRecoveryEnd n => decide (n < 32)
  | .canTxAttempt n measured => decide (n < 32) && decide (measured < 128)
  | .canTxComplete n => decide (n < 32)
  | .canTxAttemptFail n code _ _ _ _ => decide (n < 32) && decide (code < 7)
  | .canTxabort _ n _ => decide (n < 32)
  | .canTransmitStall n => decide (n < 32)
  | .canRxFrame n stamp _ => decide (n < 32) && decide (stamp < 2 ^ 64)
  | .fcanStatusReport => true
  | .listenerWakeFrame l stamp _ ident dlc data => decide (l < 8) && decide (stamp < 2 ^ 64) && decide (ident < 2 ^ 29) && decide (dlc < 16) && decide (data.length ≤ 8)
  | .listenerFrameError l => decide (l < 8)
  | .listenerFecOverflow l stamp => decide (l < 8) && decide (stamp < 2 ^ 64)
  | .linSlotStart c => decide (c < 8)
  | .linHeaderRx c pid _ => decide (c < 8) && decide (pid < 256)
  | .linResponseRx c stamp pid cksum data _ => decide (c < 8) && decide (stamp < 2 ^ 64) && decide (pid < 256) && decide (cksum < 256) && (decide (1 ≤ data.length) && decide (data.length ≤ 8))
  | .linNoResponse c => decide (c < 8)
  | .linSchedWrite _ c _ => decide (c < 8)
  | .linSleep _ c => decide (c < 8)
  | .linWake _ c => decide (c < 8)
  | .linWakePulse c => decide (c < 8)
  | .linIdleSleep c => decide (c < 8)
  | .linScheduleResume c => decide (c < 8)
  | .linBusFault c => decide (c < 8)
  | .linBusFaultEnd c => decide (c < 8)
  | .ethRxFrame p stamp _ _ => decide (p < 12) && decide (stamp < 2 ^ 64)
  | .ethLinkChange p _ sqi _ => decide (p < 12) && decide (sqi < 8)
  | .ethCollision p => (decide (p = 10) || decide (p = 11))
  | .ethPlcaWrite _ p _ _ => (decide (p = 10) || decide (p = 11))
  | .tc10Sleep _ p => (decide (6 ≤ p) && decide (p ≤ 9))
  | .tc10SleepAck p => (decide (6 ≤ p) && decide (p ≤ 9))
  | .tc10SleepreqTimeout p => (decide (6 ≤ p) && decide (p ≤ 9))
  | .tc10PartnerSleep p => (decide (6 ≤ p) && decide (p ≤ 9))
  | .tc10Wake _ p => (decide (6 ≤ p) && decide (p ≤ 9))
  | .tc10WakeDetect p stamp => (decide (6 ≤ p) && decide (p ≤ 9)) && decide (stamp < 2 ^ 64)
  | .ethTstx0Pop _ p => decide (p < 12)
  | .ethSapnlWrite _ p _ k _ => decide (p < 6) && decide (k < 4)
  | .ethSapnhWrite _ p _ k _ => decide (p < 6) && decide (k < 4)
  | .mdioAddress _ _ => true
  | .mdioWrite _ _ => true
  | .mdioRead _ _ => true
  | .mdioReadIncrement _ _ => true
  | .mdioComplete data => decide (data < 2 ^ 16)
  | .netMgmtRequest => true
  | .tamperDetect src => decide (src < 8)
  | .updateInject => true
  | .updateDelete => true
  | .updateRoot => true
  | .updateRegwrite => true
  | .graceExpiry h => decide (h < 2 ^ 16)
  | .random p => p.wf
  | .macgen p => p.wf
  | .macver p => p.wf
  | .gcmenc p => p.wf
  | .gcmdec p => p.wf
  | .ctrenc p => p.wf
  | .wrap p => p.wf
  | .unwrap p => p.wf
  | .genkey p => p.wf
  | .erase p => p.wf
  | .cancel p => p.wf
  | .confirm p => p.wf
  | .kdf p => p.wf
  | .sign p => p.wf
  | .verify p => p.wf
  | .agree p => p.wf
  | .mkaderive p => p.wf
  | .pkload p => p.wf
  | .hash p => p.wf
  | .selftest p => p.wf
  | .serviceBadmsg => true
  | .spJobComplete _ => true
  | .lmeRowEnd _ => true
  | .shaBlockEnd e => decide (e < 2)
  | .drbgReseed => true
  | .entropyTestFail => true
  | .tahrFrameRx _ _ _ => true
  | .tahrRetrain => true
  | .laneRetire _ l => decide (l < 6)
  | .trainingComplete => true
  | .trainingRetry => true
  | .nullFrameSend _ => true
  | .heartbeatSend _ => true
  | .heartbeatRx _ => true
  | .linkDown _ => true
  | .timesyncRequest => true
  | .timesyncRx _ _ => true
  | .remoteRead => true
  | .remoteWrite => true
  | .fieldStart => true
  | .imageEntry => true
  | .imageData => true
  | .imageCommit => true
  | .imageAbort => true
  | .imageResult => true
  | .fieldFrunEntry => true
  | .fieldFaultReport => true
  | .faultReportSend => true
  | .fieldJournalReport => true
  | .permitMessage => true
  | .tahrPermctlWrite _ _ => true
  | .fcanFrameToField n => decide (n < 8)
  | .tahrCatalogueSend => true
  | .fsupTxctlSend _ => true
  | .fsupRxpop => true
  | .measRecordSend => true
  | .holdLineAssert => true
  | .holdLineDeassert => true
  | .permitGrantStart => true
  | .permitReadbackMismatch => true
  | .fsupPermitWrite _ => true
  | .watchdogRefresh _ => true
  | .watchdogExpiry => true
  | .filterOutput _ _ _ _ => true
  | .windowClose _ _ => true
  | .measChctlWrite _ _ _ _ => true
  | .measChwinWrite _ _ _ _ => true
  | .measCalctlReq _ _ => true
  | .measSpareCalibrated _ => true
  | .converterSwap => true
  | .measCalibrationDone _ => true
  | .hsnsCalctlReq _ => true
  | .hsnsCalibrationEnd _ => true
  | .touchReading t => decide (t < 4)
  | .touchStuck t => decide (t < 4)
  | .touchWakeScan t _ stamp => decide (t < 4) && decide (stamp < 2 ^ 64)
  | .tdmFrame n _ => decide (n < 4)
  | .tdmFsEdge n stamp _ => decide (n < 4) && decide (stamp < 2 ^ 64)
  | .tdmTdmbst0Pop _ n => decide (n < 4)
  | .tdmEnableWrite _ n _ => decide (n < 4)
  | .bptCscommit _ x => decide (x < 2)
  | .bptUcommit _ x => decide (x < 2)
  | .bprBlockEnd r => decide (r < 2)
  | .aafTalkerPdu e => decide (e < 8)
  | .aafListenerTake e => decide (e < 8)
  | .aafUnderrun e => decide (e < 8)
  | .audRgainWrite _ r _ => decide (r < 256)
  | .biquadCommit _ _ => true
  | .spkctlWrite _ _ => true
  | .dacctlWrite _ n _ => decide (n < 2)
  | .outputPrechargeEnd n => decide (n < 3)
  | .outputRampdownEnd n => decide (n < 3)
  | .outputDischargeEnd n => decide (n < 3)
  | .outputFault n _ => decide (n < 3)
  | .limiterBlock => true
  | .inputSettleEnd _ => true
  | .detectSpeaker _ => true
  | .detectLineOut _ n => decide (n < 2)
  | .detectComplete _ _ _ => true
  | .bandWindowClose a => decide (a < 8)
  | .audioCalreq _ _ => true
  | .audioCalHoldEnd => true
  | .audioCalibrationDone => true
  | .fltInject _ _ => true
  | .ffltInject _ _ => true
  | .fltSevClear _ => true
  | .ffltSevClear _ => true
  | .islandCheckFail code _ => decide (code < 2 ^ 16)
  | .sramCorrected _ _ _ => true
  | .sramRowReplace _ => true
  | .sramUncorrectable _ _ => true
  | .shedVisitStart _ => true
  | .shedShadowEnd _ => true
  | .shedHandover _ => true
  | .shedSelftestDone _ _ => true
  | .shedHandback _ => true
  | .shedHandoverTimeout _ => true
  | .shedreqGo _ _ => true
  | .retctlGo _ _ => true
  | .returnComplete _ => true
  | .ageclr _ _ => true
  | .budgetGrant _ => true
  | .budgetTimeout _ => true
  | .tapExtest _ => true
  | .extestExit ir => decide (ir < 32)
  | .tapIdcode => true
  | .tapSamplePreload _ _ => true
  | .tapDtmcs => true
  | .tapDmi _ op data => decide (op < 4) && decide (data < 2 ^ 32)
  | .tapDbgchal => true
  | .tapDbgtoken token => decide (token.length = 256)
  | .tapBypass code => decide (code < 32)
  | .tokenCheckComplete => true
  | .tokenBlockEnd => true
  | .sessionExpiry => true
  | .dbgCtlEnd => true
  | .dmHalt _ => true
  | .dmResume _ => true
  | .dmNdmreset _ => true
  | .dmSingleStep _ => true
  | .dmAbstractCommand _ _ => true
  | .sbaRead _ _ => true
  | .sbaWrite _ _ _ => true
  | .keeperSupplyValid => true
  | .keeperOscillatorTick => true
  | .tamperConditionEnd src => decide (src < 8)
  | .fieldResetEnd => true
  | .lockstepMismatch _ => true
  | .pairMismatch _ => true
  | .canRxError n code _ _ _ _ => decide (n < 32) && decide (code < 7)
  | .bptFrame x => decide (x < 2)
  | .bprFrameRx r stamp _ _ subA subB => decide (r < 2) && decide (stamp < 2 ^ 64) && decide (subA < 2 ^ 28) && decide (subB < 2 ^ 28)
  | .micBiasSample n _ => decide (n < 4)
  | .faultCauseCleared n _ => decide (n < 3)

/-- A well-formed command. -/
abbrev Instr.WellFormed (i : Instr) : Prop := i.wf = true

end Sys2Proof
end

