-- ==== Sys2Proof/Safety.lean ====
section
/-! DEFINITION. What counts as a safe state and a safe run, in the terms the statements use. -/

namespace Sys2Proof.Machine

open Sys2Proof

/-- The state's sparse maps of words and bytes stand in their one canonical form, and every waiting command is well formed. -/
def State.wf (s : State) : Bool := RegFile.wf s.regs && Flash.wf s.flash && s.pending.all Instr.wf

/-- A step goes on: it answers a next state. -/
def goesOn (s : State) : Prop := ∃ t, step s = .next t

/-- The hold line and SAFE_OUT show the mode (Table MOD-7, R55, R81): outside a reset and EXTEST, the line is de-asserted in RUN and DEGRADED only, and SAFE_OUT is low only there and without drive in KEEP and No supply; a reset and EXTEST assert the line and drive SAFE_OUT high in every powered mode. -/
def pinsShow (s : State) : Prop :=
  s.sys.holdLine = (s.sys.inReset.isSome || s.h.dbg.extest || !s.sys.mode.live) ∧
  s.sys.safeOut =
    (if s.sys.mode = .noSupply ∨ s.sys.mode = .keep then Drive.hiZ
     else if s.sys.mode.live ∧ s.sys.inReset = none ∧ s.h.dbg.extest = false then Drive.low
     else Drive.high)

/-- One-time programmable storage only moves one way (R119 to R121, R536): what the part was made with stands, the security floor and the epoch only rise, up to the fuses there are, and a revoked key slot stays revoked. -/
def otpForward (a b : Otp) : Prop :=
  (b.uid = a.uid ∧ b.keyHash0 = a.keyHash0 ∧ b.keyHash1 = a.keyHash1 ∧ b.updHash = a.updHash ∧ b.seed = a.seed ∧ b.defects = a.defects) ∧
  (a.floor ≤ 64 → a.floor ≤ b.floor ∧ b.floor ≤ 64) ∧
  (a.epoch ≤ 32 → a.epoch ≤ b.epoch ∧ b.epoch ≤ 32) ∧
  (a.revoked0 = true → b.revoked0 = true) ∧ (a.revoked1 = true → b.revoked1 = true)

/-- The invariant of a run: the register file and the boot flash stand in canonical form, and the pins show the mode. -/
def State.inv (s : State) : Prop := RegFile.wf s.regs = true ∧ Flash.wf s.flash = true ∧ pinsShow s

/-! ## Register writes that pass their checks -/

/-- A write of a register of the host die by a bus master passes the mode check and every check of R138 and R224, so that it takes effect. -/
def passes (s : State) (o : Origin) (a v : Nat) : Prop :=
  busMaster o = true ∧ o ≠ .fs ∧ isRemote a = false ∧ hostModeStatus s o = none ∧ hostWriteStatus s o a v 0 = none

/-- A write of a remote register by an origin of the host die passes the host die's checks, and the link is up (R617). -/
def passesRemote (s : State) (o : Origin) (a v : Nat) : Prop :=
  busMaster o = true ∧ o ≠ .fs ∧ isRemote a = true ∧ hostModeStatus s o = none ∧ remoteHostStatus s o a v = none ∧ s.h.tahr.link = true

/-- A store of the FS to a register it reaches passes the field die's checks (R945, R946). -/
def passesFs (s : State) (a v : Nat) : Prop := fsReaches a = true ∧ fieldWriteStatus s .fs a v = none

/-- What every register write may change beside its own effect on the registers `A` and elsewhere: the journal with the chain head the keeper keeps, SYS.INTSTAT, the unlock windows and the expert holds. -/
def beside (A : List Nat) (s u : State) : Prop :=
  u = { s with h.jrn := u.h.jrn, keeper.jrnLast := u.keeper.jrnLast, keeper.jrnAck := u.keeper.jrnAck, keeper.jrnValid := u.keeper.jrnValid,
               regs := u.regs, h.port.windows := u.h.port.windows, f.windows := u.f.windows, h.img.holds := u.h.img.holds, f.holds := u.f.holds } ∧
  (∀ b, b ≠ 0x4C → b ∉ A → RegFile.get u.regs b = RegFile.get s.regs b) ∧ (RegFile.wf s.regs = true → RegFile.wf u.regs = true)

/-- A register with the value a write of `v` leaves in it (R9, R13, R19). -/
def stored (fs : Bool) (o : Origin) (a v : Nat) (u : State) : State :=
  match regAt a with
  | some d => setReg u (storeKey fs d o a) (mergeRw d (reg u (storeKey fs d o a)) v)
  | none => u

/-- What a read of a register of the host die shows, without a read's effect. -/
def standing (o : Origin) (a : Nat) (u : State) : Nat :=
  match regAt a with
  | some d => peekReg u false o d a
  | none => 0

/-- What a read by the FS shows, without a read's effect. -/
def standingFs (a : Nat) (u : State) : Nat :=
  match regAt a with
  | some d => peekReg u true .fs d a
  | none => 0

/-- A register write taken: the journal has it, its effect `G` follows, and the writer's window and hold are as the write leaves them. -/
def wrote (s : State) (G : State → State) (t : State) : Prop :=
  ∃ u, beside [] s u ∧
    t = { G u with h.port.windows := t.h.port.windows, f.windows := t.f.windows, h.img.holds := t.h.img.holds, f.holds := t.f.holds }

/-- A register of the host die whose write sets off nothing beside the value it leaves: of no block or offset that `regEffect` or `beforeWrite` names. -/
def plain (a : Nat) : Bool :=
  !isRemote a && !isUnlock a && !storesElsewhere a &&
  (if a < 0x100000 then !([0x14, 0x1C, 0x60, 0x30008, 0x40040, 0x40048, 0x50000, 0x50040, 0x60008, 0x6000C, 0x60044].contains a)
   else if a < 0x400000 then !(a == 0x10C000 || a == 0x210004 || a % 0x1000 == 0x98 || a % 0x1000 == 0x9C)
   else if a < 0x420000 then a % 0x1000 != 0 && a % 0x1000 != 0x20
   else if a < 0x440000 then a % 0x100 != 0
   else if a < 0x500000 then
    let off := (a - 0x440000) % 0x10000
    a != 0x44F000 && !(off == 0 || off == 8 || off == 0xC || off == 0x10) && !(decide (0x100 ≤ off) && decide (off < 0x120)) &&
      !(decide (0x400 ≤ off) && decide (off < 0x700))
   else decide (0x580010 ≤ a) && decide (a < 0x580200))

/-- A store of the FS taken on the field die: its effect `G`, with the writer's window and hold as the write leaves them, and the journal's report where the register is journalled (R245). -/
def wroteFs (a v : Nat) (G : State → State) (s t : State) : Prop :=
  ∃ u, u = { G s with h.port.windows := u.h.port.windows, f.windows := u.f.windows, h.img.holds := u.h.img.holds, f.holds := u.f.holds } ∧
    t = (match regAt a with
      | some d => if d.jrn then fieldJournal (fnow s) a v Origin.fs.code (levelOf s true .fs (blockOf a)) u else u
      | none => u)

/-- A boot-flash operation of SYS.FLCTL.CMD may start (R234): the master is idle, the address is aligned and within the flash, no program or erase touches the slot in force, and the SFDP declares the operation (log entry 19). -/
def flashMayStart (s : State) (k : Nat) : Prop :=
  let a := fieldOf s 0x64 0 26
  s.h.port.flash = none ∧ a % flashSize k = 0 ∧ a + flashSize k ≤ s.flash.dens * 0x100000 ∧ (2 ≤ k → inSlotInForce s a = false) ∧
  s.flash.valid = true ∧ (k = 3 → s.flash.er4k = true) ∧ (k = 4 → s.flash.er64k = true)

/-! ## Host transactions -/

/-- A transaction that the port receives whole, with every field within Table HOST-2, so that its operation takes effect (R201, R204, R218). -/
def whole (op : Nat) (t : Txn) (s : State) : Prop := portAlive s = true ∧ discardCode op t = none ∧ fieldsOk op t = true

/-- The state in which a transaction's operation takes effect: its SEQ is the previous one's from here on, and DISCNT is 0 (Table HOST-3). -/
def received (t : Txn) (s : State) : State := { s with h.port.prevSeq := t.seq % 256, h.port.discnt := 0 }

/-- What a transaction leaves: the state its operation gives, with the words the port drove from the state before it (R202). -/
def answered (t : Txn) (s u : State) : State := { u with h.port.miso := (misoWords s t.len).take (t.clocks / 32) }

/-- The services of Table CRY-5: the code, the path and what the service does. -/
def serviceOf : Instr → Option (Nat × SvcPath × (SvcReq → State → State × SvcOut))
  | .random p => some (0x01, p, svcRandom)
  | .macgen p => some (0x02, p, svcMacgen)
  | .macver p => some (0x03, p, svcMacver)
  | .gcmenc p => some (0x04, p, svcGcmenc)
  | .gcmdec p => some (0x05, p, svcGcmdec)
  | .ctrenc p => some (0x06, p, svcCtrenc)
  | .wrap p => some (0x07, p, svcWrap)
  | .unwrap p => some (0x08, p, svcUnwrap)
  | .genkey p => some (0x09, p, svcGenkey)
  | .erase p => some (0x0A, p, svcErase)
  | .cancel p => some (0x0B, p, svcCancel)
  | .confirm p => some (0x0C, p, svcConfirm)
  | .kdf p => some (0x0D, p, svcKdf)
  | .sign p => some (0x0E, p, svcSign)
  | .verify p => some (0x0F, p, svcVerify)
  | .agree p => some (0x10, p, svcAgree)
  | .mkaderive p => some (0x11, p, svcMkaderive)
  | .pkload p => some (0x12, p, svcPkload)
  | .hash p => some (0x13, p, svcHash)
  | .selftest p => some (0x14, p, svcSelftest)
  | _ => none

/-- The operation code and the transaction of a command of the host port; a BADOP only where it is one, a service only under its own code. -/
def txnOf : Instr → Option (Nat × Txn)
  | .nop x => some (0, x)
  | .write x => some (1, x)
  | .writel x => some (2, x)
  | .read x => some (3, x)
  | .fetch x => some (4, x)
  | .send x => some (5, x)
  | .recv x => some (6, x)
  | .resume x => some (8, x)
  | .sleep x => some (9, x)
  | .reset x => some (10, x)
  | .badop op x => if fieldsOk op x then none else some (op, x)
  | c =>
    match serviceOf c with
    | some (code, .host x, _) => if x.arg = code then some (7, x) else none
    | _ => none

/-- The windows of the host port ended, as they end with its transaction (R226). -/
def portClosed (s : State) : State := setWindow false .hostSpi 0 (setWindow true .hostSpi 0 s)

/-! ## Resets -/

/-- The host die in a reset it has just entered (R66 to R70, Tables MOD-9 and MOD-11): the cause with FROMHOLD where HOLD was left, mode BUILD, SYSCNT stopped, the hold line asserted with SAFE_OUT high, every unit and register of the host die at its reset value but TIM.TRACECTL's, and keeper, fuses, flash and field die as they were but for the DEBUG window. -/
def resetTaken (cause : Nat) (s t : State) : Prop :=
  t.sys.inReset = some (cause + if s.sys.mode = .hold then 128 else 0) ∧ t.sys.rstCause = cause + (if s.sys.mode = .hold then 128 else 0) ∧
  t.sys.mode = .build ∧ t.time.running = false ∧ t.time.now = s.time.now ∧ t.sys.holdLine = true ∧ t.sys.safeOut = .high ∧
  t.sys.wake.recording = false ∧ t.keeper = s.keeper ∧ t.otp = s.otp ∧ t.flash = s.flash ∧
  t.f = { s.f with windows := KMap.del s.f.windows 4 } ∧
  ∀ a, reg t a = if isHostReg a then (if a = 0x30024 then 0x5000 else 0) else reg s a

/-- A register key of the field die: its blocks with their banks, and the FCAN pages. -/
def isFieldReg (k : Nat) : Bool := decide (0x20000000 ≤ k) || (decide (0x800000 ≤ k % 0x1000000) && decide (k % 0x1000000 < 0x830000))

/-- The field die in a reset or after one (R67, R74, R79): its state, its units and registers at their reset values, the follower's offset and what it sees of the host die kept; nothing of the host die changes but VSUP_F as given. -/
def fieldResetTaken (st : FState) (vf : Bool) (s t : State) : Prop :=
  t = { s with regs := t.regs, sys.vsupF := vf, f := { FieldDie.reset with state := st, ofs := s.f.ofs, hold := s.f.hold, hostGrant := s.f.hostGrant } } ∧
  ∀ a, reg t a = if isFieldReg a then 0 else reg s a

/-- The keeper domain once its contents are lost (Tables MOD-3, KEY-1, KEY-2): a part in BLANK stays BLANK, any other is KEEPER_LOST. -/
def keeperGone (s t : State) : Prop :=
  t.keeper = { Keeper.reset with rootState := (if s.keeper.rootState = 3 then 3 else 2), lostReport := !(s.keeper.rootState == 3) }

end Sys2Proof.Machine
end

