-- ==== Sys2Proof/Certificates/Slice0/Obligations.lean ====
section
/-! DEFINITION. The statements for the provers, in the order of the commands they speak of. A write by a bus master has its effect where `passes`, `passesRemote` or `passesFs` holds; `wrote` and `wroteFs` say what a write leaves beside that effect. -/

open Sys2Proof Sys2Proof.Machine

/-! ## The queue, reset, and what every step keeps -/

/-- O1. For every command and state, a step takes the command at the front of the queue and answers its outcome on the state with the queue's rest; on an empty queue the block idles. The queue and its idling are the model's form (log entry 1). -/
def Obligations.StepRunsFrontCommand : Prop :=
  (∀ (c : Instr) (rest : List Instr) (s : State), step { s with pending := c :: rest } = exec c { s with pending := rest }) ∧
  (∀ s : State, s.pending = [] → step s = .next s)

/-- O2. The machine right after its power-on reset (R71, Tables MOD-1, MOD-6, MOD-7): no command waits, SYSCNT runs from 0, the mode is BUILD with the field die in WAIT, SYS.RSTCAUSE shows POR and KEEPLOST, the hold line is asserted with SAFE_OUT high, no port of the fabric holds a frame, every register reads 0 but TIM.TRACECTL, and the canonical forms and the pins stand. That this reset ended No supply with the keeper lost is the model's choice (log entry 3). -/
def Obligations.ResetLeavesSpecState : Prop :=
  State.reset.inv ∧ State.reset.pending = [] ∧ State.reset.time.now = 0 ∧ State.reset.time.running = true ∧
  State.reset.sys.mode = .build ∧ State.reset.f.state = .wait ∧ State.reset.sys.rstCause = 0x41 ∧ State.reset.sys.holdLine = true ∧
  State.reset.sys.safeOut = .high ∧ State.reset.f.permit = false ∧ State.reset.h.fab.queues = [] ∧ State.reset.h.fab.ingress = [] ∧
  State.reset.h.img.image = none ∧ State.reset.h.dbg.open_ = false ∧
  ∀ a, reg State.reset a = if a = 0x30024 then 0x5000 else 0

/-- O3. Every step keeps the invariant: the register file and the boot flash stay in canonical form, and the hold line and SAFE_OUT show the mode (R55, R81, Table MOD-7). -/
def Obligations.EveryStepKeepsInvariant : Prop := ∀ s t : State, s.inv → step s = .next t → t.inv

/-- O4. The hold line is asserted in every mode other than RUN and DEGRADED, the unpowered ones among them, and while a reset is active; every step keeps that. -/
def Obligations.HoldLineAssertedOutsideRun : Prop :=
  State.reset.inv ∧ ∀ s t : State, s.inv → step s = .next t → t.inv ∧
    ((t.sys.mode ≠ .run ∧ t.sys.mode ≠ .degraded) ∨ t.sys.inReset ≠ none → t.sys.holdLine = true)

/-- O5. The fuses move one way under every step (R119 to R121, R536): UID, key hashes, seed and defect map stand, the security floor and the epoch only rise, a revoked key slot stays revoked. -/
def Obligations.FusesMoveOneWay : Prop := ∀ s t : State, step s = .next t → otpForward s.otp t.otp

/-- O6. Only the end of a boot-flash operation changes the boot flash (R234), and only the programming of a fuse changes the fuses (R120, R121, R536). -/
def Obligations.FlashAndFusesHaveOneWriter : Prop :=
  ∀ (c : Instr) (s t : State), exec c s = .next t →
    ((∀ ok, c ≠ .flashOpComplete ok) → t.flash = s.flash) ∧ ((∀ r, c ≠ .otpFuseProgrammed r) → t.otp = s.otp)

/-- O7. The stamp of the events being committed moves only with the tick, and at the end of a reset (R71, R163); no command touches the queue of waiting commands. That one command commits a tick is the model's form (log entry 1). -/
def Obligations.OnlyTickAndResetEndMoveTime : Prop :=
  ∀ (c : Instr) (s t : State), exec c s = .next t →
    t.pending = s.pending ∧ (c ≠ .resetEnd → (∀ codes, c ≠ .tickCommit codes) → t.time.now = s.time.now)

/-- O8. The PERMIT pins start to toggle only at a rising instant of PERMIT_A (R624): no other command drives them. -/
def Obligations.PermitStartsOnlyAtItsInstant : Prop :=
  ∀ (c : Instr) (s t : State), exec c s = .next t → c ≠ .permitGrantStart → t.f.permit = true → s.f.permit = true

/-- O9. The root state makes only the transitions of Table KEY-2 (R505): to VALID by a root message, whose last step may be its fuse; from VALID to TAMPERED by a detection; to KEEPER_LOST, from any state but BLANK, by the loss of the keeper's supply (the model notes it at the loss itself, log entry 9); and the root key changes with these commands only. -/
def Obligations.RootStateTransitions : Prop :=
  ∀ (c : Instr) (s t : State), exec c s = .next t →
    (t.keeper.rootState = s.keeper.rootState ∨
      (t.keeper.rootState = 0 ∧ (c = .updateInject ∨ c = .updateDelete ∨ c = .updateRoot ∨ c = .updateRegwrite ∨ c = .otpFuseProgrammed true)) ∨
      (t.keeper.rootState = 1 ∧ s.keeper.rootState = 0 ∧ ∃ src, c = .tamperDetect src) ∨
      (t.keeper.rootState = 2 ∧ s.keeper.rootState ≠ 3 ∧ (c = .vsupHLoss ∨ c = .keeperLoss))) ∧
    (t.keeper.root = s.keeper.root ∨ c = .updateInject ∨ c = .updateDelete ∨ c = .updateRoot ∨ c = .updateRegwrite ∨
      c = .otpFuseProgrammed true ∨ (∃ src, c = .tamperDetect src) ∨ c = .vsupHLoss ∨ c = .keeperLoss)

/-- O10. Programming a run of bytes of the boot flash clears bits and sets none, an erase sets its range to 0xFF, and every other byte stands (R234). -/
def Obligations.FlashProgramAndErase : Prop :=
  (∀ (f : Flash) (a b : Nat) (bs : Bytes), Flash.wf f = true →
    (f.program a bs).get b = if a ≤ b ∧ b < a + bs.length then f.get b &&& nth bs (b - a) 0xFF else f.get b) ∧
  (∀ (f : Flash) (a n b : Nat), (f.erase a n).get b = if a ≤ b ∧ b < a + n then 0xFF else f.get b)

/-! ## Resets and supplies -/

/-- O11. Every source of a host-die reset takes effect in a powered host die that is not in reset (R64 to R67, R194, Table MOD-2): RESET_N, the supply, clock and temperature monitors, and the host RESET command; and VSUP_H rising begins the power-on reset (R78), with VIO_H sensed (R834). -/
def Obligations.HostResetSourcesReset : Prop :=
  (∀ s : State, s.sys.inReset = none → s.sys.mode ≠ .keep → s.sys.mode ≠ .noSupply →
    (∃ t, exec .pinReset s = .next t ∧ resetTaken 2 s t ∧ t.h = HostDie.reset) ∧
    (∃ t, exec .supplyMonitorReset s = .next t ∧ resetTaken 8 s t ∧ t.h = HostDie.reset) ∧
    (∃ t, exec .clockMonitorReset s = .next t ∧ resetTaken 16 s t ∧ t.h = HostDie.reset ∧ t.sys.refOk = false) ∧
    (∃ t, exec .temperatureMonitorReset s = .next t ∧ resetTaken 32 s t ∧ t.h = HostDie.reset) ∧
    (∀ x : Txn, whole 10 x s → ∃ t, exec (.reset x) s = .next t ∧ resetTaken 4 s t ∧
      t.h = { HostDie.reset with port.miso := (misoWords s 0).take (x.clocks / 32) })) ∧
  (∀ (s : State) (vio18 : Bool), s.sys.inReset = none → s.sys.vsupH = false →
    ∃ t, exec (.powerOnReset vio18) s = .next t ∧ resetTaken 1 s t ∧ t.h = HostDie.reset ∧ t.sys.vsupH = true ∧ t.sys.vio18 = vio18 ∧
      t.sys.wake.primary = 0x1F ∧ t.sys.wake.second = 0x1F ∧ t.sys.wake.seen = 0)

/-- O12. The end of a host-die reset: SYSCNT starts one keeper count above the keeper counter, or at 0 with KEEPLOST where the counter is lost (R71). The mode is BUILD, and fuses, flash, registers and field die stand. -/
def Obligations.ResetEndStartsSyscnt : Prop :=
  ∀ (s : State) (c : Nat), s.sys.inReset = some c →
    ∃ t, exec .resetEnd s = .next t ∧
      t.time.now = (if s.keeper.lost then 0 else (s.keeper.ctr + 1) * 2 ^ 15) ∧
      t.sys.rstCause = (if s.keeper.lost then Nat.lor c 64 else c) ∧ (s.keeper.lost = true → Nat.testBit t.sys.rstCause 6 = true) ∧
      t.sys.keepOk = !s.keeper.lost ∧ t.keeper.lost = false ∧ t.time.running = true ∧ t.sys.inReset = none ∧ t.sys.mode = .build ∧
      t.sys.holdLine = true ∧ t.sys.safeOut = .high ∧ t.otp = s.otp ∧ t.flash = s.flash ∧ t.f = s.f ∧ t.regs = s.regs

/-- O13. Supplies: the loss of VSUP_H stops SYSCNT into the keeper counter and leads to KEEP, or to No supply where VKEEP is absent (R77, R78); the loss of VKEEP without VSUP_H loses the keeper domain; VKEEP alone leads from No supply to KEEP (R58); and the keeper oscillator counts while SYSCNT stands (R70). -/
def Obligations.SuppliesMoveTheMode : Prop :=
  (∀ s : State, s.sys.vsupH = true → ∃ t, exec .vsupHLoss s = .next t ∧
    t.sys.vsupH = false ∧ t.sys.inReset = none ∧ t.time.running = false ∧ t.sys.holdLine = true ∧ t.sys.safeOut = .hiZ ∧ t.h = HostDie.reset ∧
    t.sys.wake = Wake.reset ∧ t.otp = s.otp ∧ t.flash = s.flash ∧ t.time.now = s.time.now ∧
    (if s.sys.vkeep then t.sys.mode = .keep ∧ t.keeper = { s.keeper with ctr := if s.time.running then s.time.now / 2 ^ 15 else s.keeper.ctr }
      else t.sys.mode = .noSupply ∧ keeperGone s t)) ∧
  (∀ s : State, s.sys.vsupH = false → ∃ t, exec .keeperLoss s = .next t ∧ t.sys.mode = .noSupply ∧ t.sys.vkeep = false ∧ keeperGone s t ∧
    t.sys.safeOut = .hiZ ∧ t.sys.holdLine = true ∧ t.otp = s.otp ∧ t.flash = s.flash ∧ t.regs = s.regs ∧ t.h = s.h ∧ t.f = s.f ∧ t.time = s.time) ∧
  (∀ s : State, s.sys.vsupH = false → s.sys.mode = .noSupply → exec .keeperSupplyValid s =
    .next { s with sys.vkeep := true, sys.mode := .keep, sys.holdLine := true, sys.safeOut := .hiZ }) ∧
  (∀ s : State, s.time.running = false → s.sys.mode ≠ .noSupply → s.keeper.lost = false →
    exec .keeperOscillatorTick s = .next { s with keeper.ctr := s.keeper.ctr + 1 })

/-- O14. The field die's resets (R64, R67, R74, R79): VSUP_F valid brings WAIT, a monitor holds it in reset, the end of that reset brings WAIT, and the loss of VSUP_F takes it away. -/
def Obligations.FieldResetsTakeEffect : Prop :=
  (∀ s : State, s.f.state = .off → ∃ t, exec .fieldPowerOn s = .next t ∧ fieldResetTaken .wait true s t) ∧
  (∀ s : State, s.f.state ≠ .off → ∃ t, exec .fieldMonitorReset s = .next t ∧ fieldResetTaken .inReset s.sys.vsupF s t) ∧
  (∀ s : State, s.f.state = .inReset → exec .fieldResetEnd s = .next { s with f.state := .wait }) ∧
  (∀ s : State, s.f.state ≠ .off → ∃ t, exec .fieldSupplyLoss s = .next t ∧ fieldResetTaken .off false s t)

/-! ## BUILD, RUN entry, fuses -/

/-- O15. BUILD begins (R75, R101, R525): run-time keys and engine slots are erased, both headers are judged, and the first slot in order is tried; without one the device enters HOLD with no image in force (R129). -/
def Obligations.BuildStartTriesFirstSlot : Prop :=
  ∀ s : State, buildIdle s = true → ∃ t, exec .buildStart s = .next t ∧
    t.h.keys.rt = [] ∧ t.h.keys.slots = [] ∧ t.h.keys.roles = [] ∧ t.sys.buildAt = s.time.now ∧
    t.h.img.codeA = (if headerCode s 0 = 0 then 1 else headerCode s 0) ∧ t.h.img.codeB = (if headerCode s 1 = 0 then 1 else headerCode s 1) ∧
    match slotOrder s with
    | k :: r => t.h.img.trying = some k ∧ t.h.img.rest = r ∧ t.sys.mode = .build ∧ t.sys.noImg = false ∧ t.keeper = s.keeper ∧ t.f = s.f
    | [] => t.h.img.trying = none ∧ t.h.img.image = none ∧ t.sys.mode = .hold ∧ t.sys.noImg = true ∧ t.sys.safeOut = .high ∧ t.keeper = s.keeper ∧ t.f = s.f

/-- O16. A slot that fails a check, or BUILD at its limit of 500 ms (R128, R129): the slot's code stands, and the other slot is tried, or the device enters HOLD with no image in force; at the limit none is tried. -/
def Obligations.FailedSlotEndsOrGoesOn : Prop :=
  (∀ (s : State) (k : Nat), s.sys.mode = .build → s.h.img.trying = some k → s.h.img.committed = false → slotCode s k s.h.img.fieldCode ≠ 0 →
    ∃ t, exec .buildSlotFail s = .next t ∧
      (if k = 0 then t.h.img.codeA else t.h.img.codeB) = slotCode s k s.h.img.fieldCode ∧
      match s.h.img.rest with
      | j :: r => t.h.img.trying = some j ∧ t.h.img.rest = r ∧ t.sys.mode = .build
      | [] => t.h.img.trying = none ∧ t.h.img.image = none ∧ t.sys.mode = .hold ∧ t.sys.noImg = true) ∧
  (∀ (s : State) (k : Nat), s.sys.mode = .build → s.h.img.trying = some k → s.sys.buildAt + 500000000 ≤ s.time.now →
    ∃ t, exec .buildTimeout s = .next t ∧ (if k = 0 then t.h.img.codeA else t.h.img.codeB) = 0x0E ∧
      t.h.img.trying = none ∧ t.h.img.image = none ∧ t.sys.mode = .hold ∧ t.sys.noImg = true)

/-- O17. BUILD commits the slot being tried where every check of it passes and the field die has verified its sections or is absent (R122 to R125, R127): its code is 0, the commit takes effect, and the field die is told; where a check has not passed, nothing changes. RUN entry (R75, R88, R126, R264): once BUILD has committed and the field die reports FRUN or is absent, the mode is RUN, the wake record ends, the MP starts at the ENTRY of its firmware, and the fuses the image asks for are noted (R120, R121). -/
def Obligations.BuildCommitsAndRunBegins : Prop :=
  (∀ (s : State) (k : Nat), s.sys.mode = .build → s.h.img.trying = some k → s.h.img.committed = false →
    (s.h.img.fieldOk = (fieldEntries (slotImage s k)).length ∨ fieldAbsent s = true) →
    exec .buildCommit s = .next (
      if slotCode s k s.h.img.fieldCode = 0 then
        sendImage 4 0 0 [] (
          let u := commitHost (parseImage k (slotImage s k)) (setCode k 0 { s with h.img.trying := none, h.img.rest := [], h.img.committed := true })
          if u.keeper.tampReport || u.keeper.lostReport then setInt 7 u else u)
      else s)) ∧
  (∀ (s : State) (im : Image), s.sys.mode = .build → s.sys.inReset = none → s.h.dbg.extest = false → s.h.img.committed = true → s.h.img.image = some im →
    (fmode s = 3 ∨ fieldAbsent s = true) →
    ∃ t, exec .runEntry s = .next t ∧ t.sys.mode = .run ∧ t.sys.wake.recording = false ∧ t.sys.holdLine = false ∧ t.sys.safeOut = .low ∧
      t.h.dbg.mpRun = true ∧ t.h.dbg.mpAt = entryOf s false ∧ t.h.jrn.loaded = true ∧ t.h.img.image = some im ∧
      t.h.img.floorPend = (bit im.flags 0 && decide (s.otp.floor < im.svn)) ∧
      t.h.img.revokePend = (bit im.flags 1 && !keyRevoked s (1 - im.keysel)) ∧ t.f.state = s.f.state ∧ t.otp = s.otp)

/-- O18. A fuse is blown with the budget arbiter's leave (R120, R121, R536): the security floor rises by one toward the image's SVN, or the other key slot is revoked, and the epoch rises by one for a root message; the leave is given back at the commit. -/
def Obligations.FusesBlowWithLeave : Prop :=
  (∀ (s : State) (im : Image), s.h.img.image = some im → holdsLeave s false 7 0 = true →
    exec (.otpFuseProgrammed false) s = .next (
      let u := giveLeave false 7 0 s
      if s.h.img.floorPend then { u with otp.floor := min 64 (s.otp.floor + 1), h.img.floorPend := decide (min 64 (s.otp.floor + 1) < im.svn) }
      else if s.h.img.revokePend then
        { u with otp.revoked1 := s.otp.revoked1 || im.keysel == 0, otp.revoked0 := s.otp.revoked0 || im.keysel != 0, h.img.revokePend := false }
      else u)) ∧
  (∀ s : State, holdsLeave s false 7 1 = true → s.h.keys.rootMsg = none →
    exec (.otpFuseProgrammed true) s = .next (giveLeave false 7 1 { s with otp.epoch := min 32 (s.otp.epoch + 1) })) ∧
  (∀ (s : State) (m : Bytes), holdsLeave s false 7 1 = true → s.h.keys.rootMsg = some m →
    ∃ t, exec (.otpFuseProgrammed true) s = .next t ∧ t.otp = { s.otp with epoch := min 32 (s.otp.epoch + 1) })

/-! ## STANDBY and wake -/

/-- O19. A write of SYS.CTRL.SLEEP, and the host SLEEP operation, enter STANDBY from RUN and DEGRADED (R62, R63, R88): the hold line is asserted and SAFE_OUT high at once, permission is withdrawn, the wake record is cleared with its listeners armed, the drain limit starts, and a debug session ends (R866). -/
def Obligations.SleepEntersStandby : Prop :=
  (∀ (s : State) (o : Origin), passes s o 0x14 1 → s.sys.mode.live = true →
    ∃ t, exec (.sysCtrlSleep o) s = .next t ∧ t.sys.mode = .standby ∧ t.sys.entering = true ∧ t.sys.holdLine = true ∧ t.sys.safeOut = .high ∧
      t.sys.drainAt = s.time.now + fieldOf s 0x20 0 8 * 1000000 ∧
      t.sys.wake = { Wake.reset with recording := true, armed := true, pulse := s.sys.wake.pulse, out := s.sys.wake.out } ∧
      t.h.listeners = (List.range 8).map (fun i => ⟨bit (reg s 0x24) (1 + i), 0, false⟩) ∧ t.h.dbg.open_ = false ∧
      t.h.fab = s.h.fab ∧ t.h.img.image = s.h.img.image ∧ t.f.state = s.f.state ∧ t.otp = s.otp ∧ t.flash = s.flash) ∧
  (∀ (s : State) (x : Txn), whole 9 x s → passes (received x s) .hostSpi 0x14 1 → s.sys.mode.live = true →
    ∃ t, exec (.sleep x) s = .next t ∧ t.sys.mode = .standby ∧ t.sys.entering = true ∧ t.sys.holdLine = true ∧ t.sys.safeOut = .high ∧
      t.h.port.presult = 0 ∧ t.h.port.prevSeq = x.seq % 256 ∧ t.h.port.miso = (misoWords s x.len).take (x.clocks / 32) ∧
      t.sys.drainAt = s.time.now + fieldOf s 0x20 0 8 * 1000000 ∧ t.h.dbg.open_ = false)

/-- O20. The entry into STANDBY completes once the queues are empty or the drain limit has passed (R62, R789, R857): the fabric and every unit outside the wake domain are without power. -/
def Obligations.StandbyDrainCompletes : Prop :=
  ∀ s : State, s.sys.mode = .standby → s.sys.entering = true → (s.h.fab.queues = [] ∨ s.sys.drainAt ≤ s.time.now) →
    ∃ t, exec .standbyDrainEnd s = .next t ∧ t.sys.entering = false ∧ t.h.fab = Fabric.reset ∧ t.h.can = HostDie.reset.can ∧ t.h.img = Img.reset ∧
      (s.h.fab.queues = [] → t.sys.mode = .standby ∧ t.sys.holdLine = true ∧ t.sys.safeOut = .high ∧ t.sys.wake = s.sys.wake ∧
        t.h = { HostDie.reset with
          listeners := s.h.listeners, touch := s.h.touch, eth := { EthAll.reset with ports := s.h.eth.ports }, lin := s.h.lin, port := s.h.port } ∧
        t.keeper = s.keeper ∧ t.f = s.f ∧ t.time = s.time)

/-- O21. The wake arbiter (R82 to R87, Table MOD-2): an enabled event is recorded as a candidate; the decision makes the least candidate by tick and code primary, starts WAKE_OUT unless it is the host resume, and begins BUILD with cause WAKE; the pulse ends at its time; and a host RESUME that is the least candidate is ACCEPTED. -/
def Obligations.WakeArbiterDecides : Prop :=
  (∀ (s : State) (src stamp : Nat), s.sys.wake.recording = true → wakeEnabled s src = true → src ≤ 31 →
    exec (.wakeEvent src stamp) s = .next { s with
      sys.wake := noteSecond { s.sys.wake with seen := Nat.lor s.sys.wake.seen (2 ^ src), cands := s.sys.wake.cands ++ [(src, stamp)] } }) ∧
  (∀ (s : State) (c : Nat × Stamp) (r : List (Nat × Stamp)), s.sys.mode = .standby → s.sys.entering = false → s.sys.wake.decided = false →
    s.sys.wake.recording = true → s.sys.wake.cands = c :: r → (∃ x ∈ c :: r, tickOf x.2 + 2 ≤ sysTick s) →
    ∃ t, exec .wakeDecision s = .next t ∧ t.sys.mode = .build ∧ t.sys.rstCause = 256 ∧ t.sys.buildAt = s.time.now ∧
      t.sys.wake.decided = true ∧ t.sys.wake.armed = false ∧ t.sys.wake.recording = true ∧
      t.sys.wake.primary = (r.foldl earlier c).1 ∧ t.sys.wake.t1 = (r.foldl earlier c).2 ∧
      ((r.foldl earlier c).1 ≠ 0 → t.sys.wake.out = true ∧ t.sys.wake.pulse = some (s.time.now + fieldOf s 0x20 8 8 * 100000)) ∧
      t.sys.holdLine = true ∧ t.sys.safeOut = .high ∧ t.h.img = Img.reset ∧ t.keeper = s.keeper ∧ t.f = s.f ∧ t.otp = s.otp) ∧
  (∀ (s : State) (p : Stamp), s.sys.wake.pulse = some p → p ≤ s.time.now →
    exec .wakeOutPulseEnd s = .next { s with sys.wake.pulse := none, sys.wake.out := false }) ∧
  (∀ (s : State) (x : Txn), whole 8 x s → s.sys.mode = .standby → s.sys.wake.recording = true → s.sys.wake.decided = false → s.sys.wake.cands = [] →
    exec (.resume x) s = .next (answered x s { received x s with
      sys.wake.seen := Nat.lor s.sys.wake.seen 1, sys.wake.cands := [(0, s.time.now)], h.port.presult := 0x10, h.port.prevDeferred := false })) ∧
  (∀ (s : State) (x : Txn), whole 8 x s → s.sys.mode.live = true → s.sys.wake.recording = false →
    exec (.resume x) s = .next (answered x s { received x s with h.port.presult := 0x12, h.port.prevDeferred := false }))

/-! ## Time -/

/-- O22. The commit of a tick (R163): every unit commits what is due, SYSCNT stands at the start of the next tick, the keeper counter is copied, and the graph takes its sample. A commit that resets the host die stops SYSCNT instead; without SYSCNT running there is no tick. -/
def Obligations.TickCommits : Prop :=
  (∀ (s : State) (codes : List Int), s.time.running = true →
    exec (.tickCommit codes) s = .next (
      let u := commitTick (curTick s) s
      intPins (if u.time.running then audioTick codes (advanceTime u) else u)) ∧
    ∃ t, exec (.tickCommit codes) s = .next t ∧
      (t.time.now = (s.time.now / 8 + 1) * 8 ∨ (t.time.now = s.time.now ∧ (commitTick (curTick s) s).time.running = false))) ∧
  (∀ (s : State) (codes : List Int), s.time.running = false → exec (.tickCommit codes) s = .next s)

/-- O23. TIM.RATE waits for the first beat after its write (R152, R177); TIM.PTPOFSL is held until TIM.PTPOFSH is written, and then both halves take effect together (R176); a read of TIM.NOWL loads TIM.NOWH with the same stamp's high half (R158). A write of 1 to SYS.DEGCAUSE.REACT clears it (R61), and the writer's origin is that of the change back to RUN (Table JRN-13); nothing else changes but what lies beside every write. -/
def Obligations.TimebaseAndDegcauseTakeEffect : Prop :=
  ((∀ (s : State) (o : Origin) (v : Word), passes s o 0x30008 v.toNat → ∃ t, exec (.timRateWrite o v) s = .next t ∧
    wrote s (fun u => { stored false o 0x30008 v.toNat u with time.rateNext := some (toSigned 32 v.toNat) }) t ∧ t.time.rate = s.time.rate) ∧
  (∀ (s : State) (o : Origin) (v : Word), passes s o 0x3000C v.toNat → ∃ t, exec (.timPtpofslWrite o v) s = .next t ∧
    wrote s (fun u => { u with time.ofslHeld := some v.toNat }) t ∧ t.time.ptpofs = s.time.ptpofs) ∧
  (∀ (s : State) (o : Origin) (v : Word), passes s o 0x30010 v.toNat → ∃ t, exec (.timPtpofshWrite o v) s = .next t ∧
    wrote s (fun u => { u with
      time.ptpofs := v.toNat * 2 ^ 32 + s.time.ofslHeld.getD (s.time.ptpofs % 2 ^ 32), time.ofslHeld := none }) t) ∧
  (∀ (s : State) (o : Origin), busMaster o = true → o ≠ .fs →
    exec (.timNowlRead o) s = .next { s with time.nowh := s.time.now / 2 ^ 32 })) ∧
  (∀ (s : State) (o : Origin), RegFile.wf s.regs = true → passes s o 0x1C 1 →
    ∃ u, beside [0x1C] s u ∧ fieldOf u 0x1C 0 1 = 0 ∧ exec (.sysDegcauseClear o) s = .next { u with sys.degOrigin := o.code })

/-! ## The host port -/

/-- O24. A discarded transaction changes no register, live table, queue, counter or buffer but SYS.HPCNT.DISC, SYS.INTSTAT.DISC and the status header (R205): of every host operation, a RESUME, RESET, SLEEP or service among them; beside that, only the words the port drove are those of this transaction (R202). -/
def Obligations.DiscardedTransactionChangesNothing : Prop :=
  ∀ (c : Instr) (op : Nat) (x : Txn) (s : State) (code : Nat), txnOf c = some (op, x) → portAlive s = true → discardCode op x = some code →
    RegFile.wf s.regs = true →
    ∃ rg, exec c s = .next { s with
        regs := rg
        h.port.presult := code, h.port.prevDeferred := false, h.port.prevSeq := if x.clocks < 32 then 0 else x.seq % 256,
        h.port.discnt := min 15 (s.h.port.discnt + 1), h.port.miso := (misoWords s x.len).take (x.clocks / 32) } ∧
      ∀ b, (RegFile.get rg b).toNat =
        if b = 0x48 then putBits (reg s 0x48) 0 16 (satAdd 16 (fieldOf s 0x48 0 16) 1)
        else if b = 0x4C then putBits (reg s 0x4C) 1 1 1 else reg s b

/-- O25. Host writes are all or none (R207, R219): where every write of a WRITE or WRITEL to the host die passes its checks in payload order, the journal takes them as one change, each takes effect in order, and the windows of the port end (R226); where one is refused, none takes effect, and PRESULT and SYS.WREFUSE name the first. Writes of remote registers go to the field die as one request (R208, R617). -/
def Obligations.HostWritesAllOrNone : Prop :=
  ∀ (s : State) (x : Txn) (op : Nat) (c : Instr), (op = 1 ∧ c = .write x ∨ op = 2 ∧ c = .writel x) → whole op x s →
    hostModeStatus s .hostSpi = none →
    ((∀ w ∈ txnWrites op x, (regAt w.1).isSome = true ∧ isRemote w.1 = false) → txnWrites op x ≠ [] →
      exec c s = .next (answered x s (match checkHostWrites .hostSpi (txnWrites op x) (received x s) [] with
        | .ok es => hostStatus 0 (portClosed ((txnWrites op x).foldl (fun s w => applyWrite false .hostSpi w.1 w.2 s) (jChange s.time.now 1 es (received x s))))
        | .error (a, st) => hostStatus st (portClosed (recordRefusal false .hostSpi a st (closeRefused .hostSpi a (received x s))))))) ∧
    (∀ u, (∀ w ∈ txnWrites op x, (regAt w.1).isSome = true ∧ isRemote w.1 = true) → txnWrites op x ≠ [] → (txnWrites op x).length ≤ 64 →
      s.h.port.deferred = none → checkRemoteWrites .hostSpi (txnWrites op x) (received x s) = .ok u →
      exec c s = .next (answered x s (if s.h.tahr.link
        then defer x op 0 [] false (portClosed (remoteSend .hostSpi 2 (txnWrites op x) (x.seq % 256) u))
        else defer x op 0x15 [] true (portClosed (received x s)))))

/-- O26. The other operations of the host port: NOP and FETCH have no effect beside the words driven (R215); a local READ leaves its words for the response buffer at its stamp (R212), a remote one is sent (R213); SEND submits its message at port 70 (R239); RECV takes the head message of port 70, or is EMPTY (R240); an operation outside Table HOST-2 is BADOP (R201); and a deferred operation's result replaces the response buffer and sets HDR.RDY (R211). -/
def Obligations.HostOperationsTakeEffect : Prop :=
  (∀ (s : State) (x : Txn), whole 0 x s →
    exec (.nop x) s = .next (answered x s { received x s with h.port.presult := 0, h.port.prevDeferred := false })) ∧
  (∀ (s : State) (x : Txn), whole 4 x s →
    exec (.fetch x) s = .next (answered x s { received x s with h.port.presult := 0, h.port.prevDeferred := false })) ∧
  (∀ (s : State) (x : Txn), whole 3 x s → s.h.port.deferred = none → readRefused s (readAddrs x) = false → isRemote x.addr = false →
    exec (.read x) s = .next (answered x s (
      let r := readWords false .hostSpi (readAddrs x) (received x s)
      { r.1 with
        h.port.rdy := false, h.port.prevDeferred := true, h.port.presult := 0x0F
        h.port.deferred := some ⟨x.seq % 256, 3, if (readAddrs x).any (fun a => (regAt a).isNone) then 5 else 0, r.1.time.now, r.2, true⟩ }))) ∧
  (∀ (s : State) (x : Txn), whole 3 x s → s.h.port.deferred = none → readRefused s (readAddrs x) = false → isRemote x.addr = true →
    exec (.read x) s = .next (answered x s (if s.h.tahr.link
      then remoteSend .hostSpi 1 [(x.addr, x.arg % 256 + 1)] (x.seq % 256) (defer x 3 0 [] false (received x s))
      else defer x 3 0x15 [] true (received x s)))) ∧
  (∀ (s : State) (x : Txn), whole 5 x s → msgRefused s = false →
    exec (.send x) s = .next (answered x s (hostStatus 0
      (submitMsg 70 ((wordBytes (x.payload.drop 1)).take (bits ((x.payload.headD 0).toNat) 0 16)) 2 (received x s))))) ∧
  (∀ (s : State) (x : Txn), whole 6 x s → s.h.port.deferred = none → msgRefused s = false →
    exec (.recv x) s = .next (answered x s (match takeHead (received x s) 70 with
      | none => defer x 6 0x13 [] true (received x s)
      | some (f, u) =>
        defer x 6 0 (BitVec.ofNat 32 (f.bytes.length % 65536 + f.inport % 256 * 65536) :: packWords (f.bytes.take 1020)) true u))) ∧
  (∀ (s : State) (op : Nat) (x : Txn), portAlive s = true → discardCode op x = none → fieldsOk op x = false →
    exec (.badop op x) s = .next (answered x s (bump { received x s with h.port.presult := 4, h.port.prevDeferred := false } 0x48 16 16 1))) ∧
  (∀ (s : State) (d : Deferred), s.h.port.deferred = some d → d.ready = true →
    ∃ t, exec .deferredComplete s = .next t ∧ t.h.port.rdy = true ∧ t.h.port.deferred = none ∧
      t.h.port.resp = [d.seq * 2 ^ 24 + d.status * 2 ^ 16 + d.op * 2 ^ 12 + d.data.length, half d.stamp 0, half d.stamp 1].map (BitVec.ofNat 32) ++ d.data ∧
      t.h.fab = s.h.fab ∧ t.f = s.f ∧ (∀ b, b ≠ 0x48 → b ≠ 0x4C → RegFile.get t.regs b = RegFile.get s.regs b))

/-- O27. Unlock windows, expert holds and plain registers (R142, R225, R226, R138): the key written to SYS.UNLOCK opens the writer's window and any other value closes it; an expiry closes it; IMG.RELEASE and IMG.RELEASEREC end the writer's hold and no other's; and a register with no effect of its own takes the value written. -/
def Obligations.WindowsHoldsAndPlainRegisters : Prop :=
  (∀ (s : State) (o : Origin) (v : Word), passes s o 0x40 v.toNat → ∃ t, exec (.sysUnlockWrite o v) s = .next t ∧
    wrote s (fun u => stored false o 0x40 v.toNat u) t ∧
    (let w := if v.toNat = 0x7C3E1D52 then KMap.put s.h.port.windows o.code (windowLength o) else KMap.del s.h.port.windows o.code
     t.h.port.windows = if o = .hostSpi then KMap.del w o.code else w)) ∧
  (∀ (s : State) (o : Origin) (field : Bool), exec (.unlockWindowExpire o field) s = .next
    (if field then { s with f.windows := KMap.del s.f.windows o.code } else { s with h.port.windows := KMap.del s.h.port.windows o.code })) ∧
  (∀ (s : State) (o : Origin) (v : Word), passes s o 0x40040 v.toNat → ∃ t, exec (.imgRelease o v) s = .next t ∧
    wrote s (fun u => stored false o 0x40040 v.toNat u) t ∧
    (let r := bits v.toNat 2 22 * 4
     let ends := fun (m : KMap Nat) => if KMap.getD m r 0 = o.code then KMap.del m r else m
     t.f.holds = ends s.f.holds ∧
     t.h.img.holds = if permLevel s o (blockOf 0x40040) = 2 then KMap.put (ends s.h.img.holds) 0x40040 o.code else ends s.h.img.holds)) ∧
  (∀ (s : State) (o : Origin) (v : Word), passes s o 0x40048 v.toNat → ∃ t, exec (.imgReleaserec o v) s = .next t ∧
    wrote s (fun u =>
      let k := liveKey (bits v.toNat 0 7) (bits v.toNat 16 16)
      let w := stored false o 0x40048 v.toNat u
      if KMap.getD s.h.img.recHolds k 0 = o.code then { w with h.img.recHolds := KMap.del s.h.img.recHolds k } else w) t) ∧
  (∀ (s : State) (o : Origin) (a : Nat) (v : Word), passes s o a v.toNat → plain a = true → ∃ t, exec (.registerWrite o a v) s = .next t ∧
    wrote s (fun u => stored false o a v.toNat u) t)

/-! ## The boot flash and the live tables -/

/-- O28. Boot-flash operations (R234, R235): a write of SYS.FLCTL.CMD starts its operation at SYS.FLADDR where it may, and otherwise leaves the one under way; at its end a page is read into SYS.FLDATA, programmed from it, or a sector is erased, and a flash error leaves the flash as it is. -/
def Obligations.FlashOperationsStartAndEnd : Prop :=
  (∀ (s : State) (o : Origin) (k : Nat) (c : Instr),
    (k = 1 ∧ c = .flashReadPage o ∨ k = 2 ∧ c = .flashProgramPage o ∨ k = 3 ∧ c = .flashErase4k o ∨ k = 4 ∧ c = .flashErase64k o) → passes s o 0x60 k →
    ∃ t, exec c s = .next t ∧ wrote s (fun u => flashStart k (stored false o 0x60 k u)) t ∧
      (flashMayStart s k → t.h.port.flash = some (k, fieldOf s 0x64 0 26)) ∧ (¬ flashMayStart s k → t.h.port.flash = s.h.port.flash) ∧ t.flash = s.flash) ∧
  (∀ (s : State) (k a : Nat), s.h.port.flash = some (k, a) →
    exec (.flashOpComplete false) s = .next (setField { s with h.port.flash := none } 0x60 12 4 2) ∧
    (k = 1 → ∃ t, exec (.flashOpComplete true) s = .next t ∧ t.h.port.flash = none ∧ t.flash = s.flash ∧ t.f = s.f ∧
      (∀ b, (∀ j, j < 64 → b ≠ 0x100 + 4 * j) → RegFile.get t.regs b = RegFile.get s.regs b) ∧
      (RegFile.wf s.regs = true → ∀ j, j < 64 → reg t (0x100 + 4 * j) = leNat (s.flash.read (a + 4 * j) 4) % 2 ^ 32)) ∧
    (k = 2 → exec (.flashOpComplete true) s = .next { s with
      h.port.flash := none
      flash := s.flash.program a ((List.range 64).flatMap (fun j => le 4 (reg s (0x100 + 4 * j)))) }) ∧
    (k = 3 → exec (.flashOpComplete true) s = .next { s with h.port.flash := none, flash := s.flash.erase a 0x1000 }) ∧
    (k = 4 → exec (.flashOpComplete true) s = .next { s with h.port.flash := none, flash := s.flash.erase a 0x10000 })) ∧
  (∀ (s : State) (ok : Bool), s.h.port.flash = none → exec (.flashOpComplete ok) s = .next s)

/-- O29. Changes of live tables through GTW.LTCTL.OP (R380, R381), each on the record that the writer's LTSEL names: WRITE and DELETE change it, STAGE and STAGEDEL add it to the writer's list, COMMIT makes the listed changes in order, DISCARD empties the list, and READ loads LTDATA and PRESENT. -/
def Obligations.LiveTableOperationsTakeEffect : Prop :=
  (∀ (s : State) (o : Origin), passes s o 0x210004 1 → ∃ t, exec (.ltWrite o) s = .next t ∧
    wrote s (fun u => ltApply o (ltChange s o true) (stored false o 0x210004 1 u)) t) ∧
  (∀ (s : State) (o : Origin), passes s o 0x210004 2 → ∃ t, exec (.ltDelete o) s = .next t ∧
    wrote s (fun u => ltApply o (ltChange s o false) (stored false o 0x210004 2 u)) t) ∧
  (∀ (s : State) (o : Origin), passes s o 0x210004 3 → ∃ t, exec (.ltStage o) s = .next t ∧
    wrote s (fun u => setStaging o (stagingOf s o ++ [ltChange s o true]) (stored false o 0x210004 3 u)) t) ∧
  (∀ (s : State) (o : Origin), passes s o 0x210004 4 → ∃ t, exec (.ltStagedel o) s = .next t ∧
    wrote s (fun u => setStaging o (stagingOf s o ++ [ltChange s o false]) (stored false o 0x210004 4 u)) t) ∧
  (∀ (s : State) (o : Origin), passes s o 0x210004 5 → ∃ t, exec (.ltCommit o) s = .next t ∧
    wrote s (fun u => setStaging o [] ((stagingOf s o).foldl (fun x c => ltApply o c x) (stored false o 0x210004 5 u))) t) ∧
  (∀ (s : State) (o : Origin), passes s o 0x210004 6 → ∃ t, exec (.ltDiscard o) s = .next t ∧
    wrote s (fun u => setStaging o [] (stored false o 0x210004 6 u)) t) ∧
  (∀ (s : State) (o : Origin), passes s o 0x210004 7 → ∃ t, exec (.ltRead o) s = .next t ∧
    wrote s (fun u =>
      let sel := reg s (o.code * 0x1000000 + 0x210000)
      let r := KMap.get? s.h.img.live (liveKey (bits sel 0 7) (bits sel 16 16))
      setField ((List.range 16).foldl (fun x k => setReg x (o.code * 0x1000000 + 0x210010 + 4 * k) (wordAt (r.getD []) k)) (stored false o 0x210004 7 u))
        (o.code * 0x1000000 + 0x210004) 16 1 (b2n r.isSome)) t)

/-! ## The journal's messages -/

/-- O30. The journal's messages: a due drain message is submitted at port 66 with the oldest unsent entries, at most BATCH (R254, R255), and an acknowledgement at port 66 is accepted, freeing the entries up to ACKSEQ, with REWIND marking every later entry unsent (R256, R257); any other is counted in JRN.CNT.BADACK. -/
def Obligations.JournalMessagesTakeEffect : Prop :=
  (∀ s : State, jDrainDue s = true →
    let es := (s.h.jrn.entries.filter (fun e => e.unsent)).take (fieldOf s 0x10010 0 5)
    exec .journalDrain s = .next { s with
      h.jrn.awaiting := es.head?.map (fun e => (e.seq, es.length))
      h.fab.ingress := s.h.fab.ingress ++ [⟨66, s.time.now, s.time.now, nextSeq s 66, 2, 4, jDrainBytes es, false, 1⟩]
      h.fab.seqs := KMap.put s.h.fab.seqs 66 ((nextSeq s 66 + 1) % 65536) }) ∧
  (∀ (s u : State) (f : Frame), takeHead s 66 = some (f, u) → jAckOk s f.bytes = true → bit (fieldLE f.bytes 2 1) 0 = false →
    exec .journalAck s = .next (jAccept f.bytes u)) ∧
  (∀ (s u : State) (f : Frame), takeHead s 66 = some (f, u) → jAckOk s f.bytes = true → bit (fieldLE f.bytes 2 1) 0 = true →
    ∃ t, exec .journalRewind s = .next t ∧ t.h.jrn.ackSeq = fieldLE f.bytes 4 4 ∧ t.h.jrn.sentSeq = fieldLE f.bytes 4 4 ∧
      ∀ e ∈ t.h.jrn.entries, e.unsent = true) ∧
  (∀ (s u : State) (f : Frame), takeHead s 66 = some (f, u) → jAckOk s f.bytes = false →
    exec .journalAck s = .next (bump u 0x10014 16 16 1) ∧ exec .journalRewind s = .next s)

/-! ## Gateway, fabric and virtual ports -/

/-- O31. Frames on their way (R277, R287, R293, R319, R330, R331): a pipeline classifies its port's next event, drops it where it is out, and waits under buffer pressure (R323); an egress port releases the heads every port has passed; the express matcher makes one cell time; and the scheduler's choice starts on the wire, moves into a transmit slot or a publish buffer, or is taken by its endpoint. -/
def Obligations.FramesMoveOn : Prop :=
  (∀ (s : State) (p : Nat) (e : Event), readyEvent s p = some e →
    exec (.gatewayClassify p) s = .next (
      if ingressOut s p then drainOver e (bump (dropEvent e s) 0x60024 0 32 1)
      else if s.h.fab.pressure then s
      else drainOver e (classifyEvent e (dropEvent e s)))) ∧
  (∀ (s : State) (e : Nat), exec (.headRelease e) s = .next (
    let ready := sortBy frameKey (s.h.fab.ordered.filter (fun f => f.queue / 16 == e && releasable s f))
    ready.foldl (fun u f => setQueue u f.queue (queueOf u f.queue ++ [f]))
      { s with h.fab.ordered := s.h.fab.ordered.filter (fun f => !(ready.map (fun g => g.id)).contains f.id) })) ∧
  (∀ s : State, ∃ t, exec .expressMatch s = .next t ∧ t.h.fab.occ = s.h.fab.occ ∧ t.h.fab.ordered = s.h.fab.ordered ∧ t.regs = s.regs ∧
    (∀ f ∈ t.h.fab.express, f ∈ s.h.fab.express) ∧ ∀ p ∈ t.h.fab.pairs, 0 < p.left) ∧
  (∀ (s u : State) (e : Nat) (f : Frame), e ≤ 11 → KMap.get? s.h.fab.txing e = none → scheduled s e = some (f, u) →
    exec (.egressSchedule e) s = .next (ethStart e f u)) ∧
  (∀ (s u : State) (n : Nat) (f : Frame), n < 24 → (freeSlot (canOf s n)).isSome = true → scheduled s (16 + n) = some (f, u) →
    exec (.egressSchedule (16 + n)) s = .next (placeFrame n f.bytes f.queue f.pres u)) ∧
  (∀ (s : State) (n : Nat) (b : Bytes) (r : List Bytes), n < 8 → (freeSlot (canOf s (24 + n))).isSome = true → nth s.f.inbox n [] = b :: r →
    exec (.egressSchedule (40 + n)) s = .next (placeFrame (24 + n) b 0 (fnow s) { s with f.inbox := setNth s.f.inbox n r })) ∧
  (∀ (s u : State) (c : Nat) (f : Frame), c < 8 → scheduled s (48 + c) = some (f, u) →
    exec (.egressSchedule (48 + c)) s = .next (linMove c f.bytes u)) ∧
  (∀ (s u : State) (e : Nat) (f : Frame), e = 64 ∨ e = 67 ∨ e = 68 → takeHead s e = some (f, u) → exec (.egressSchedule e) s = .next u)

/-- O32. The fabric's control (R300, R319, R323, R327, R332, R333): a port's model credit covers its head entries and gives their cells back; a stopped port purges what passed its hold limit; divergence and buffer pressure raise their sources; gate intervals end; and FAB.PLANECTL and FAB.GBASE take effect as written. -/
def Obligations.FabricControlTakesEffect : Prop :=
  (∀ (s : State) (e : Nat), exec (.modelDeparture e) s = .next (
    let c := coverEntries (fifoOf s e) (KMap.getD s.h.fab.credit e 0)
    let u := setFifo (giveBack s c.2.2) e c.1
    { u with h.fab.credit := if c.1.isEmpty then KMap.del u.h.fab.credit e else KMap.put u.h.fab.credit e c.2.1 })) ∧
  (∀ (s : State) (e : Nat), wasStopped s e = true → exec (.holdLimitPurge e) s = .next (
    ((List.range 16).flatMap (fun q => (queueOf s (e * 16 + q)).filter (fun f =>
      decide (tickOf f.pres + 125000 * fieldOf s (0x100088 + e * 0x1000) 0 16 < curTick s)))).foldl purgeFrame s)) ∧
  (∀ (s : State) (e : Nat), wasStopped s e = false → exec (.holdLimitPurge e) s = .next s) ∧
  (∀ (s : State) (e : Nat), e < 256 → exec (.ledgerDivergence e) s = .next { s with
    h.flt.pend := s.h.flt.pend ++ [⟨curTick s, 0x40 + e / 16, 0, s.time.now, false⟩] }) ∧
  (∀ s : State, exec .bufferPressure s = .next { s with
    h.fab.pressure := true, h.flt.pend := s.h.flt.pend ++ [⟨curTick s, 0x50, 0, s.time.now, false⟩] }) ∧
  (∀ s : State, exec .bufferPressureEnd s = .next { s with h.fab.pressure := false }) ∧
  (∀ (s : State) (e i stop start : Nat), KMap.get? s.h.fab.gate e = some (i, stop, start) → tickOf stop ≤ curTick s →
    exec (.gateIntervalEnd e) s = .next (
      let l := KMap.getD s.h.fab.gateList e []
      if i + 1 < l.length then
        { s with h.fab.gate := KMap.put s.h.fab.gate e (i + 1, stop + fieldLE (nth l (i + 1) []) 0 4, start) }
      else gateAt e stop (gateRecs (takeBase e s) e) (takeBase e s))) ∧
  (∀ (s : State) (o : Origin) (v : Word), passes s o 0x10C000 v.toNat → ∃ t, exec (.planectlWrite o v) s = .next t ∧
    wrote s (fun u => planeEffect 4 (bit (standing o 0x10C000 u) 1) (bit v.toNat 1)
      (planeEffect 3 (bit (standing o 0x10C000 u) 0) (bit v.toNat 0) (stored false o 0x10C000 v.toNat u))) t) ∧
  (∀ (s : State) (o : Origin) (e : Nat) (v : Word), e ≤ 11 → passes s o (0x100098 + e * 0x1000) v.toNat → ∃ t, exec (.fabGbaselWrite o e v) s = .next t ∧
    wrote s (fun u => { u with h.fab.gbaslHeld := KMap.put u.h.fab.gbaslHeld e v.toNat }) t) ∧
  (∀ (s : State) (o : Origin) (e : Nat) (v : Word), e ≤ 11 → passes s o (0x10009C + e * 0x1000) v.toNat → ∃ t, exec (.fabGbasehWrite o e v) s = .next t ∧
    wrote s (fun u => gbaseEffect e v.toNat u) t)

/-- O33. Virtual ports (R370, R375, R378): a port consumes its next input by its role, once no periodic boundary comes first; the containers of a reached boundary are emitted and wait for the next; and an open AVTPDU is emitted at its MAXWAIT. -/
def Obligations.VirtualPortsActByRole : Prop :=
  (∀ (s : State) (v : Nat) (f : Frame), nextInput s v = some f → (∀ b ∈ portBoundaries s v, tickOf f.pres < tickOf b.2) →
    exec (.virtualPortConsume v) s = .next (
      let u := setQueue s f.queue ((queueOf s f.queue).drop 1)
      match vrole s v with
      | 1 => emitAt v f.pres f.stamp f.kk f.bytes f.err u
      | 2 => if f.kk = 5 then containerInput f u else u
      | 3 => encapInput v f u
      | 4 => decapInput v f u
      | _ => u)) ∧
  (∀ (s : State) (v k b : Nat) (r : List (Nat × Nat)), portBoundaries s v = (k, b) :: r → b ≤ s.time.now →
    (∀ i, oldestInput s v = some i → tickOf b ≤ i) → (∀ i, oldestUnreleased s v = some i → tickOf b ≤ i) →
    exec (.containerPeriodicEmit v) s = .next ((((k, b) :: r).filter (fun x => x.2 == b)).foldl (fun u x =>
      let w := emitContainer x.1 b b u
      match liveRec w 0x17 x.1 with
      | some c => { w with h.gtw.boundary := KMap.put w.h.gtw.boundary x.1 (b + fieldLE c 4 4 * 1000) }
      | none => w) s)) ∧
  (∀ (s : State) (k : Nat) (r : Bytes), liveRec s 0x18 k = some r → (tunnelOf s k).count ≠ 0 → (tunnelOf s k).first + fieldLE r 4 2 * 1000 ≤ s.time.now →
    exec (.acfTimedEmit k) s = .next (emitTunnel k ((tunnelOf s k).first + fieldLE r 4 2 * 1000) s))

/-! ## CAN FD -/

/-- O34. Writes of CAN.CTL and CAN.TXABORT, by a master of the host die to controllers 0 to 23 and by the FS to FCAN0 to FCAN7, take effect (R398, R399, R407, R415); a controller integrates, ends its bus-off recovery, and the field die's status records take their turns (R399, R407, R421). -/
def Obligations.CanControlTakesEffect : Prop :=
  (∀ (s : State) (o : Origin) (n : Nat) (v : Word), n < 24 → passes s o (0x400000 + n * 0x1000) (v.toNat % 2) →
    ∃ t, exec (.canCtlInitWrite o n v) s = .next t ∧ wrote s (fun u =>
      canInitEffect n (bit (standing o (0x400000 + n * 0x1000) u) 0) (bit v.toNat 0) (stored false o (0x400000 + n * 0x1000) (v.toNat % 2) u)) t) ∧
  (∀ (s : State) (n : Nat) (v : Word), 24 ≤ n → n < 32 → passesFs s (0x400000 + n * 0x1000) (v.toNat % 2) →
    ∃ t, exec (.canCtlInitWrite .fs n v) s = .next t ∧ wroteFs (0x400000 + n * 0x1000) (v.toNat % 2) (fun u =>
      canInitEffect n (bit (standingFs (0x400000 + n * 0x1000) u) 0) (bit v.toNat 0) (stored true .fs (0x400000 + n * 0x1000) (v.toNat % 2) u)) s t) ∧
  (∀ (s : State) (o : Origin) (n : Nat), n < 24 → passes s o (0x400000 + n * 0x1000) (reg s (canReg n 0) % 2 + 2) →
    ∃ t, exec (.canRecover o n) s = .next t ∧ wrote s (fun u =>
      canRecoverEffect n (canInitEffect n (bit (standing o (0x400000 + n * 0x1000) u) 0) (bit (reg s (canReg n 0)) 0)
        (stored false o (0x400000 + n * 0x1000) (reg s (canReg n 0) % 2 + 2) u))) t) ∧
  (∀ (s : State) (n : Nat), 24 ≤ n → n < 32 → passesFs s (0x400000 + n * 0x1000) (reg s (canReg n 0) % 2 + 2) →
    ∃ t, exec (.canRecover .fs n) s = .next t ∧ wroteFs (0x400000 + n * 0x1000) (reg s (canReg n 0) % 2 + 2) (fun u =>
      canRecoverEffect n (canInitEffect n (bit (standingFs (0x400000 + n * 0x1000) u) 0) (bit (reg s (canReg n 0)) 0)
        (stored true .fs (0x400000 + n * 0x1000) (reg s (canReg n 0) % 2 + 2) u))) s t) ∧
  (∀ (s : State) (o : Origin) (n : Nat) (v : Word), n < 24 → passes s o (0x400020 + n * 0x1000) v.toNat →
    ∃ t, exec (.canTxabort o n v) s = .next t ∧ wrote s (fun u =>
      canAbortEffect n (bits v.toNat 0 8) (stored false o (0x400020 + n * 0x1000) v.toNat u)) t) ∧
  (∀ (s : State) (n : Nat) (v : Word), 24 ≤ n → n < 32 → passesFs s (0x400020 + n * 0x1000) v.toNat →
    ∃ t, exec (.canTxabort .fs n v) s = .next t ∧ wroteFs (0x400020 + n * 0x1000) v.toNat (fun u =>
      canAbortEffect n (bits v.toNat 0 8) (stored true .fs (0x400020 + n * 0x1000) v.toNat u)) s t) ∧
  (∀ (s : State) (n : Nat), (canOf s n).state = 1 → (canOf s n).tec ≤ 255 → exec (.canBusIntegrate n) s = .next (
    setCan s n { canOf s n with state := if 127 < (canOf s n).tec ∨ 127 < (canOf s n).rxErr then 3 else 2 })) ∧
  (∀ (s : State) (n : Nat), (canOf s n).state = 5 →
    exec (.busOffRecoveryEnd n) s = .next (canPortState n (setCan s n { canOf s n with state := 2, tec := 0, rxErr := 0 }))) ∧
  (∀ s : State, s.f.state = .frun ∨ s.f.state = .fhold ∨ s.f.state = .alone → minintOver s true 8 8 = true →
    exec .fcanStatusReport s = .next (fieldSend 8 0 (statusPayload s (s.f.statusNext % 16 / 2) (s.f.statusNext % 16 % 2))
      { s with f.statusNext := (s.f.statusNext % 16 + 1) % 16 }))

/-- O35. CAN frames and errors (R400, R403 to R408, R411 to R418): an attempt offers the eligible slot of the lowest arbitration key, a completed frame frees its slot and lowers TEC, a failed attempt keeps or removes its frame, the transmit stall blocks its port, and a received frame is handed on with its stamp, or lost where eight wait. The error counts follow ISO 11898-1 (log entry 10). -/
def Obligations.CanFramesAndErrors : Prop :=
  (∀ (s : State) (n m i : Nat) (x : Slot), canActive (canOf s n) = true → canRestricted (canOf s n) = false → attemptSlot (canOf s n) = none →
    offerSlot (canOf s n) = some i → nth (canOf s n).slots i none = some x →
    exec (.canTxAttempt n m) s = .next (setCan s n { canOf s n with
      slots := (canOf s n).slots.set i (some { x with attempt := true, tries := satAdd 16 x.tries 1 })
      tdcv := if bit (canIdw (wireFrame (canOf s n) x.body)) 31 && bit (fieldLE (wireFrame (canOf s n) x.body) 4 1) 0 && bit (canOf s n).tdc 16 && decide (m ≤ 127)
        then m else (canOf s n).tdcv
      wire := some (wireFrame (canOf s n) x.body) })) ∧
  (∀ (s : State) (n i : Nat), attemptSlot (canOf s n) = some i →
    exec (.canTxComplete n) s = .next (finishStop n (endStall n true (settleErrors n
      { canOf s n with
        slots := (canOf s n).slots.set i none, lastDone := s.time.now, wire := none
        tec := if canRestricted (canOf s n) then (canOf s n).tec else (canOf s n).tec - 1 }
      (bump s (canReg n 0x24) 0 16 1))))) ∧
  (∀ (s : State) (n i code more : Nat) (dp nd sa : Bool), attemptSlot (canOf s n) = some i → code ≤ 6 →
    exec (.canTxAttemptFail n code dp nd sa more) s = .next (finishStop n (canAttemptOver n (
      if code = 0 then bump s (canReg n 0x2C) 16 16 1
      else
        let u := canErrCode n code dp s
        settleErrors n { canOf u n with tec := tecAfterError (canOf u n) code nd sa more } u)))) ∧
  (∀ (s : State) (n : Nat), stallDue s n = true →
    exec (.canTransmitStall n) s = .next (canPortState n (setCan s n { canOf s n with stall := true }))) ∧
  (∀ (s : State) (n stamp : Nat) (b : Bytes), n < 32 → canActive (canOf s n) = true → canBodyOk b = true →
    (bit (canIdw b) 31 = true → bit (canOf s n).cfg 0 = true) → (n < 24 → isLate s stamp = false) →
    exec (.canRxFrame n stamp b) s = .next (
      if 8 ≤ rxWaiting (canRxCount n s) n then
        raise (if n < 24 then 0x18 + n else 0x108 + (n - 24)) (if n < 24 then n else n - 24) (bump (canRxCount n s) (canReg n 0x30) 16 16 1)
      else if n < 24 then submitAt (16 + n) stamp stamp 0 1 (overlay b 6 [0, 0]) false 0 (bump (canRxCount n s) (canReg n 0x30) 0 16 1)
      else
        let u := bump (canRxCount n s) (canReg n 0x30) 0 16 1
        fieldSendAt 8 0 stamp ([byte (n - 24), byte (fcanCredit u (n - 24)), 0, 0] ++ overlay b 6 [0, 0]) u)) ∧
  (∀ (s : State) (n stamp : Nat) (b : Bytes), n < 24 → canActive (canOf s n) = true → canBodyOk b = true →
    (bit (canIdw b) 31 = true → bit (canOf s n).cfg 0 = true) → isLate s stamp = true → exec (.canRxFrame n stamp b) s = .next (dropLate s)) ∧
  (∀ (s : State) (n code more : Nat) (dp fb fd : Bool), canActive (canOf s n) = true → 1 ≤ code → code ≤ 6 →
    exec (.canRxError n code dp fb fd more) s = .next (
      let u := canErrCode n code dp s
      if canRestricted (canOf u n) then u
      else settleErrors n { canOf u n with rxErr := recAfterError (canOf u n).rxErr fb fd more } u))

/-- O36. Wake listeners (R424, R425): a decoded frame lowers the error counter and raises the wake source where it matches; an error raises the counter, at most to 32; and at 32 the source is raised once. -/
def Obligations.WakeListenersListen : Prop :=
  (∀ (s : State) (l stamp ident dlc : Nat) (ide : Bool) (data : Bytes), (listenerOf s l).armed = true →
    exec (.listenerWakeFrame l stamp ide ident dlc data) s = .next (
      let u := setListener l { listenerOf s l with fec := (listenerOf s l).fec - 1 } s
      if wakeMatch s l ide ident dlc data then wakeEvent (2 + l) stamp u else u)) ∧
  (∀ (s : State) (l : Nat), (listenerOf s l).armed = true →
    exec (.listenerFrameError l) s = .next (setListener l { listenerOf s l with fec := min 32 ((listenerOf s l).fec + 1) } s)) ∧
  (∀ (s : State) (l stamp : Nat), (listenerOf s l).armed = true → (listenerOf s l).fec = 32 → (listenerOf s l).fecOvf = false →
    exec (.listenerFecOverflow l stamp) s = .next (wakeEvent (2 + l) stamp (setListener l { listenerOf s l with fecOvf := true } s))) ∧
  (∀ (s : State) (l stamp ident dlc : Nat) (ide : Bool) (data : Bytes), (listenerOf s l).armed = false →
    exec (.listenerWakeFrame l stamp ide ident dlc data) s = .next s ∧ exec (.listenerFrameError l) s = .next s ∧ exec (.listenerFecOverflow l stamp) s = .next s)

/-! ## LIN -/

/-- O37. The LIN schedule, sleep and wake, and bus fault (R432, R436, R437, R438): a master's slot starts the header of its schedule record, or the sleep frame once sleep is asked for; writes of LIN.CTL act as their fields state; a wake pulse makes a sleeping controller operational, and its master's schedule resumes after WAKEDLY; 4 s of silence send a slave to sleep; and a bus fault blocks the port until it ends. -/
def Obligations.LinScheduleSleepAndFault : Prop :=
  (∀ (s : State) (c : Nat), linMaster s c = true → (linOf s c).state = 0 → (linOf s c).resume = none → (linOf s c).sleepPend = false →
    exec (.linSlotStart c) s = .next (
      let n := nextTable s c
      let l := { linOf s c with table := n.1, back := n.2.1, pos := n.2.2 + 1, schedPend := none }
      match (schedSlots s c n.1)[n.2.2]? with
      | none => setLin s c { l with pos := 0, header := none }
      | some (ix, r) =>
        let u := setLin s c { l with slotRec := ix, header := none }
        if fieldLE r 2 1 = 2 then (match sporadic u c (fieldLE r 8 8) with | none => u | some fid => startHeader c fid 2 0xFF u)
        else startHeader c (fieldLE r 3 1) (fieldLE r 2 1) (fieldLE r 6 1) u)) ∧
  (∀ (s : State) (c : Nat), linMaster s c = true → (linOf s c).state = 0 → (linOf s c).resume = none → (linOf s c).sleepPend = true → c < s.h.lin.length →
    ∃ t, exec (.linSlotStart c) s = .next t ∧ (linOf t c).state = 1 ∧ (linOf t c).sleepPend = false ∧
      (linOf t c).wire = [0, 255, 255, 255, 255, 255, 255, 255, byte (linCksum 0 0x3C [0, 255, 255, 255, 255, 255, 255, 255])] ∧ 48 + c ∈ t.h.fab.blocked) ∧
  (∀ (s : State) (o : Origin) (c : Nat) (v : Word), c < 8 → passes s o (linReg c 0) (v.toNat % 16) → ∃ t, exec (.linSchedWrite o c v) s = .next t ∧
    wrote s (fun u => linCtlEffect c (standing o (linReg c 0) u) (v.toNat % 16) (stored false o (linReg c 0) (v.toNat % 16) u)) t) ∧
  (∀ (s : State) (o : Origin) (c : Nat), c < 8 → passes s o (linReg c 0) (reg s (linReg c 0) % 16 + 0x100) → ∃ t, exec (.linSleep o c) s = .next t ∧
    wrote s (fun u => linCtlEffect c (standing o (linReg c 0) u) (reg s (linReg c 0) % 16 + 0x100)
      (stored false o (linReg c 0) (reg s (linReg c 0) % 16 + 0x100) u)) t) ∧
  (∀ (s : State) (o : Origin) (c : Nat), c < 8 → passes s o (linReg c 0) (reg s (linReg c 0) % 16 + 0x200) → ∃ t, exec (.linWake o c) s = .next t ∧
    wrote s (fun u => linCtlEffect c (standing o (linReg c 0) u) (reg s (linReg c 0) % 16 + 0x200)
      (stored false o (linReg c 0) (reg s (linReg c 0) % 16 + 0x200) u)) t) ∧
  (∀ (s : State) (c : Nat), (linOf s c).state = 1 ∨ (linOf s c).state = 3 → exec (.linWakePulse c) s = .next (linPortState c (setLin s c { linOf s c with
    state := 0, pulse := false, pos := 0, back := none, table := fieldOf s (linReg c 0) 0 4
    resume := if linMaster s c then some (s.time.now + fieldOf s (linReg c 4) 8 8 * 1000000) else none }))) ∧
  (∀ (s : State) (c t : Nat), (linOf s c).resume = some t → t ≤ s.time.now → exec (.linScheduleResume c) s = .next (setLin s c { linOf s c with resume := none })) ∧
  (∀ (s : State) (c : Nat), linMaster s c = false → (linOf s c).state = 0 → exec (.linIdleSleep c) s = .next (linPortState c (setLin s c
    { linOf s c with state := 1, sleepPend := false, header := none, resume := none }))) ∧
  (∀ (s : State) (c : Nat), (linOf s c).state ≠ 2 → c < 16 → exec (.linBusFault c) s = .next (
    let u := linPortState c (setLin s c { linOf s c with state := 2, header := none, pulse := false })
    { u with h.flt.pend := u.h.flt.pend ++ [⟨curTick s, 0x30 + c, c, s.time.now, false⟩] })) ∧
  (∀ (s : State) (c : Nat), (linOf s c).state = 2 → exec (.linBusFaultEnd c) s = .next (linPortState c (setLin s c { linOf s c with state := 0 })))

/-- O38. LIN frames (R433 to R435): a slave takes a header addressed to it and publishes its buffer; a response on a subscribed identifier is checked, counted, and handed on with its stamp and its bytes, and an erroneous one after an event-triggered header counts a collision at the master; one that stays away is counted. That a header of wrong parity is passed over is presumed (log entry 10). -/
def Obligations.LinFramesTakeEffect : Prop :=
  (∀ (s : State) (c fid : Nat) (sleep : Bool), fid < 64 → linMaster s c = false → (linOf s c).state = 0 →
    exec (.linHeaderRx c (linPid fid) sleep) s = .next (if sleep && fid == 0x3C
      then linPortState c (setLin s c { linOf s c with state := 1, sleepPend := false, header := none, resume := none })
      else publish (setLin s c { linOf s c with header := some (fid, 0, 0xFF), headerAt := s.time.now, wire := [] }) c fid)) ∧
  (∀ (s : State) (c stamp pid ck : Nat) (d r : Bytes), (linOf s c).state = 0 → respRec s c (pid % 64) = some r → fieldLE r 2 1 = 2 →
    ck = linCksum (fieldLE r 4 1) pid d →
    exec (.linResponseRx c stamp pid ck d false) s = .next (submitAt (48 + c) stamp stamp 0 2 ([byte pid, byte d.length, byte ck, byte (fieldLE r 4 1)] ++ d) false 0
      (bump (setLin s c { linOf s c with header := none }) (linReg c 0x10) 0 16 1))) ∧
  (∀ (s : State) (c stamp pid ck : Nat) (d r : Bytes) (e : Bool), (linOf s c).state = 0 → respRec s c (pid % 64) = some r → fieldLE r 2 1 = 2 →
    e = true ∨ ck ≠ linCksum (fieldLE r 4 1) pid d →
    exec (.linResponseRx c stamp pid ck d e) s = .next (
      let u := bump (setLin s c { linOf s c with header := none }) (linReg c 0x14) (if e then 16 else 0) 16 1
      match (linOf s c).header with
      | some (_, 1, alt) => if linMaster u c then linCollision c alt u else u
      | _ => u)) ∧
  (∀ (s : State) (c fid typ alt : Nat) (r : Bytes), (linOf s c).header = some (fid, typ, alt) → respRec s c fid = some r → fieldLE r 2 1 = 2 →
    linOverdue s c (fieldLE r 3 1) = true →
    exec (.linNoResponse c) s = .next (bump (setLin s c { linOf s c with header := none }) (linReg c 0x10) 16 16 1))

/-! ## Ethernet -/

/-- O39. Ethernet ports (R167, R456, R457, R459 to R463, R469, R470, R475): a received frame is checked, counted and submitted with its SFD stamp, or enters as an errored body; a late one is dropped; the link moves the port's blocking; a collision ends the attempt, the sixteenth the frame; PLCA restarts; and a read of TSTX0 pops the ring of transmit stamps. -/
def Obligations.EthernetPortsTakeEvents : Prop :=
  (∀ (s : State) (p stamp : Nat) (f : Bytes), p ≤ 11 → hostOn s = true → isLate s stamp = false → 60 ≤ f.length →
    f.length + 4 ≤ fieldOf s (ethReg p 0) 16 14 → fieldBE f 12 2 ≠ 0x8808 →
    exec (.ethRxFrame p stamp f true) s = .next (match macsecRx p f s with
      | (u, none) => u
      | (u, some b) => submitAt p stamp stamp 0 3 b false 0 (bump u (ethReg p 0x40) 0 32 1))) ∧
  (∀ (s : State) (p stamp : Nat) (f : Bytes), p ≤ 11 → hostOn s = true → isLate s stamp = false → 60 ≤ f.length →
    f.length + 4 ≤ fieldOf s (ethReg p 0) 16 14 →
    exec (.ethRxFrame p stamp f false) s = .next (submitAt p stamp stamp 0 3 f true 0 (bump s (ethReg p 0x44) 0 16 1))) ∧
  (∀ (s : State) (p stamp : Nat) (f : Bytes) (ok : Bool), p ≤ 11 → hostOn s = true → isLate s stamp = true →
    exec (.ethRxFrame p stamp f ok) s = .next (dropLate s)) ∧
  (∀ (s : State) (p sqi : Nat) (up an : Bool), p ≤ 11 → exec (.ethLinkChange p up sqi an) s = .next (
    let woke := up && t1Port p && (ethOf s p).t1 == 3
    ethPortState p (setEth (if woke then bump s (ethReg p 0x54) 16 16 1 else s) p { ethOf s p with
      link := up, t1 := if woke then 0 else (ethOf s p).t1, sqi := if t1Port p then sqi % 8 else 0
      anDone := decide (2 ≤ p) && decide (p ≤ 5) && bit (reg (if woke then bump s (ethReg p 0x54) 16 16 1 else s) (ethReg p 0)) 3 && an }))) ∧
  (∀ (s : State) (p : Nat) (f : Frame), p = 10 ∨ p = 11 → KMap.get? s.h.fab.txing p = some f → exec (.ethCollision p) s = .next (
    if 16 ≤ (ethOf s p).attempts then
      setEth (bump { s with h.fab.txing := KMap.del s.h.fab.txing p } (ethReg p 0x50) 16 16 1) p { ethOf s p with attempts := 0, plcaRestart := false }
    else setEth s p { ethOf s p with attempts := (ethOf s p).attempts + 1 })) ∧
  (∀ (s : State) (o : Origin) (p : Nat) (b : Bool) (v : Word), p ≤ 11 → passes s o (ethReg p (if b then 0x10 else 0x0C)) v.toNat →
    ∃ t, exec (.ethPlcaWrite o p b v) s = .next t ∧ wrote s (fun u =>
      let w := stored false o (ethReg p (if b then 0x10 else 0x0C)) v.toNat u
      setEth w p { ethOf w p with plcaRestart := (KMap.get? w.h.fab.txing p).isSome }) t) ∧
  (∀ (s : State) (o : Origin) (p : Nat), p ≤ 11 → busMaster o = true → o ≠ .fs → exec (.ethTstx0Pop o p) s = .next (match (ethOf s p).ring with
    | [] => setReg (setReg s (ethReg p 0x24) 0) (ethReg p 0x28) 0
    | r :: rest => setReg (setReg (setEth s p { ethOf s p with ring := rest }) (ethReg p 0x24) (r.stamp / 2 ^ 32)) (ethReg p 0x28)
        (pack [(0, 16, r.seqId), (16, 4, r.msgType), (20, 1, 1), (24, 8, r.domain)])))

/-- O40. TC10 sleep and wake of the T1 ports (R464, R465, R495, R496, Table ETH-2): SLEEP from NORMAL requests, an acknowledgement or an accepted partner request sleeps, a rejection or the time limit returns to NORMAL and counts, and a wake leads from SLEEP to WAKING, or, where the wake record runs, stamps its wake source. -/
def Obligations.Tc10MovesThePort : Prop :=
  (∀ (s : State) (o : Origin) (p : Nat), t1Port p = true → passes s o (ethReg p 8) (reg s (ethReg p 8) % 16 / 4 * 4 + 1) →
    ∃ t, exec (.tc10Sleep o p) s = .next t ∧ wrote s (fun u =>
      let w := stored false o (ethReg p 8) (reg s (ethReg p 8) % 16 / 4 * 4 + 1) u
      if (ethOf w p).t1 = 0 then setT1 p 1 w else w) t) ∧
  (∀ (s : State) (o : Origin) (p : Nat), t1Port p = true → passes s o (ethReg p 8) (reg s (ethReg p 8) % 16 / 4 * 4 + 2) →
    ∃ t, exec (.tc10Wake o p) s = .next t ∧ wrote s (fun u =>
      let w := stored false o (ethReg p 8) (reg s (ethReg p 8) % 16 / 4 * 4 + 2) u
      if (ethOf w p).t1 = 2 then setT1 p 3 w else w) t) ∧
  (∀ (s : State) (p : Nat), t1Port p = true → (ethOf s p).t1 = 1 →
    exec (.tc10SleepAck p) s = .next (setT1 p 2 s) ∧
    exec (.tc10SleepreqTimeout p) s = .next (setT1 p 0 (bump s (ethReg p 0x54) 0 16 1)) ∧
    exec (.tc10PartnerSleep p) s = .next (setT1 p 2 s)) ∧
  (∀ (s : State) (p : Nat), t1Port p = true → (ethOf s p).t1 = 0 →
    exec (.tc10PartnerSleep p) s = .next (if bit (reg s (ethReg p 8)) 2 then setT1 p 2 s else s)) ∧
  (∀ (s : State) (p stamp : Nat), t1Port p = true → s.sys.wake.recording = false → s.sys.mode ≠ .standby → (ethOf s p).t1 = 2 →
    exec (.tc10WakeDetect p stamp) s = .next (setT1 p 3 s)) ∧
  (∀ (s : State) (p stamp : Nat), t1Port p = true → s.sys.wake.recording = true → s.sys.mode = .standby →
    exec (.tc10WakeDetect p stamp) s = .next (wakeEvent (0x0A + (p - 6)) stamp s))

/-- O41. MDIO frames and packet numbers (R458, R486, R502): a write of ETH.MDIOCMD starts the frame its OP names, or reads ERR 1 while one is under way; at its end a read's data appear; PNL is held until PNH is written, and then both halves stand. -/
def Obligations.MdioFramesAndPacketNumbers : Prop :=
  (∀ (s : State) (o : Origin) (v : Word) (op : Nat) (c : Instr),
    (op = 0 ∧ c = .mdioAddress o v ∨ op = 1 ∧ c = .mdioWrite o v ∨ op = 2 ∧ c = .mdioRead o v ∨ op = 3 ∧ c = .mdioReadIncrement o v) →
    passes s o 0x44F000 (putBits v.toNat 11 2 op) →
    ∃ t, exec c s = .next t ∧ wrote s (fun u =>
      let w := stored false o 0x44F000 (putBits v.toNat 11 2 op) u
      if w.h.eth.mdio.isSome then setField w 0x44F000 30 1 1
      else { setField w 0x44F000 30 1 0 with h.eth.mdio := some (putBits v.toNat 11 2 op % 2 ^ 13) }) t) ∧
  (∀ (s : State) (c data : Nat), s.h.eth.mdio = some c → exec (.mdioComplete data) s = .next (
    if 2 ≤ bits c 11 2 then setField { s with h.eth.mdio := none } 0x44F004 0 16 data else { s with h.eth.mdio := none })) ∧
  (∀ (s : State) (o : Origin) (p k : Nat) (rx : Bool) (v : Word), p ≤ 5 → k < (if rx then 16 else 4) → passes s o (saBase p rx k + 4) v.toNat →
    ∃ t, exec (.ethSapnlWrite o p rx k v) s = .next t ∧ wrote s (fun u => { u with h.eth.pnHeld := KMap.put u.h.eth.pnHeld (saBase p rx k + 4) v.toNat }) t) ∧
  (∀ (s : State) (o : Origin) (p k : Nat) (rx : Bool) (v : Word), p ≤ 5 → k < (if rx then 16 else 4) → passes s o (saBase p rx k + 8) v.toNat →
    ∃ t, exec (.ethSapnhWrite o p rx k v) s = .next t ∧ wrote s (fun u => setReg (setReg
      { u with h.eth.pnHeld := KMap.del u.h.eth.pnHeld (saBase p rx k + 4) } (saBase p rx k + 4)
        ((KMap.get? u.h.eth.pnHeld (saBase p rx k + 4)).getD (reg u (saBase p rx k + 4)))) (saBase p rx k + 8) v.toNat) t)

/-! ## Tamper, grace keys, update and network management messages -/

/-- O42. A tamper detection of a watched source, wherever the device has supply (R507, R508, R510, R537): the root key is zeroed and every vault entry, slot, pending, grace and run-time key erased; the root state passes from VALID to TAMPERED; the source, the count and the stamp are kept; the debug session ends; and a root message on its way goes no further. The end of the disturbance only shows in KEY.STATUS.TAMPACT (R513). -/
def Obligations.TamperErasesEveryKey : Prop :=
  (∀ (s : State) (src : Nat), s.sys.mode ≠ .noSupply → tampWatched s src = true → ∃ t, exec (.tamperDetect src) s = .next t ∧
    t.keeper.root = List.replicate 32 0 ∧ t.keeper.vault = [] ∧ t.h.keys.slots = [] ∧ t.h.keys.roles = [] ∧ t.h.keys.rt = [] ∧ t.h.keys.rootMsg = none ∧
    t.keeper.rootState = (if s.keeper.rootState = 0 then 1 else s.keeper.rootState) ∧ t.keeper.tampSrc = src ∧
    t.keeper.tampCount = min 255 (s.keeper.tampCount + 1) ∧
    t.keeper.tampStamp = (if s.time.running then s.time.now else s.keeper.ctr * 2 ^ 15) ∧
    t.h.dbg.open_ = false ∧ t.otp = s.otp ∧ t.flash = s.flash ∧ t.time = s.time ∧ t.sys.mode = s.sys.mode) ∧
  (∀ s : State, exec (.tamperConditionEnd 1) s = .next { s with h.keys.meshOpen := false } ∧
    exec (.tamperConditionEnd 2) s = .next { s with h.keys.caseA := false } ∧
    exec (.tamperConditionEnd 3) s = .next { s with h.keys.caseB := false })

/-- O43. Update messages (R530, R532, R533, R536): the message at the head of port 65, taken by the row of its first operation while no root message is under way, is rejected with the number of the first of checks 1 to 3 that fails, answered where a later check fails, waits for leave where it carries ROOT, and otherwise takes effect with all its operations. Network management requests (R488, R489): the request at the head of port 65 is rejected at the first check that fails, with its reason in ETH.NMREJ and one more in ETH.NMCNT.REJECTED; one that passes sets the counter floor to its CNT before its operations run. And a grace key is erased once its grace has ended (R541). -/
def Obligations.UpdatesManagementAndGrace : Prop :=
  (∀ (s u : State) (f : Frame) (c : Instr) (p : Nat → Bool),
    (c = .updateDelete ∧ p = (fun x => x == 2)) ∨ (c = .updateRoot ∧ p = (fun x => x == 3)) ∨ (c = .updateRegwrite ∧ p = (fun x => x == 4)) ∨
      (c = .updateInject ∧ p = (fun x => !(x == 2 || x == 3 || x == 4))) →
    s.h.keys.rootMsg = none → takeHead s 65 = some (f, u) → 16 ≤ f.bytes.length → fieldLE f.bytes 0 2 = 0x0E11 → p (fieldLE f.bytes 0x20 1) = true →
    exec c s = .next (match updOps f.bytes with
      | none => updReject 1 u
      | some ops =>
        if slice f.bytes 0x10 16 ≠ u.otp.uid then updReject 2 u
        else if updSigned u f.bytes = false then updReject 3 u
        else match updCheck u f.bytes ops with
          | some (st, i) => updAnswer f.bytes st i u
          | none =>
            if Nat.testBit (fieldLE f.bytes 0x0A 2) 0 then askLeave false 7 1 u.time.now { u with h.keys.rootMsg := some f.bytes }
            else updCommit f.bytes u.otp.epoch ops u)) ∧
  (∀ (s : State) (m : Bytes), s.h.keys.rootMsg = some m → exec .updateInject s = .next s ∧ exec .updateDelete s = .next s ∧
    exec .updateRoot s = .next s ∧ exec .updateRegwrite s = .next s) ∧
  (∀ (s u : State) (f : Frame), takeHead s 65 = some (f, u) → 16 ≤ f.bytes.length → fieldLE f.bytes 0 2 = 0x0E01 →
    exec .netMgmtRequest s = .next (match nmReason u f.bytes with
      | some n => nmReject n u
      | none =>
        match verifyRoles u (fieldLE f.bytes 0x10 2) 10 (f.bytes.take (f.bytes.length - 16)) (slice f.bytes (f.bytes.length - 16) 16) with
        | .nokey => nmReject 4 u
        | .bad => nmReject 5 u
        | .good w => if fieldLE f.bytes 8 8 ≤ w.keeper.nmFloor then nmReject 6 w else nmRun f.bytes w)) ∧
  (∀ (s : State) (h t : Nat) (k : Bytes), (roleOf s h).grace = some (k, t) →
    (curTick s < t → exec (.graceExpiry h) s = .next s) ∧
    (t ≤ curTick s → exec (.graceExpiry h) s = .next (keyEvent 3 h 4 0 (dropSlots h (some 2) (setRole h { roleOf s h with grace := none } s))))) ∧
  (∀ (s : State) (h : Nat), (roleOf s h).grace = none → exec (.graceExpiry h) s = .next s)

/-! ## Services and the SP's engines -/

/-- O44. Every service of Table CRY-5 is taken by both its paths (R567, R568, R569): the request at the head of port 65, with the priority of its message up to the configured bound, and the SERVICE transaction, whose fields, port and permission are checked in order and whose answer the port defers. The commands of a service take no other service's request. -/
def Obligations.ServicesAreTakenByBothPaths : Prop :=
  (∀ (c : Instr) (code : Nat) (run : SvcReq → State → State × SvcOut) (s u : State) (f : Frame),
    serviceOf c = some (code, .fabric, run) → takeHead s 65 = some (f, u) → 16 ≤ f.bytes.length →
    fieldLE f.bytes 0 2 = 0x0E21 → fieldLE f.bytes 2 1 = code →
    exec c s = .next (takeRequest code (runService run) f.inport f.seq (min (fieldLE f.bytes 3 1 % 8) (fieldOf u 0x90010 4 3)) f.bytes u)) ∧
  (∀ (c : Instr) (code : Nat) (run : SvcReq → State → State × SvcOut) (x : Txn) (s : State),
    serviceOf c = some (code, .host x, run) → x.arg = code → whole 7 x s →
    let b := wordBytes x.payload
    let u := received x s
    let wellLaid := fieldLE b 2 1 = code ∧ x.len = ceilDiv (16 + fieldLE b 12 2 + fieldLE b 14 2) 4 ∧
      (b.drop (16 + fieldLE b 12 2 + fieldLE b 14 2)).any (fun z => z != 0) = false ∧ fieldLE b 0 2 = 0x0E21
    let hears := columnNow u ≠ .standby ∧ columnNow u ≠ .build
    (¬ wellLaid → exec c s = .next (answered x s (hostStatus 4 u))) ∧
    (wellLaid → s.h.port.deferred.isSome = true → exec c s = .next (answered x s (hostStatus 14 u))) ∧
    (wellLaid → s.h.port.deferred = none → ¬ hears → exec c s = .next (answered x s (hostStatus 6 u))) ∧
    (wellLaid → s.h.port.deferred = none → hears → svcAllowed u code = false → exec c s = .next (answered x s (hostStatus 8 u))) ∧
    (wellLaid → s.h.port.deferred = none → hears → svcAllowed u code = true →
      exec c s = .next (answered x s (takeRequest code (runService run) 0xFF (x.seq % 256) (min (fieldLE b 3 1 % 8) (fieldOf s 0x90010 0 3)) b
        (defer x 7 0 [] false u))))) ∧
  (∀ (c : Instr) (code : Nat) (run : SvcReq → State → State × SvcOut) (x : Txn) (s : State),
    serviceOf c = some (code, .host x, run) → x.arg ≠ code → exec c s = .next s) ∧
  (∀ (s u : State) (f : Frame), takeHead s 65 = some (f, u) → f.bytes.length < 16 → exec .serviceBadmsg s = .next (bump u 0x90014 16 16 1)) ∧
  (∀ (s u : State) (f : Frame), takeHead s 65 = some (f, u) →
    fieldLE f.bytes 0 2 ≠ 0x0E21 → fieldLE f.bytes 0 2 ≠ 0x0E01 → fieldLE f.bytes 0 2 ≠ 0x0E11 → exec .serviceBadmsg s = .next (bump u 0x90014 16 16 1))

/-- O45. The SP's work (R556 to R564, R569, R579, R580): a service job that has its leave, its context and no block left ends with its answer; at the end of an LME row the row's effect stands and the next context is the one the engine picks; an SHA-2 engine's block ends; and the DRBG reseeds after 65,536 generate requests or once a failed entropy test has passed again. -/
def Obligations.SpEnginesDoTheirWork : Prop :=
  (∀ (s : State) (id : Nat) (j : SpJob), jobOf s id = some j → j.work = 0 → j.leave ≠ 1 → (j.engine ≠ 0 → j.ctx.isSome = true) → j.blocks = 0 →
    exec (.spJobComplete id) s = .next (deliverAnswer j (endJob j j.status s).2 (endJob j j.status s).1)) ∧
  (∀ (s : State) (id : Nat) (j : SpJob), jobOf s id = some j → j.work = 0 → (j.leave = 1 ∨ j.blocks ≠ 0 ∨ j.engine ≠ 0 ∧ j.ctx = none) →
    exec (.spJobComplete id) s = .next s) ∧
  (∀ (s : State) (issues : List LmeIssue), ∃ t, exec (.lmeRowEnd issues) s = .next t ∧
    t.h.sp.lmeRun = lmePick (issues.foldl lmeIssueOne (match s.h.sp.lmeRun with | some c => lmeRunRow c s | none => s))) ∧
  (∀ (s : State) (e c : Nat) (j : SpJob), e < 2 → shaRun s e = some c → c / 8 = e → jobOf s j.id = some j →
    s.h.sp.jobs.filter (fun x => x.engine == 3 && x.ctx == some c) = [j] →
    ∃ t k, exec (.shaBlockEnd e) s = .next t ∧ jobOf t j.id = some k ∧ k.blocks = j.blocks - 1 ∧ t.h.sp.jobs.length = s.h.sp.jobs.length ∧
      t.keeper = s.keeper ∧ t.h.keys = s.h.keys ∧ t.regs = s.regs) ∧
  (∀ s : State, s.h.sp.health = true → s.h.sp.gens < 65536 → exec .drbgReseed s = .next s) ∧
  (∀ s : State, s.h.sp.health = false ∨ 65536 ≤ s.h.sp.gens → exec .drbgReseed s =
    .next (bump { s with h.sp.health := true, h.sp.gens := 0 } 0x90018 16 16 1)) ∧
  (∀ s : State, exec .entropyTestFail s = .next { s with
    h.sp.health := false, h.flt.pend := s.h.flt.pend ++ [⟨curTick s, 0x5A, 0, s.time.now, false⟩] })

/-! ## The Tahr link -/

/-- O46. Frames, training and heartbeats (R601, R603, R605 to R609, R628, R630): a frame that is not sound asks for a resend, one in sequence is taken, with the frames held behind it, and one beyond a gap is held; a failed third transmission retrains; a lane is retired once; training completes with one lane each way; a silent direction sends null frames; heartbeats are sent and handled; and 1 ms without one takes the link down at a die. -/
def Obligations.TahrFramesTrainingAndHeartbeats : Prop :=
  (∀ (s : State) (b : Bytes) (d : Bool), dieOn s true = true → frameOk b d = false →
    exec (.tahrFrameRx true b d) s = .next { s with f.fe := { s.f.fe with nak := some s.f.fe.rxNext } }) ∧
  (∀ (s : State) (b : Bytes) (d : Bool), dieOn s true = true → frameOk b d = true → fieldLE b 0 1 % 64 ≠ 0 →
    let u := takeHeader true b s
    let e := u.f.fe
    let f : TFrame := ⟨fieldLE b 0 1 % 64, fieldLE b 1 1, fieldLE b 6 1, extend32 (fnow u) (fieldLE b 8 4),
      bit (fieldLE b 0 1) 6, bit (fieldLE b 0 1) 7, slice b 16 (fieldLE b 4 1), 0⟩
    (e.rxNext = fieldLE b 1 1 → exec (.tahrFrameRx true b d) s =
      .next (takeHeld true 32 (takeSegment true f { u with f.fe := { e with rxNext := (e.rxNext + 1) % 256, nak := none } }))) ∧
    ((fieldLE b 1 1 + 256 - e.rxNext) % 256 ≠ 0 → (fieldLE b 1 1 + 256 - e.rxNext) % 256 < 33 → e.rxHeld.length < 32 →
      (∀ g ∈ e.rxHeld, g.seq ≠ fieldLE b 1 1) →
      exec (.tahrFrameRx true b d) s = .next { u with f.fe := { e with nak := some e.rxNext, rxHeld := e.rxHeld ++ [f] } })) ∧
  (∀ (s : State) (b : Bytes) (d : Bool), dieOn s false = true → exec (.tahrFrameRx false b d) s = .next (takeAnswers (frameRx false b d s))) ∧
  (∀ (s : State) (fld : Bool) (b : Bytes) (d : Bool), dieOn s fld = false → exec (.tahrFrameRx fld b d) s = .next s) ∧
  (∀ s : State, (∃ g, (g ∈ s.h.tahr.fe.unacked ∨ g ∈ s.f.fe.unacked) ∧ 3 ≤ g.sends) → ∃ t, exec .tahrRetrain s = .next t ∧
    t.h.tahr.fe.train = true ∧ t.f.fe.train = true ∧ t.h.tahr.fe.nextSeq = s.h.tahr.fe.nextSeq ∧ t.f.fe.nextSeq = s.f.fe.nextSeq ∧
    t.h.tahr.fe.rxNext = s.h.tahr.fe.rxNext ∧ t.f.fe.rxNext = s.f.fe.rxNext ∧ t.h.tahr.link = s.h.tahr.link ∧
    t.h.tahr.fe.unacked = s.h.tahr.fe.unacked.map (fun g => { g with sends := 1 }) ∧ t.f.fe.unacked = s.f.fe.unacked.map (fun g => { g with sends := 1 })) ∧
  (∀ (s : State) (l : Nat), l < 6 →
    (dieOn s true = true → Nat.testBit s.f.fe.retired l = false → exec (.laneRetire true l) s = .next (raise 0x116 0 { s with
      f.fe := { s.f.fe with retired := s.f.fe.retired + 2 ^ l, laneReq := some (l + 1), nak := some s.f.fe.rxNext } })) ∧
    (dieOn s false = true → Nat.testBit s.h.tahr.fe.retired l = false → exec (.laneRetire false l) s = .next (raise 0x054 0 (bump { s with
      h.tahr.fe := { s.h.tahr.fe with retired := s.h.tahr.fe.retired + 2 ^ l, laneReq := some (l + 1), nak := some s.h.tahr.fe.rxNext } } 0x600008 24 8 1)))) ∧
  (∀ s : State, s.h.tahr.fe.train = true ∨ s.f.fe.train = true →
    exec .trainingRetry s = .next { s with h.tahr.fe.train := true, f.fe.train := true } ∧
    (dieOn s false = true → dieOn s true = true → activeLanes s.h.tahr.fe ≠ 0 → activeLanes s.f.fe ≠ 0 →
      ∃ t, exec .trainingComplete s = .next t ∧ t.h.tahr.fe.train = false ∧ t.f.fe.train = false ∧ t.h.tahr.syncN = 0 ∧ t.f.synced = false)) ∧
  (∀ s : State,
    (dieOn s true = true → s.f.fe.train = false → s.f.fe.lastTx + 128 ≤ fnow s → exec (.nullFrameSend true) s = .next { s with f.fe.lastTx := fnow s }) ∧
    (dieOn s false = true → s.h.tahr.fe.train = false → s.h.tahr.fe.lastTx + 128 ≤ s.time.now →
      exec (.nullFrameSend false) s = .next { s with h.tahr.fe.lastTx := s.time.now })) ∧
  (∀ (s : State) (field : Bool), dieOn s field = true → (endOf s field).train = false →
    exec (.heartbeatSend field) s = .next (enqueueMsg field 1 0 (dieNow s field) (heartbeat s field) s)) ∧
  (∀ (s u : State) (m : XMsg), takeInbox true (fun m => m.typ == 1) s = some (m, u) → exec (.heartbeatRx true) s = .next (fieldHeartbeat m u)) ∧
  (∀ (s u : State) (m : XMsg), takeInbox false (fun m => m.typ == 1) s = some (m, u) → exec (.heartbeatRx false) s = .next (heartbeatAtHost m u)) ∧
  (∀ s : State, dieOn s false = true → s.h.tahr.fe.lastHb + 1000000 ≤ s.time.now → s.h.tahr.link = true →
    exec (.linkDown false) s = .next (remoteDown (hostLinkDown s))) ∧
  (∀ s : State, dieOn s true = true → s.f.fe.lastHb + 1000000 ≤ fnow s → ∃ t, exec (.linkDown true) s = .next t ∧ t.f.fe.train = true ∧
    (s.f.state = .frun → t.f.state = .alone ∧ t.f.granted = false ∧ t.f.permit = false))

/-- O47. Time alignment, remote accesses and image transfer (R98, R124, R213, R617, R620, R621): an exchange is started, answered and measured; a REMOTE request is executed on the field die, a write all or nothing, and answered; a field start is accepted or dropped by the field state; and the sections sent take effect at the commit that finds all of them whole. -/
def Obligations.CrossingRequestsTakeEffect : Prop :=
  (∀ s : State, dieOn s false = true → s.h.tahr.fe.train = false → ∃ t, exec .timesyncRequest s = .next t ∧ t.h.tahr.syncT1 = s.time.now) ∧
  (∀ (s u : State) (m : XMsg) (arr : Nat), takeInbox true (fun m => m.typ == 2 && fieldLE m.payload 0 1 == 1) s = some (m, u) →
    exec (.timesyncRx true arr) s = .next (
      let n := fieldLE m.payload 1 1
      let w := if n = 0 then u else takeOffset (toSigned 64 (fieldLE m.payload 24 8)) u
      (sendMsg true 2 0 (fnow w) ([byte 2, byte n] ++ List.replicate 6 0 ++ le 8 (fnow w) ++ le 8 arr ++ le 8 0) w).1)) ∧
  (∀ (s u : State) (m : XMsg) (arr : Nat), takeInbox false (fun m => m.typ == 2 && fieldLE m.payload 0 1 == 2) s = some (m, u) →
    (fieldLE m.payload 1 1 = u.h.tahr.syncN → exec (.timesyncRx false arr) s = .next (
      reportOffset (Int.tdiv (((fieldLE m.payload 16 8 : Nat) - (u.h.tahr.syncT1 : Int)) - ((arr : Int) - (fieldLE m.payload 8 8 : Nat))) 2)
        { u with h.tahr.syncN := u.h.tahr.syncN % 255 + 1 })) ∧
    (fieldLE m.payload 1 1 ≠ u.h.tahr.syncN → exec (.timesyncRx false arr) s = .next u)) ∧
  (∀ (s u : State) (m : XMsg) (a n : Nat) (r : List (Nat × Nat)), takeInbox true (fun m => m.typ == 3 && fieldLE m.payload 0 1 == 1) s = some (m, u) →
    remoteEntries m = (a, n) :: r →
    let addrs := (List.range (min 256 n)).map (fun i => a + 4 * i)
    (m.origin ≠ 4 → exec .remoteRead s = .next (
      let x := readWords true (originOf m.origin) addrs u
      remoteReply m.origin (fieldLE m.payload 2 2) 0 0 (fnow u) x.2 x.1)) ∧
    (m.origin = 4 → exec .remoteRead s = .next (
      remoteReply 4 (fieldLE m.payload 2 2) 0 0 (fnow u) (addrs.map (fun x => BitVec.ofNat 32 (peekAt true .debug u x))) u))) ∧
  (∀ (s u : State) (m : XMsg), takeInbox true (fun m => m.typ == 3 && fieldLE m.payload 0 1 == 2) s = some (m, u) →
    exec .remoteWrite s = .next (match remoteWriteRun (originOf m.origin) (remoteEntries m) 0 u with
      | .ok t => remoteReply m.origin (fieldLE m.payload 2 2) 0 0 (fnow u) [] { t with f.windows := u.f.windows }
      | .error (st, i, a) => remoteReply m.origin (fieldLE m.payload 2 2) st i (fnow u) [] (recordRefusal true (originOf m.origin) a st u))) ∧
  (∀ (s u : State) (m : XMsg), takeInbox true (fun m => m.typ == 6 && fieldLE m.payload 0 1 == 1) s = some (m, u) →
    (u.f.state = .wait ∨ u.f.state = .fbuild ∨ u.f.state = .alone ∨ (u.f.state = .frun ∨ u.f.state = .fhold) ∧ u.f.hold = true →
      ∃ t, exec .fieldStart s = .next t ∧ t.f.state = .fbuild ∧ t.f.newDigest = slice m.payload 8 48 ∧ t.f.digest = [] ∧ t.f.permit = false ∧
        t.f.fe.train = true ∧ t.h.tahr.fe.train = true) ∧
    ((u.f.state = .frun ∨ u.f.state = .fhold) ∧ u.f.hold = false → exec .fieldStart s = .next (bump u 0x82002C 0 16 1))) ∧
  (∀ (s u : State) (m : XMsg), takeInbox true (fun m => m.typ == 6 && fieldLE m.payload 0 1 == 2) s = some (m, u) → u.f.state = .fbuild →
    m.payload.length = 56 → fieldLE m.payload 11 1 = 1 ∨ fieldLE m.payload 11 1 = 2 → fieldLE m.payload 16 4 ≤ 0x1000000 →
    exec .imageEntry s = .next { u with
      f.entries := u.f.entries.filter (fun x => x.1 != fieldLE m.payload 2 2) ++ [(fieldLE m.payload 2 2, slice m.payload 8 48)]
      f.data := u.f.data.filter (fun x => x.1 != fieldLE m.payload 2 2) ++ [(fieldLE m.payload 2 2, [])] }) ∧
  (∀ (s u : State) (m : XMsg) (i j : Nat) (e d : Bytes), takeInbox true (fun m => m.typ == 6 && fieldLE m.payload 0 1 == 3) s = some (m, u) →
    u.f.state = .fbuild → u.f.entries.find? (fun x => x.1 == fieldLE m.payload 2 2) = some (i, e) →
    u.f.data.find? (fun x => x.1 == fieldLE m.payload 2 2) = some (j, d) → fieldLE m.payload 4 4 = d.length →
    d.length + (m.payload.length - 8) ≤ fieldLE e 8 4 →
    let whole := d ++ m.payload.drop 8
    let w := { u with f.data := u.f.data.map (fun x => if x.1 = fieldLE m.payload 2 2 then (fieldLE m.payload 2 2, whole) else x) }
    (whole.length < fieldLE e 8 4 → exec .imageData s = .next w) ∧
    (whole.length = fieldLE e 8 4 → exec .imageData s = .next (
      sendResult (if padTo 32 (Config.sha256 whole) = slice e 16 32 then 0 else 1) (fieldLE m.payload 2 2) w))) ∧
  (∀ (s u : State) (m : XMsg), takeInbox true (fun m => m.typ == 6 && fieldLE m.payload 0 1 == 4) s = some (m, u) → u.f.state = .fbuild →
    (fieldVerified u = true → ∃ t, exec .imageCommit s = .next t ∧ t.f.digest = u.f.newDigest ∧ t.f.matrix = recs t 0x0A 0) ∧
    (fieldVerified u = false → exec .imageCommit s = .next u)) ∧
  (∀ (s u : State) (m : XMsg), takeInbox true (fun m => m.typ == 6 && fieldLE m.payload 0 1 == 5) s = some (m, u) →
    exec .imageAbort s = .next { u with f.entries := [], f.data := [] }) ∧
  (∀ (s u : State) (m : XMsg), takeInbox false (fun m => m.typ == 6) s = some (m, u) →
    (fieldLE m.payload 0 1 ≠ 0 → ∃ t, exec .imageResult s = .next t ∧ t.h.img.fieldCode = fieldLE m.payload 0 1 ∧ t.h.img.fieldOk = u.h.img.fieldOk) ∧
    (fieldLE m.payload 0 1 = 0 → ∃ t, exec .imageResult s = .next t ∧ t.h.img.fieldOk = u.h.img.fieldOk + 1))

/-- O48. What a die sends across and what the other makes of it (R74, R245, R612 to R615, R629, R662, R678, R778, R779): reports and journal messages are handled at their presentation ticks; the FS's and port 69's bodies, FCAN frames, fault reports and measurement records are sent, refused or held; the FS takes its receive messages in order; and the field die enters FRUN where its conditions hold. -/
def Obligations.CrossingMessagesAreSentAndTaken : Prop :=
  (∀ (s u : State) (m : XMsg), takeInbox false (fun m => m.typ == 4 && dueMsg s false m) s = some (m, u) →
    exec .fieldFaultReport s = .next (handleReport m u)) ∧
  (∀ (s u : State) (m : XMsg), takeInbox false (fun m => m.typ == 9 && dueMsg s false m) s = some (m, u) → fieldLE m.payload 8 4 < 0xFFFF0000 →
    ∃ t, exec .fieldJournalReport s = .next t ∧ t.h.jrn = (jChange (fieldLE m.payload 0 8) (fieldLE m.payload 16 1)
      [(1, fieldLE m.payload 17 1, le 4 (fieldLE m.payload 8 4) ++ le 4 (fieldLE m.payload 12 4))] u).h.jrn ∧ t.f = u.f ∧
      (fieldLE m.payload 17 1 = 2 → Origin.governed (originOf (fieldLE m.payload 16 1)) = true →
        KMap.get? t.h.img.holds (fieldLE m.payload 8 4) = some (fieldLE m.payload 16 1))) ∧
  (∀ (s : State) (p : Bytes) (r : List Bytes), s.f.flt.reports = p :: r → s.f.state = .frun ∨ s.f.state = .fhold ∨ s.f.state = .alone →
    minintOver s true 4 0 = true → exec .faultReportSend s = .next (fieldSend 4 0 p { s with f.flt.reports := r })) ∧
  (∀ (s : State) (t : Nat) (b : Bytes) (r : List (Nat × Bytes)), s.f.meas.queue = (t, b) :: r → t ≤ tickOf (fnow s) →
    (∀ x, s.f.meas.lastSend = some x → x + 1000 ≤ tickOf (fnow s)) →
    let w := { s with f.meas.queue := r, f.meas.lastSend := some (tickOf (fnow s)) }
    (s.f.state = .alone → Nat.testBit (reg s 0x820014) 1 = false → exec .measRecordSend s = .next (bump w 0x800024 24 8 1)) ∧
    (s.f.state ≠ .alone ∨ Nat.testBit (reg s 0x820014) 1 = true → exec .measRecordSend s = .next (fieldSend 7 0 b (bump w 0x800024 0 16 1)))) ∧
  (∀ (s u : State) (n : Nat) (f : Frame), n < 8 → nth s.h.tahr.credits n 0 ≠ 0 → minintOver s false 8 n = true → scheduled s (40 + n) = some (f, u) →
    exec (.fcanFrameToField n) s = .next (sendMsg false 8 0 u.time.now ([byte n, 0, 0, 0] ++ f.bytes) (useCredit n u)).1) ∧
  (∀ (s : State) (n : Nat), nth s.h.tahr.credits n 0 = 0 → exec (.fcanFrameToField n) s = .next s) ∧
  (∀ (s u : State) (f : Frame), takeHead s 69 = some (f, u) →
    exec .tahrCatalogueSend s = .next (match inportOrigin f.inport with
      | some o =>
        if 4 ≤ f.bytes.length ∧ 0x0F10 ≤ fieldLE f.bytes 0 2 ∧ fieldLE f.bytes 0 2 ≤ 0x0F3F
        then (sendMsg false (fieldLE f.bytes 0 2 - 0x0F00) o u.time.now (f.bytes.drop 4) u).1
        else bump u 0x600014 0 16 1
      | none => bump u 0x600014 0 16 1)) ∧
  (∀ (s : State) (v : Word), passesFs s 0x820020 (forced v 24 1 1) → ∃ t, exec (.fsupTxctlSend v) s = .next t ∧
    wroteFs 0x820020 (forced v 24 1 1) (fun u => fsSend (forced v 24 1 1) (stored true .fs 0x820020 (forced v 24 1 1) u)) s t) ∧
  (∀ (s : State) (m : XMsg) (r : List XMsg), s.f.fifo = m :: r → ∃ t, exec .fsupRxpop s = .next t ∧ t.f = { s.f with fifo := r, rbuf := padTo 1024 m.payload } ∧ t.h = s.h) ∧
  (∀ s : State, s.f.fifo = [] → ∃ t, exec .fsupRxpop s = .next t ∧ t.f = s.f ∧ t.h = s.h) ∧
  (∀ s : State, s.f.state = .fbuild → s.f.digest ≠ [] → s.f.digest = s.f.newDigest → s.f.aligned = true →
    ∃ t, exec .fieldFrunEntry s = .next t ∧ t.f.state = .frun ∧ t.f.wdog = some (fnow s + wdInterval s)) ∧
  (∀ s : State, s.f.state = .alone → s.f.digest = s.f.newDigest → s.f.aligned = true → s.f.fe.train = false → fnow s < s.f.fe.lastHb + 1000000 →
    exec .fieldFrunEntry s = .next (permitUpdate (releaseHeld { s with f.state := .frun })))

/-! ## Permission -/

/-- O49. Permission (R597, R622 to R627, R633): the host's permit state and the hold line are followed, permission is given only while every condition of R623 holds, and starts at a rising instant; the writes of TAHR.PERMCTL, FSUP.PERMIT and FSUP.WDT act; and the watchdog and a readback mismatch withdraw it. -/
def Obligations.PermissionFollowsItsConditions : Prop :=
  (∀ (s u : State) (m : XMsg), takeInbox true (fun m => m.typ == 5 && dueMsg s true m) s = some (m, u) →
    ∃ t, exec .permitMessage s = .next t ∧ t.f.hostGrant = Nat.testBit (fieldLE m.payload 0 1) 0 ∧
      (Nat.testBit (fieldLE m.payload 0 1) 0 = false → t.f.granted = false ∧ t.f.permit = false)) ∧
  (∀ (s : State) (o : Origin) (v : Word), passes s o 0x600004 v.toNat → ∃ t, exec (.tahrPermctlWrite o v) s = .next t ∧
    wrote s (fun u => sendPermit (bit v.toNat 0) (stored false o 0x600004 v.toNat u)) t) ∧
  (∀ s : State, dieOn s true = true → ∃ t, exec .holdLineAssert s = .next t ∧ t.f.hold = true ∧ t.f.granted = false ∧ t.f.permit = false) ∧
  (∀ s : State, dieOn s true = true → s.sys.holdLine = false → ∃ t, exec .holdLineDeassert s = .next t ∧ t.f.hold = false ∧ t.f.permit = s.f.permit ∧
    (permitMet t = true → t.f.granted = true) ∧ (permitMet t = false → t.f.granted = s.f.granted)) ∧
  (∀ s : State, fnow s % 10000 < 8 → ∃ t, exec .permitGrantStart s = .next t ∧ (s.f.granted = true ∧ permitMet s = true → t = { s with f.permit := true }) ∧
    (¬ (s.f.granted = true ∧ permitMet s = true) → t = s)) ∧
  (∀ s : State, dieOn s true = true → ∃ t, exec .permitReadbackMismatch s = .next t ∧ t.f.rberr = true ∧ t.f.granted = false ∧ t.f.permit = false ∧
    (RegFile.wf s.regs = true → Nat.testBit (reg t 0x820004) 0 = false)) ∧
  (∀ (s : State) (v : Word), passesFs s 0x820004 v.toNat → ∃ t, exec (.fsupPermitWrite v) s = .next t ∧
    wroteFs 0x820004 v.toNat (fun u => permitWrite (Nat.testBit v.toNat 0) (stored true .fs 0x820004 v.toNat u)) s t) ∧
  (∀ (s : State) (v : Word), passesFs s 0x82000C v.toNat → ∃ t, exec (.watchdogRefresh v) s = .next t ∧
    wroteFs 0x82000C v.toNat (fun u => wdRefresh v.toNat (stored true .fs 0x82000C v.toNat u)) s t) ∧
  (∀ (s : State) (d : Nat), s.f.wdog = some d → d ≤ fnow s → ∃ t, exec .watchdogExpiry s = .next t ∧ t.f.wdExpired = true ∧ t.f.wdog = none ∧
    t.f.granted = false ∧ t.f.permit = false ∧ (RegFile.wf s.regs = true → Nat.testBit (reg t 0x820004) 0 = false)) ∧
  (∀ s : State, s.f.wdog = none → exec .watchdogExpiry s = .next s)

/-- O50. Only origin FS may write FSUP.PERMIT (R627): whatever the matrix grants, a write by any other origin that reaches the check of permissions is refused with DENIED, and permission stands as it was; so it is for a WRITE of the host port. -/
def Obligations.OnlyTheFsWritesPermit : Prop :=
  (∀ (s : State) (o : Origin) (v : Word), o ≠ .fs → remoteHostStatus s o 0x820004 v.toNat = some 0x08) ∧
  (∀ (s : State) (o : Origin) (v : Word), o ≠ .fs → hostModeStatus s o = none → ∃ t, busWrite o 0x820004 v s = (t, 0x08) ∧
    reg t 0x820004 = reg s 0x820004 ∧ t.f.granted = s.f.granted ∧ t.f.permit = s.f.permit ∧ t.h.tahr = s.h.tahr) ∧
  (∀ (s : State) (x : Txn) (v : Nat) (r : List (Nat × Nat)), whole 1 x s → txnWrites 1 x = (0x820004, v) :: r →
    (∀ w ∈ r, (regAt w.1).isSome = true ∧ isRemote w.1 = true) → r.length < 64 → hostModeStatus s .hostSpi = none → s.h.port.deferred = none →
    ∃ t, exec (.write x) s = .next t ∧ t.h.port.presult = 0x08 ∧ t.f.granted = s.f.granted ∧ t.f.permit = s.f.permit ∧ t.h.tahr = s.h.tahr)

/-! ## Measurement and touch -/

/-- O51. Measurement (R644 to R679): a running channel takes an output of its filter, a window of WIN outputs closes into a record, and the spare converter's calibration, the swap and the freed converter's calibration follow R667; writes of CHCTL, CHWIN and CALCTL act where they land, at once in the writer's own die and by a REMOTE request across the link. -/
def Obligations.MeasurementChannelsAndCalibration : Prop :=
  (∀ (s : State) (ch : Nat) (r : Bytes) (c : MChan) (xs xps : List Int), graphRec s false ch = some r → KMap.get? s.f.meas.chans ch = some c →
    c.run = true → xs.length = c.l → c.outs < c.win → (fieldLE r 2 1 ≠ 0xFF → xps.length = c.l) →
    ∃ t, exec (.filterOutput false ch xs xps) s = .next t ∧ t.h = s.h ∧ t.regs = s.regs ∧ t.f.meas.chans = KMap.put s.f.meas.chans ch
      (chanOutput r c (if fieldLE r 2 1 = 0xFF then none else (KMap.get? s.f.meas.chans (fieldLE r 2 1)).map (fun p => p.evAt)) 131072 xs xps).1) ∧
  (∀ (s : State) (ch : Nat) (r : Bytes) (c : MChan) (xs xps : List Int), graphRec s true ch = some r → KMap.get? s.h.meas.chans ch = some c →
    c.run = true → xs.length = c.l → c.outs < c.win → (fieldLE r 2 1 ≠ 0xFF → xps.length = c.l) →
    ∃ t, exec (.filterOutput true ch xs xps) s = .next t ∧ t.f = s.f ∧ t.regs = s.regs ∧ t.h.meas.chans = KMap.put s.h.meas.chans ch
      (chanOutput r c (if fieldLE r 2 1 = 0xFF then none else (KMap.get? s.h.meas.chans (fieldLE r 2 1)).map (fun p => p.evAt)) 32768 xs xps).1) ∧
  (∀ (s : State) (host : Bool) (ch : Nat) (r : Bytes) (c : MChan), graphRec s host ch = some r → KMap.get? (measOf s host).chans ch = some c →
    c.win ≤ c.outs → c.outs ≠ 0 → ∃ t, exec (.windowClose host ch) s = .next t ∧
      KMap.get? (measOf t host).last ch = some (recordBytes host ch r c (c.n - 1) c.flags) ∧
      (measOf t host).chans = KMap.put (measOf s host).chans ch (nextWindow s host ch r c) ∧
      (host = true → t.h.meas.queue = s.h.meas.queue ++ [(curTick s, recordBytes true ch r c (c.n - 1) c.flags)]) ∧
      (host = false → t.f.meas.queue = if 64 ≤ s.f.meas.queue.length then s.f.meas.queue
        else s.f.meas.queue ++ [(tickOf (fnow s), recordBytes false ch r c (c.n - 1) c.flags)])) ∧
  (∀ (s : State) (o : Origin) (ch : Nat) (v : Word), ch < 16 → passes s o (chctlReg true ch) v.toNat → ∃ t, exec (.measChctlWrite o true ch v) s = .next t ∧
    wrote s (fun u => chctlEffect true ch (bit (standing o (chctlReg true ch) u) 0) (bit v.toNat 0) (stored false o (chctlReg true ch) v.toNat u)) t) ∧
  (∀ (s : State) (ch : Nat) (v : Word), ch < 128 → passesFs s (chctlReg false ch) v.toNat → ∃ t, exec (.measChctlWrite .fs false ch v) s = .next t ∧
    wroteFs (chctlReg false ch) v.toNat (fun u =>
      chctlEffect false ch (bit (standingFs (chctlReg false ch) u) 0) (bit v.toNat 0) (stored true .fs (chctlReg false ch) v.toNat u)) s t) ∧
  (∀ (s : State) (o : Origin) (ch : Nat) (v : Word), ch < 16 → passes s o (chwinReg true ch) v.toNat → ∃ t, exec (.measChwinWrite o true ch v) s = .next t ∧
    wrote s (stored false o (chwinReg true ch) v.toNat) t) ∧
  (∀ (s : State) (ch : Nat) (v : Word), ch < 128 → passesFs s (chwinReg false ch) v.toNat → ∃ t, exec (.measChwinWrite .fs false ch v) s = .next t ∧
    wroteFs (chwinReg false ch) v.toNat (stored true .fs (chwinReg false ch) v.toNat) s t) ∧
  (∀ (s : State) (v : Word), passesFs s 0x800010 v.toNat → ∃ t, exec (.measCalctlReq .fs v) s = .next t ∧
    wroteFs 0x800010 v.toNat (fun u => calRequest (v.toNat % 8) (stored true .fs 0x800010 v.toNat u)) s t) ∧
  (∀ (s : State) (o : Origin) (ch a : Nat) (v : Word) (c : Instr),
    (a = chctlReg false ch ∧ c = .measChctlWrite o false ch v ∨ a = chwinReg false ch ∧ c = .measChwinWrite o false ch v ∨
      a = 0x800010 ∧ c = .measCalctlReq o v) → passesRemote s o a v.toNat →
    ∃ t, exec c s = .next t ∧ wrote s (remoteSend o 2 [(a, v.toNat)] 0) t) ∧
  (∀ (s : State) (c : Calib), s.f.meas.cal = some c →
    (c.step = 2 → exec (.measSpareCalibrated true) s = .next { s with f.meas.cal := some { c with step := 3 } } ∧
      exec (.measSpareCalibrated false) s = .next (calEnd 2 0 (raise 0x119 0
        (match reserveOf s 0x21 with | some i => setIsland i ⟨3, 0xFF, 0⟩ s | none => s)))) ∧
    (∀ sp old, c.step = 3 → reserveOf s 0x21 = some sp → servingIsland s (0x2100 + c.duty) = some old →
      ∃ t, exec .converterSwap s = .next t ∧ t.f.meas.cal = some { c with step := 4 } ∧
        t.f.rep.islands = (handDuty (0x2100 + c.duty) old sp 6 s).f.rep.islands ∧ t.regs = (handDuty (0x2100 + c.duty) old sp 6 s).regs) ∧
    (c.step = 4 → ∀ i e, s.f.rep.islands.find? (fun e => e.1 / 256 == 0x21 && e.2.role == 6) = some (i, e) →
      exec (.measCalibrationDone true) s = .next (calEnd 0 1 (setIsland i ⟨1, 0xFF, 0⟩ s)) ∧
      exec (.measCalibrationDone false) s = .next (calEnd 3 1 (raise 0x119 0 (setIsland i ⟨3, 0xFF, 0⟩ s)))))

/-- O52. The host sense calibration and the touch channels (R670, R672, R673): a request takes leave or is served again after the one under way; its end gives the converter back with its result; a reading moves its channel by the rule of R672, with its event, its press count and the STUCK source; and in STANDBY two scans in a row above the wake threshold make a wake event. -/
def Obligations.HostSenseAndTouch : Prop :=
  (∀ (s : State) (o : Origin), passes s o 0x580004 1 → ∃ t, exec (.hsnsCalctlReq o) s = .next t ∧
    wrote s (fun u => hsnsCalRequest (stored false o 0x580004 1 u)) t) ∧
  (∀ (s : State) (c : Calib) (ok : Bool), s.h.meas.cal = some c → c.step ≠ 0 → s.h.meas.calAgain = [] →
    ∃ t, exec (.hsnsCalibrationEnd ok) s = .next t ∧ t.h.meas.cal = none ∧ t.h.meas.calReq = [] ∧ t.h.meas.calErr = (if ok then 0 else 3) ∧
      (∀ e ∈ t.h.meas.chans, ∃ e' ∈ s.h.meas.chans, e'.1 = e.1 ∧ e'.2.sum = e.2.sum ∧ e'.2.count = e.2.count)) ∧
  (∀ (s : State) (t stamp : Nat) (r : Int), t < 4 → (nth s.h.touch t Touch.reset).reading = some (r, stamp) →
    let x := touchRule s t (nth s.h.touch t Touch.reset) r stamp
    exec (.touchReading t) s = .next (
      let u := { s with h.touch := s.h.touch.set t { x.1 with reading := none }, h.touchEv := if x.2 = 0 then s.h.touchEv else s.h.touchEv ++ [(t, x.2, stamp)] }
      let w := if x.2 = 1 then bump u 0x580344 (8 * t) 8 1 else u
      if x.2 = 3 then raise (0x061 + t) 0 w else w) ∧
    (x.2 = 3 → exec (.touchStuck t) s = .next (raise (0x061 + t) 0 { s with
      h.touch := s.h.touch.set t { x.1 with reading := none }, h.touchEv := s.h.touchEv ++ [(t, 3, stamp)] })) ∧
    (x.2 ≠ 3 → exec (.touchStuck t) s = .next s)) ∧
  (∀ (s : State) (t stamp : Nat) (r : Int), t < s.h.touch.length → s.sys.mode = .standby → bit (reg s 0x24) 14 = true →
    bit (reg s (0x580304 + 0x10 * t)) 7 = true →
    let c := nth s.h.touch t Touch.reset
    let low := decide (r ≤ c.base + touchTh s t - touchHys s t)
    (c.st ≠ 1 → c.scanOk = false → exec (.touchWakeScan t r stamp) s = .next { s with
      h.touch := s.h.touch.set t (if touchDeb s t ≤ (if low then c.scan + 1 else 0) then { c with scanOk := true, scan := 0 }
        else { c with scan := if low then c.scan + 1 else 0 }) }) ∧
    (c.st = 1 ∨ c.scanOk = true →
      (r < c.base + touchWake s t → exec (.touchWakeScan t r stamp) s = .next { s with h.touch := s.h.touch.set t { c with scan := 0 } }) ∧
      (c.base + touchWake s t ≤ r → c.scan = 0 → exec (.touchWakeScan t r stamp) s = .next { s with h.touch := s.h.touch.set t { c with scan := 1 } }) ∧
      (c.base + touchWake s t ≤ r → c.scan = 1 → exec (.touchWakeScan t r stamp) s =
        .next (wakeEvent 0x0F stamp { s with h.touch := s.h.touch.set t { c with scan := 0 } }))))

/-! ## Audio -/

/-- O53. Audio ports (R690 to R697, R700 to R705, R714, R715): a master TDM frame is received, stamped by its block and followed by the next, or the port stops; a slave's edge counts toward lock, or loses it; a read of BST0 pops a stamp; writes of TDMCTL enable and disable; the commit bits hand channel status and user bits to the next block; a transmitter sends its frame; and a receiver's block end reports what it gathered. -/
def Obligations.AudioPortsKeepTheirFrames : Prop :=
  (∀ (s : State) (n : Nat) (slots : List Word), n < 4 → (portOf s n).run = true → portMaster s n = true →
    (curTick s < tickOf (frameAt s n ((portOf s n).frame + 1)) → exec (.tdmFrame n slots) s = .next s) ∧
    (tickOf (frameAt s n ((portOf s n).frame + 1)) ≤ curTick s → exec (.tdmFrame n slots) s = .next (
      let k := (portOf s n).frame
      let u := tdmReceive n k slots s
      let w := if bit (reg u (portBase n)) 3 && k % blockLen u n == 0 then pushBlock n ⟨frameAt u n k, k / blockLen u n, false⟩ k u else u
      if (portOf s n).stopReq then portStop n w else setPort n { portOf w n with frame := k + 1 } w))) ∧
  (∀ (s : State) (n stamp clocks before : Nat), n < 4 → (portOf s n).run = true → portMaster s n = false → isLate s stamp = false →
    (portOf s n).lastEdge = some before → clocks ≠ bits (cfgOf s n 0x08) 0 12 → n < s.h.aud.tdm.length →
    ∃ t, exec (.tdmFsEdge n stamp clocks) s = .next t ∧ (portOf t n).lock = false ∧ (portOf t n).frame = 0 ∧ (portOf t n).lastEdge = some stamp) ∧
  (∀ (s : State) (n stamp clocks before : Nat), n < 4 → (portOf s n).run = true → portMaster s n = false → isLate s stamp = false →
    (portOf s n).lastEdge = some before → clocks = bits (cfgOf s n 0x08) 0 12 → (portOf s n).good = 0 → (portOf s n).lock = false →
    Nat.testBit (reg s (portBase n)) 3 = false → n < s.h.aud.tdm.length →
    ∃ t, exec (.tdmFsEdge n stamp clocks) s = .next t ∧ (portOf t n).lock = false ∧ (portOf t n).good = 1 ∧ (portOf t n).frame = (portOf s n).frame + 1 ∧
      (portOf t n).lastEdge = some stamp) ∧
  (∀ (s : State) (o : Origin) (n : Nat), n < 4 → busMaster o = true → o ≠ .fs →
    exec (.tdmTdmbst0Pop o n) s = .next (popBlock n s).1) ∧
  (∀ (s : State) (o : Origin) (n : Nat) (v : Word), n < 4 → passes s o (0x500000 + 0x100 * n) v.toNat → ∃ t, exec (.tdmEnableWrite o n v) s = .next t ∧
    wrote s (fun u => portEnable n (bit (standing o (0x500000 + 0x100 * n) u) 0) (bit v.toNat 0) (stored false o (0x500000 + 0x100 * n) v.toNat u)) t) ∧
  (∀ (s : State) (o : Origin) (x : Nat) (user : Bool), x < 2 →
    let a := 0x500400 + 0x100 * x
    let v := reg s a % 8 + (if user then 16 else 8)
    passes s o a v → ∃ t, exec (if user then .bptUcommit o x else .bptCscommit o x) s = .next t ∧
    wrote s (fun u => bptCommit x user (portEnable (4 + x) (bit (standing o a u) 0) (bit (reg s a) 0) (stored false o a v u))) t) ∧
  (∀ (s : State) (x : Nat), x < 2 → (portOf s (4 + x)).run = true → tickOf (frameAt s (4 + x) (portOf s (4 + x)).frame) ≤ curTick s →
    exec (.bptFrame x) s = .next (bptFrame x (outboundFrame (4 + x) (portOf s (4 + x)).frame s))) ∧
  (∀ (s : State) (r : Nat), r < 2 → (portOf s (6 + r)).lock = true → (portOf s (6 + r)).whole = true → (portOf s (6 + r)).good = 192 →
    r < s.h.aud.bpr.length → ∃ t, exec (.bprBlockEnd r) s = .next t ∧ (portOf t (6 + r)).cs = (portOf s (6 + r)).newCs ∧ (portOf t (6 + r)).ub = (portOf s (6 + r)).newUb ∧
      (portOf t (6 + r)).whole = false ∧ (portOf t (6 + r)).mute = (bit (reg s (portBase (6 + r))) 1 && bit (nth (portOf s (6 + r)).newCs 0 0).toNat 1)) ∧
  (∀ (s : State) (r stamp : Nat) (pre bad : Bool) (a b : Nat), r < 2 → (portOf s (6 + r)).run = true → isLate s stamp = false → r < s.h.aud.bpr.length →
    (bad = true → (portOf s (6 + r)).stopReq = false → ∃ t, exec (.bprFrameRx r stamp pre bad a b) s = .next t ∧ (portOf t (6 + r)).lock = false ∧ (portOf t (6 + r)).good = 0) ∧
    (bad = false → (portOf s (6 + r)).lock = false → (portOf s (6 + r)).stopReq = false → pre = true → (portOf s (6 + r)).lastEdge.isSome = true → (portOf s (6 + r)).good = 192 →
      ∃ t, exec (.bprFrameRx r stamp pre bad a b) s = .next t ∧ (portOf t (6 + r)).lock = true ∧ (portOf t (6 + r)).good = 1 ∧ (portOf t (6 + r)).frame = 1 ∧ (portOf t (6 + r)).blockAt = stamp) ∧
    (bad = false → (portOf s (6 + r)).lock = false → (portOf s (6 + r)).stopReq = false → pre = true → ¬ ((portOf s (6 + r)).lastEdge.isSome = true ∧ (portOf s (6 + r)).good = 192) →
      exec (.bprFrameRx r stamp pre bad a b) s = .next (setPort (6 + r) { portOf s (6 + r) with lastEdge := some stamp, good := 1 } s)))

/-- O54. AAF endpoints, gains and biquad commits (R709 to R713, R729, R735): a talker emits a PDU at its lattice instant once SPP frames stand gathered, a listener takes the PDU at its queue's head or counts why not, two silent periods are an underrun, a gain register starts a ramp, and COMMIT makes a section's registers its coefficients at the next graph sample. -/
def Obligations.AafEndpointsAndCoefficients : Prop :=
  (∀ (s : State) (e : Nat), e < 8 → (epOf s e).talk = true → max 1 (fmtSpp (epFmt s e)) ≤ (epOf s e).gather.length →
    exec (.aafTalkerPdu e) s = .next (
      let x := epOf s e
      let spp := max 1 (fmtSpp (epFmt s e))
      let at_ := (x.nextI - x.gather.length + spp) * 1000000000 / fmtRate (epFmt s e)
      submitAt (56 + e) at_ at_ 2 3
        (talkerBody s e x (match x.gather.take spp with | p :: _ => p.1 | [] => 0)
          ((x.gather.take spp).flatMap (fun p => p.2.flatMap (fun w => (be 4 w.toNat).take (fmtBytes (epFmt s e))))))
        false 0 (bump (setEp e { x with gather := x.gather.drop spp, seqNo := (x.seqNo + 1) % 256 } s) (epReg e 0x34) 0 16 1))) ∧
  (∀ (s : State) (e : Nat), e < 8 → (epOf s e).talk = false ∨ (epOf s e).gather.length < max 1 (fmtSpp (epFmt s e)) → exec (.aafTalkerPdu e) s = .next s) ∧
  (∀ (s u : State) (e : Nat) (f : Frame), e < 8 → takeHead s (56 + e) = some (f, u) →
    let note := fun (w : State) => setEp e { epOf w e with lastSeq := some (fieldLE (avtpOf f.bytes) 2 1) } w
    match judgePdu u e f.bytes ((tickOf f.pres + 1) * 8) with
    | .mismatch => exec (.aafListenerTake e) s = .next (bump u (epReg e 0x38) 0 16 1)
    | .late => exec (.aafListenerTake e) s = .next (note (bump u (epReg e 0x3C) 0 16 1))
    | .order => exec (.aafListenerTake e) s = .next (note (bump u (epReg e 0x40) 16 16 1))
    | .ovf => exec (.aafListenerTake e) s = .next (note (bump u (epReg e 0x3C) 16 16 1))
    | .taken fr gap => exec (.aafListenerTake e) s = .next (
        let w := bump (if gap then bump u (epReg e 0x38) 16 16 1 else u) (epReg e 0x34) 16 16 1
        note (setEp e { epOf w e with queue := (epOf w e).queue ++ fr } w))) ∧
  (∀ (s : State) (e t : Nat) (w : List Word) (r : List (Nat × List Word)), e < 8 → (epOf s e).shown = (t, w) :: r → (epOf s e).silent = false →
    Nat.testBit (reg s (epReg e 0)) 1 = true → t * fmtRate (epFmt s e) + 2000000000 ≤ s.time.now * fmtRate (epFmt s e) →
    exec (.aafUnderrun e) s = .next (setEp e { epOf s e with silent := true, shown := [] } (bump s (epReg e 0x40) 0 16 1))) ∧
  (∀ (s : State) (o : Origin) (r : Nat) (v : Word), r < 1024 → passes s o (0x502000 + 4 * r) v.toNat → ∃ t, exec (.audRgainWrite o r v) s = .next t ∧
    wrote s (fun u => stored false o (0x502000 + 4 * r) v.toNat (setGain r (v.toNat % 2 ^ 16) u)) t) ∧
  (∀ (s : State) (o : Origin) (key : Nat), (key < 128 ∨ 0x1000 ≤ key ∧ key < 0x1080) → passes s o (bqReg key + 0x14) 1 → ∃ t, exec (.biquadCommit o key) s = .next t ∧
    wrote s (fun u => bqCommit key (stored false o (bqReg key + 0x14) 1 u)) t)

/-- O55. Output nodes, detection, analysers and calibration (R737 to R747, R749, R836): writes of SPKCTL and DACCTL drive the sequence of their node, whose timed steps follow; a fault stops it until its cause is gone; the limiter's block, the settling of an input, a measurement, a bias sample and an analyser's window end with what the rules give; and a calibration request is refused, served, or held first. -/
def Obligations.AudioNodesFollowTheirSequences : Prop :=
  (∀ (s : State) (o : Origin) (v : Word), passes s o 0x500E40 v.toNat → ∃ t, exec (.spkctlWrite o v) s = .next t ∧
    wrote s (fun u => outWrite 0 (bit (standing o 0x500E40 u) 0) (bit v.toNat 0) (stored false o 0x500E40 v.toNat u)) t) ∧
  (∀ (s : State) (o : Origin) (n : Nat) (v : Word), n < 2 → passes s o (0x500E00 + 0x10 * n) v.toNat → ∃ t, exec (.dacctlWrite o n v) s = .next t ∧
    wrote s (fun u => outWrite (n + 1) (bit (standing o (0x500E00 + 0x10 * n) u) 0) (bit v.toNat 0) (stored false o (0x500E00 + 0x10 * n) v.toNat u)) t) ∧
  (∀ (s : State) (n : Nat), n < 3 → (outOf s n).st = 2 → (outOf s n).at_ ≤ s.time.now →
    exec (.outputPrechargeEnd n) s = .next (setOut n { outOf s n with st := 3, u := ⟨0, 4096, nextGraph s⟩ } s)) ∧
  (∀ (s : State) (n : Nat), n < 3 → (outOf s n).st = 4 → (outOf s n).u.i0 + 256 ≤ s.h.aud.gi →
    exec (.outputRampdownEnd n) s = .next (setOut n { outOf s n with st := 5, u := ⟨0, 0, 0⟩, at_ := s.time.now + (if n = 0 then 20000000 else 10000000) } s)) ∧
  (∀ (s : State) (n : Nat), n < 3 → (outOf s n).st = 5 → (outOf s n).at_ ≤ s.time.now → (outOf s n).again = false →
    exec (.outputDischargeEnd n) s = .next (if n = 0 then giveLeave false 5 0 (setOut n { outOf s n with st := 0 } s) else setOut n { outOf s n with st := 0 } s)) ∧
  (∀ (s : State) (n : Nat) (vspk : Bool), n < 3 → s.h.aud.cal = none → exec (.outputFault n vspk) s = .next (
    let w := if vspk ∧ n = 0 then { s with sys.vspkOk := false } else s
    if (outOf s n).st = 0 then w
    else raise (0x66 + n) 0 (setOut n { outOf s n with st := 6, cause := true, again := false, u := ⟨0, 0, 0⟩ }
      (if n = 0 ∧ (outOf s n).st = 1 then dropLeave false 5 0 w else w)))) ∧
  (∀ (s : State) (n : Nat), 0 < n → n < 3 → n - 1 < s.h.aud.dac.length → (outOf s n).st = 6 →
    ∃ t, exec (.faultCauseCleared n false) s = .next t ∧ (outOf t n).cause = false ∧ (outOf t n).st = (if Nat.testBit (reg s (outReg n)) 0 then 6 else 0)) ∧
  (∀ s : State, s.h.aud.limCnt = 0 ∨ s.h.aud.gi % 48 ≠ 0 → exec .limiterBlock s = .next s) ∧
  (∀ s : State, s.h.aud.limCnt ≠ 0 → s.h.aud.gi % 48 = 0 → ∃ t, exec .limiterBlock s = .next t ∧ t.h.aud.limE = 0 ∧ t.h.aud.limCnt = 0 ∧
    t.h.aud.limTc = s.h.aud.limTc + rdiv (rdiv ((s.h.aud.limE : Int) * (reg s 0x500E80 : Int)) (48 * 2 ^ 30) * (fieldOf s 0x500E84 0 16 : Int) - (s.h.aud.limTc - s.h.aud.limTm))
      ((max 1 (reg s 0x500E88) : Nat) : Int) ∧
    ((reg s 0x500E90 : Int) ≤ t.h.aud.limTc → t.h.aud.limG = max (fieldOf s 0x500E94 16 16) (s.h.aud.limG - fieldOf s 0x500E98 0 16))) ∧
  (∀ (s : State) (key since : Nat), KMap.get? s.h.aud.inAt key = some since →
    (since + 6000000 ≤ s.time.now → exec (.inputSettleEnd key) s = .next { s with h.aud.inAt := KMap.del s.h.aud.inAt key }) ∧
    (s.time.now < since + 6000000 → exec (.inputSettleEnd key) s = .next s)) ∧
  (∀ (s : State) (n cls k : Nat), n < 4 → Nat.testBit (reg s (0x500D00 + 0x10 * n)) 8 = true → s.h.aud.mic.length = 4 → cls < 8 → nth s.h.aud.mic n (0, 0) = (cls, k) →
    (k < 2 ∨ 2 < k → exec (.micBiasSample n cls) s = .next { s with h.aud.mic := s.h.aud.mic.set n (cls, min 4 (k + 1)) }) ∧
    (k = 2 → exec (.micBiasSample n cls) s = .next (
      let w := { s with h.aud.mic := s.h.aud.mic.set n (cls, 3), h.aud.det := KMap.put s.h.aud.det (3 + n) cls }
      if cls = 0 then w else raise (0x6C + n) 0 w))) ∧
  (∀ (s : State) (o : Origin), passes s o 0x500F00 1 → ∃ t, exec (.detectSpeaker o) s = .next t ∧
    wrote s (fun u => detectStart 0 (stored false o 0x500F00 1 u)) t) ∧
  (∀ (s : State) (o : Origin) (n : Nat), n < 2 → passes s o 0x500F00 (2 * 2 ^ n) → ∃ t, exec (.detectLineOut o n) s = .next t ∧
    wrote s (fun u => detectStart (n + 1) (stored false o 0x500F00 (2 * 2 ^ n) u)) t) ∧
  (∀ (s : State) (n cls r d : Nat), KMap.get? s.h.aud.detBusy n = some d → d ≤ s.time.now → exec (.detectComplete n cls r) s = .next (
    let w := { s with h.aud.detBusy := KMap.del s.h.aud.detBusy n, h.aud.det := KMap.put s.h.aud.det n (cls % 8),
                      h.aud.spkRes := if n = 0 then min r 0xFFFF else s.h.aud.spkRes }
    if cls % 8 = 0 then w else raise (0x69 + n) 0 w)) ∧
  (∀ (s : State) (a : Nat) (b : Band), s.h.aud.bands[a]? = some b → b.run = true → b.cnt ≠ 0 → b.win ≤ b.cnt →
    exec (.bandWindowClose a) s = .next { s with
      h.aud.bandRec := KMap.put s.h.aud.bandRec a (bandRecord s a b (s.h.aud.gi - 1))
      h.aud.bandOut := s.h.aud.bandOut ++ [(tickOf (tau (s.h.aud.gi - 1)), bandRecord s a b (s.h.aud.gi - 1))]
      h.aud.bands := s.h.aud.bands.set a { b with cnt := 0, wseq := (b.wseq + 1) % 2 ^ 32, e := [], flags := 0 } }) ∧
  (∀ (s : State) (o : Origin) (v : Word), passes s o 0x500F40 v.toNat → ∃ t, exec (.audioCalreq o v) s = .next t ∧
    wrote s (fun u => audCalRequest (bits v.toNat 0 3) (bit v.toNat 8) (stored false o 0x500F40 v.toNat u)) t) ∧
  (∀ (s : State) (c : ACal), s.h.aud.cal = some c →
    (c.phase = 0 → c.at_ ≤ s.h.aud.gi → exec .audioCalHoldEnd s = .next (askLeave false 6 (1 + c.node) s.time.now { s with h.aud.cal := some { c with phase := 1 } })) ∧
    (c.phase = 2 → c.at_ ≤ s.time.now → c.forced = false →
      exec .audioCalibrationDone s = .next { giveLeave false 6 (1 + c.node) s with h.aud.cal := none, h.aud.calRes := 1 }))

/-! ## Faults, islands, repair and the budget -/

/-- O56. Fault sources and memory errors (R32, R33, R767, R780, R794, R797, R811 to R813): injected faults and SEV clears are taken by the collector of their die; a lockstep or pair mismatch and every ECC event raise their source; a second corrected error of a row within 1 s asks for a spare row, which an ageing entry of CAUSE 4 records; and a failed check of an island raises its source, replays or moves its duty. -/
def Obligations.FaultEventsAreTaken : Prop :=
  (∀ (s : State) (o : Origin) (v : Word), passes s o 0x50040 v.toNat → ∃ t, exec (.fltInject o v) s = .next t ∧
    wrote s (fun u => injectFault (bits v.toNat 0 9) (bits v.toNat 8 8) (stored false o 0x50040 v.toNat u)) t) ∧
  (∀ (s : State) (o : Origin), passes s o 0x50000 1 → ∃ t, exec (.fltSevClear o) s = .next t ∧
    wrote s (fun u => clearLatch 0 (stored false o 0x50000 1 u)) t) ∧
  (∀ (s : State) (v : Word), passesFs s 0x810040 v.toNat → ∃ t, exec (.ffltInject .fs v) s = .next t ∧
    wroteFs 0x810040 v.toNat (fun u => injectFault (bits v.toNat 0 9) (bits v.toNat 8 8) (stored true .fs 0x810040 v.toNat u)) s t) ∧
  (∀ s : State, passesFs s 0x810000 1 → ∃ t, exec (.ffltSevClear .fs) s = .next t ∧
    wroteFs 0x810000 1 (fun u => clearLatch 0x100 (stored true .fs 0x810000 1 u)) s t) ∧
  (∀ (s : State) (o : Origin) (v : Word), passesRemote s o 0x810040 v.toNat → ∃ t, exec (.ffltInject o v) s = .next t ∧
    wrote s (remoteSend o 2 [(0x810040, v.toNat)] 0) t) ∧
  (∀ (s : State) (o : Origin), passesRemote s o 0x810000 1 → ∃ t, exec (.ffltSevClear o) s = .next t ∧ wrote s (remoteSend o 2 [(0x810000, 1)] 0) t) ∧
  (∀ s : State, exec (.lockstepMismatch false) s = .next { s with h.flt.pend := s.h.flt.pend ++ [⟨curTick s, 0x05B, 0, s.time.now, false⟩] } ∧
    exec (.lockstepMismatch true) s = .next { s with f.flt.pend := s.f.flt.pend ++ [⟨tickOf (fnow s), 0x111, 0, fnow s, false⟩] }) ∧
  (∀ (s : State) (u : Pair), exec (.pairMismatch u) s = .next (raise (pairSource u) 0 s)) ∧
  (∀ (s : State) (arr row : Nat), row < 512 → ∃ t, exec (.sramCorrected false arr row) s = .next t ∧
    t.h.flt.pend = s.h.flt.pend ++ [⟨curTick s, 0x0A2, 0, s.time.now, false⟩] ∧
    (∀ x, KMap.get? s.h.rep.rowErr (arr * 512 + row) = some x → s.time.now < x + 1000000000 → t.h.rep.rowPend = s.h.rep.rowPend ++ [(arr, row)]) ∧
    ((∀ x, KMap.get? s.h.rep.rowErr (arr * 512 + row) = some x → x + 1000000000 ≤ s.time.now) →
      t.h.rep.rowPend = s.h.rep.rowPend ∧ t.h.rep.rowErr = KMap.put s.h.rep.rowErr (arr * 512 + row) s.time.now)) ∧
  (∀ (s : State) (arr row : Nat) (r : List (Nat × Nat)), s.h.rep.rowPend = (arr, row) :: r →
    (8 ≤ KMap.getD s.h.rep.rowsUsed arr 0 → exec (.sramRowReplace false) s = .next { s with h.rep.rowPend := r }) ∧
    (KMap.getD s.h.rep.rowsUsed arr 0 < 8 → exec (.sramRowReplace false) s = .next (ageAdd 2 4 arr row { s with
      h.rep.rowPend := r, h.rep.rowsUsed := KMap.put s.h.rep.rowsUsed arr (KMap.getD s.h.rep.rowsUsed arr 0 + 1) }))) ∧
  (∀ (s : State) (field : Bool), exec (.sramUncorrectable field none) s = .next (raise (if field then 0x124 else 0xA3) 0 s) ∧
    ∀ c, exec (.sramUncorrectable field (some c)) s = .next (islandCheck c false (raise (if field then 0x124 else 0xA3) 0 s))) ∧
  (∀ (s : State) (code : Nat) (again : Bool), (islandOf s code).role = 0 →
    let duty := code / 256 * 256 + (islandOf s code).duty
    let u := raise (checkSrc (code / 256)) (islandOf s code).duty s
    (replays (code / 256) = true → (again = false ∨ (repOf s (code / 256)).replay.contains duty = false) → ∃ t, exec (.islandCheckFail code again) s = .next t ∧
      duty ∈ (repOf t (code / 256)).replay ∧ (repOf t (code / 256)).islands = (repOf s (code / 256)).islands) ∧
    (replays (code / 256) = false → code / 256 ≠ 0x04 → code / 256 ≠ 0x11 →
      exec (.islandCheckFail code again) s = .next (moveDuty (dieNow u (fieldKind (code / 256))) duty 3 0 7 (rerunJobs duty u)))) ∧
  (∀ (s : State) (code : Nat) (again : Bool), (islandOf s code).role ≠ 0 → (islandOf s code).role ≠ 5 →
    exec (.islandCheckFail code again) s = .next (raise (checkSrc (code / 256)) (islandOf s code).duty s))

/-- O57. The shed cycle, returns and the ageing map (R810, R814 to R823): a visit starts INTERVAL after the last, hands its duty over at a handover point, tests the freed island, and hands the duty back; without a handover point within WAITMS it is deferred; writes of SHEDREQ, RETCTL and AGECLR act as their fields state; and a return ends with its island serving or in reserve. -/
def Obligations.VisitsAndReturnsRunTheirSteps : Prop :=
  (∀ (s : State) (field : Bool) (d : Nat), bit (reg s 0x60004) 0 = true → (if field then s.f.state = .frun else s.sys.mode.live = true) →
    (repOf s (if field then 0x20 else 0)).visit = none → (repOf s (if field then 0x20 else 0)).lastEnd + fieldOf s 0x60004 4 12 * 1000000 ≤ dieNow s field →
    nextVisit s field = some d → (d / 256 = 0x21 → field = true) → (fieldKind (d / 256) = field) →
    ∃ t, exec (.shedVisitStart field) s = .next t ∧ (repOf t (if field then 0x20 else 0)).visit = some ⟨d / 256, d % 256, 1, 0, 0, 0⟩ ∧
      (repOf t (if field then 0x20 else 0)).asked = none ∧ (repOf t (if field then 0x20 else 0)).islands = (repOf s (if field then 0x20 else 0)).islands) ∧
  (∀ (s : State) (field : Bool) (v : Visit), (repOf s (if field then 0x20 else 0)).visit = some v →
    (v.step = 2 → v.shadowEnd ≤ tickOf (dieNow s field) → exec (.shedShadowEnd field) s = .next (setVisit field { v with step := 3 } s)) ∧
    (v.step = 5 → v.shadowEnd ≤ tickOf (dieNow s field) → exec (.shedShadowEnd field) s = .next (setVisit field { v with step := 6 } s)) ∧
    (∀ old, v.step = 3 → handoverPoint s (v.kind * 256 + v.duty) = true → servingIsland s (v.kind * 256 + v.duty) = some old →
      exec (.shedHandover field) s = .next (setVisit field { v with step := 4, freed := old } (handDuty (v.kind * 256 + v.duty) old v.spare 6 s))) ∧
    (v.step = 4 → exec (.shedSelftestDone field false) s = .next (endVisit field v.kind (raise (checkSrc v.kind) v.duty (markDefective v.freed 2 s)))) ∧
    (v.step = 4 → noShadow v.kind = true → exec (.shedSelftestDone field true) s = .next (setVisit field { v with step := 6 } s)) ∧
    (v.step = 4 → noShadow v.kind = false → exec (.shedSelftestDone field true) s =
      .next (setVisit field { v with step := 5, shadowEnd := tickOf (dieNow s field) + shadowTicks s } (setIsland v.freed ⟨5, v.duty, 0⟩ s))) ∧
    (v.step = 6 → handoverPoint s (v.kind * 256 + v.duty) = true → exec (.shedHandback field) s =
      .next (endVisit field v.kind (handDuty (v.kind * 256 + v.duty) v.spare v.freed 1 s))) ∧
    (v.step = 3 ∨ v.step = 6 → v.shadowEnd + msTicks (fieldOf s 0x60004 16 8) ≤ tickOf (dieNow s field) → exec (.shedHandoverTimeout field) s =
      .next (endVisit field v.kind (bump (setIsland (if v.step = 3 then v.spare else v.freed) ⟨1, 0xFF, 0⟩ s) 0x60020 16 8 1)))) ∧
  (∀ (s : State) (o : Origin) (v : Word), passes s o 0x60008 (forced v 16 1 1) → ∃ t, exec (.shedreqGo o v) s = .next t ∧
    wrote s (fun u => shedRequest (bits (forced v 16 1 1) 0 8) (bits (forced v 16 1 1) 8 8) (stored false o 0x60008 (forced v 16 1 1) u)) t) ∧
  (∀ (s : State) (o : Origin) (v : Word), passes s o 0x6000C (forced v 16 1 1) → ∃ t, exec (.retctlGo o v) s = .next t ∧
    wrote s (fun u => returnStart (bits (forced v 16 1 1) 0 8 * 256 + bits (forced v 16 1 1) 8 8) (stored false o 0x6000C (forced v 16 1 1) u)) t) ∧
  (∀ (s : State) (o : Origin) (v : Word), passes s o 0x60044 v.toNat → o = .updateMsg ∧ ∃ t, exec (.ageclr o v) s = .next t ∧
    wrote s (fun u => { stored false o 0x60044 v.toNat u with keeper.ageing := KMap.del u.keeper.ageing (bits v.toNat 0 6) }) t ∧
    ∀ k, k ≠ bits v.toNat 0 6 → KMap.get? t.keeper.ageing k = KMap.get? s.keeper.ageing k) ∧
  (∀ (s : State) (field : Bool) (v : Visit), (repOf s (if field then 0x20 else 0)).ret = some v → v.step = 6 →
    (v.spare ≠ 0 → handoverPoint s (v.kind * 256 + v.duty) = true → exec (.returnComplete field) s =
      .next (endReturn field v.kind 1 (handDuty (v.kind * 256 + v.duty) v.spare v.freed 1 s))) ∧
    (v.spare = 0 → (∀ d ∈ (repOf s v.kind).out, d / 256 ≠ v.kind) → exec (.returnComplete field) s = .next (endReturn field v.kind 1 s)))

/-- O58. The budget arbiters (R845, Tables PWR-5 to PWR-7): while the arbiter of a die runs, the first waiting request, by priority, tick, kind and instance, is granted where its cost fits under LIMIT, with none overtaking it, and what it was asked for starts; one past its TIMEOUT is taken from the queue, counted, and ends as its kind states. -/
def Obligations.BudgetArbitersGrantAndRefuse : Prop :=
  (∀ (s : State) (field : Bool) (b : Bud) (r : List Bud), arbiterOn s field = true →
    sortBy (budKey s field) ((arbOf s field).q.filter (fun x => decide (tickOf x.stamp ≤ budTick s field))) = b :: r →
    let c := if budShared field b.kind && (arbOf s field).held.any (fun x => x.kind == b.kind) then 0 else budCost s field b.kind
    (budLimit s field < inUse (arbOf s field) + c → exec (.budgetGrant field) s = .next s) ∧
    (inUse (arbOf s field) + c ≤ budLimit s field → ∃ u, exec (.budgetGrant field) s = .next (if field then fieldGranted b u else hostGranted b u) ∧
      arbOf u field = { arbOf s field with
        q := (arbOf s field).q.filter (fun x => !(x.kind == b.kind && x.inst == b.inst)), held := (arbOf s field).held ++ [{ b with charge := c }] } ∧
      inUse (arbOf u field) = inUse (arbOf s field) + c ∧ inUse (arbOf u field) ≤ budLimit s field)) ∧
  (∀ (s : State) (field : Bool) (b : Bud), arbiterOn s field = true → (arbOf s field).q.find? (budExpired s field (budTick s field)) = some b →
    let u := bump (setArb field { arbOf s field with q := (arbOf s field).q.filter (fun x => !(x.kind == b.kind && x.inst == b.inst)) } s) (budCnt field) 16 16 1
    exec (.budgetTimeout field) s = .next (if field then fieldTimedOut b u else hostTimedOut b u)) ∧
  (∀ (s : State) (field : Bool), arbiterOn s field = true → (arbOf s field).q = [] →
    exec (.budgetGrant field) s = .next s ∧ exec (.budgetTimeout field) s = .next s)

/-! ## Debug -/

/-- O59. The test access port (R859 to R864): each instruction loads its code and what its register captures; EXTEST drives the pins only in a session that grants it, and leaving it resets the host die; DMI answers busy outside the modes that serve it and failed outside a session; and a token starts its check. PRESUMED, log entry 11: the layout of DTMCS and of the Debug Module's registers. -/
def Obligations.TapInstructionsLoadTheirRegisters : Prop :=
  (∀ (s : State) (pins : Bytes), s.h.dbg.open_ = true → Nat.testBit s.h.dbg.grant 4 = true → ∃ t, exec (.tapExtest pins) s = .next t ∧
    t.h.dbg.extest = true ∧ t.h.dbg.bsr = pins ∧ t.h.dbg.ir = 0 ∧ t.sys.holdLine = true ∧ t.f = s.f ∧ t.regs = s.regs) ∧
  (∀ (s : State) (pins : Bytes), ¬ (s.h.dbg.open_ = true ∧ Nat.testBit s.h.dbg.grant 4 = true) →
    exec (.tapExtest pins) s = .next { s with h.dbg.ir := 0, h.dbg.dr := 0 }) ∧
  (∀ (s : State) (ir : Nat), ir % 32 ≠ 0 → s.h.dbg.extest = true → s.sys.inReset = none → s.sys.mode ≠ .keep → s.sys.mode ≠ .noSupply →
    ∃ t, exec (.extestExit ir) s = .next t ∧ t.h.dbg.ir = ir % 32 ∧ resetTaken 4 s t) ∧
  (∀ s : State, s.h.dbg.ir ≠ 0 →
    exec .tapIdcode s = .next { s with h.dbg.ir := 1, h.dbg.dr := 0x18256567 } ∧
    (∀ a b : Bytes, exec (.tapSamplePreload a b) s = .next { s with h.dbg.ir := 2, h.dbg.dr := leNat a, h.dbg.bsr := b }) ∧
    exec .tapDtmcs s = .next { s with h.dbg.ir := 0x10, h.dbg.dr := 1 + 9 * 16 + (if s.h.dbg.open_ then 0 else 3) * 1024 } ∧
    exec .tapDbgchal s = .next { s with h.dbg.ir := 0x12, h.dbg.dr := dbgChal s } ∧
    exec (.tapBypass 0x1F) s = .next { s with h.dbg.ir := 0x1F, h.dbg.dr := 0 } ∧
    (∀ c, c ∉ [0x00, 0x01, 0x02, 0x10, 0x11, 0x12, 0x13] → c < 32 → exec (.tapBypass c) s = .next { s with h.dbg.ir := c, h.dbg.dr := 0 })) ∧
  (∀ (s : State) (addr op data : Nat), s.h.dbg.ir ≠ 0 →
    let dr := fun (v op : Nat) => addr % 512 * 2 ^ 34 + v % 2 ^ 32 * 4 + op
    (dbgBusy s = true → exec (.tapDmi addr op data) s = .next { s with h.dbg.ir := 0x11, h.dbg.dr := dr data 3 }) ∧
    (dbgBusy s = false → s.h.dbg.open_ = false → exec (.tapDmi addr op data) s = .next { s with h.dbg.ir := 0x11, h.dbg.dr := dr data 2 }) ∧
    (dbgBusy s = false → s.h.dbg.open_ = true → op = 2 → addr % 128 = 4 → bit addr 8 = false →
      exec (.tapDmi addr op data) s = .next { s with h.dbg.datMp := data, h.dbg.ir := 0x11, h.dbg.dr := dr data 0 }) ∧
    (dbgBusy s = false → s.h.dbg.open_ = true → op = 1 → addr % 128 = 4 → bit addr 8 = false →
      exec (.tapDmi addr op data) s = .next { s with h.dbg.ir := 0x11, h.dbg.dr := dr s.h.dbg.datMp 0 })) ∧
  (∀ (s : State) (token : Bytes), s.h.dbg.ir ≠ 0 → dbgBusy s = false →
    let u := { s with h.dbg.ir := 0x13, h.dbg.dr := 0 }
    (padTo 256 token = List.replicate 256 0 → exec (.tapDbgtoken token) s = .next (endSession u)) ∧
    (padTo 256 token ≠ List.replicate 256 0 → s.h.dbg.token.isSome ∨ s.h.dbg.blockEnd.isSome → exec (.tapDbgtoken token) s = .next u) ∧
    (padTo 256 token ≠ List.replicate 256 0 → s.h.dbg.token = none → s.h.dbg.blockEnd = none →
      ∃ t, exec (.tapDbgtoken token) s = .next t ∧ t.h.dbg.token = some (padTo 256 token) ∧ t.h.dbg.tokTick = curTick s ∧ t.h.sp.nextId = s.h.sp.nextId + 1))

/-- O60. Sessions, run control and debug accesses (R864 to R880): a token check ends with the code of the first check that fails, and a success opens the session for its life; the block and the session end in time, or DBG.CTL.END ends it; harts halt, resume, restart and step under their grant; and an abstract command or a System Bus Access is checked as an access of origin DEBUG. -/
def Obligations.SessionsGrantDebugAccess : Prop :=
  (∀ (s : State) (j : SpJob) (tok : Bytes), tokenJob s = some j → s.h.dbg.token = some tok → j.leave ≠ 1 → (j.engine ≠ 0 → j.ctx.isSome = true) →
    exec .tokenCheckComplete s = .next (tokenEnd (match tokenEarly s tok with | some c => c | none => tokenLate s tok) (endJob j 0 s).1)) ∧
  (∀ (s : State) (b : Nat), s.h.dbg.blockEnd = some b →
    (b ≤ s.time.now → exec .tokenBlockEnd s = .next { s with h.dbg.blockEnd := none }) ∧ (s.time.now < b → exec .tokenBlockEnd s = .next s)) ∧
  (∀ s : State, s.h.dbg.open_ = true → s.h.dbg.until_ ≤ s.time.now → ∃ t, exec .sessionExpiry s = .next t ∧ t.h.dbg.open_ = false ∧ t.h.dbg.grant = 0 ∧
    t.h.dbg.haltMp = false ∧ t.h.dbg.haltFs = false ∧ t.h.dbg.progMp = List.replicate 8 0 ∧ t.h.dbg.progFs = List.replicate 8 0 ∧
    t.regs = s.regs ∧ t.keeper = s.keeper ∧ t.sys = s.sys) ∧
  (∀ s : State, sessionOpen s = true → hostModeStatus s .debug = none → hostWriteStatus s .debug 0xF00004 1 0 = none →
    ∃ t, exec .dbgCtlEnd s = .next t ∧ t.h.dbg.open_ = false ∧ t.h.dbg.grant = 0) ∧
  (∀ s : State, sessionOpen s = false → exec .dbgCtlEnd s = .next (recordRefusal false .debug 0xF00004 0x08 s)) ∧
  (∀ (s : State) (fs : Bool), dbgBusy s = false → s.h.dbg.open_ = true →
    (Nat.testBit s.h.dbg.grant (b2n fs) = true →
      (hartThere s fs = true → fs = false → exec (.dmHalt fs) s = .next { s with h.dbg.haltMp := true, h.dbg.lrMp := false }) ∧
      (hartThere s fs = true → fs = true → exec (.dmHalt fs) s = .next { s with h.dbg.haltFs := true, h.dbg.lrFs := false }) ∧
      (fs = false → exec (.dmResume fs) s = .next { s with h.dbg.haltMp := false }) ∧
      (fs = true → exec (.dmResume fs) s = .next { s with h.dbg.haltFs := false }) ∧
      (hartThere s fs = true → exec (.dmNdmreset fs) s = .next (hartStart fs s)) ∧
      (halted s fs = true → exec (.dmSingleStep fs) s = .next (retireOne fs s)) ∧
      (halted s fs = false → exec (.dmSingleStep fs) s = .next s)) ∧
    (Nat.testBit s.h.dbg.grant (b2n fs) = false → exec (.dmHalt fs) s = .next (setCmderr fs 4 s) ∧ exec (.dmResume fs) s = .next (setCmderr fs 4 s) ∧
      exec (.dmNdmreset fs) s = .next (setCmderr fs 4 s) ∧ exec (.dmSingleStep fs) s = .next (setCmderr fs 4 s))) ∧
  (∀ (s : State) (fs : Bool) (ops : List (Nat × Option Nat)), dbgBusy s = false → s.h.dbg.open_ = true →
    (if fs then s.h.dbg.cmdFs else s.h.dbg.cmdMp) = 0 →
    (Nat.testBit s.h.dbg.grant (b2n fs) = true → halted s fs = true → exec (.dmAbstractCommand fs ops) s = .next (ops.foldl (debugAccess fs) s)) ∧
    (halted s fs = false → exec (.dmAbstractCommand fs ops) s = .next (setCmderr fs 4 s))) ∧
  (∀ (s : State) (a : Nat), dbgBusy s = false → s.h.dbg.open_ = true →
    (∀ fs, Nat.testBit s.h.dbg.grant 2 = false → exec (.sbaRead fs a) s = .next (setSberror fs 7 s)) ∧
    (Nat.testBit s.h.dbg.grant 2 = true → (regAt a).isSome = true → isRemote a = false →
      exec (.sbaRead false a) s = .next { s with h.dbg.sbdMp := peekAt false .debug s a }) ∧
    (Nat.testBit s.h.dbg.grant 2 = true → (regAt a).isSome = true → fsReaches a = true → s.h.tahr.link = true → remoteBusy s .debug = false →
      exec (.sbaRead true a) s = .next (remoteSend .debug 1 [(a, 1)] 1 s))) ∧
  (∀ (s : State) (a : Nat) (v : Word), dbgBusy s = false → s.h.dbg.open_ = true →
    (∀ fs, sessionOpen s = false ∨ Nat.testBit s.h.dbg.grant 3 = false ∨ runGrant s fs = false →
      exec (.sbaWrite fs a v) s = .next (setSberror fs 7 (recordRefusal false .debug a 0x08 s))) ∧
    (sessionOpen s = true → Nat.testBit s.h.dbg.grant 3 = true → runGrant s false = true →
      exec (.sbaWrite false a v) s = .next (if (busWrite .debug a v s).2 = 0 ∨ (busWrite .debug a v s).2 = 0x0F then (busWrite .debug a v s).1
        else setSberror false 7 (busWrite .debug a v s).1)) ∧
    (sessionOpen s = true → Nat.testBit s.h.dbg.grant 3 = true → runGrant s true = true → sbaFsStatus s a v.toNat = none → s.h.tahr.link = true →
      remoteBusy s .debug = false → exec (.sbaWrite true a v) s = .next (remoteSend .debug 2 [(a, v.toNat)] 1 (windowAfter s .debug a v.toNat s))))
end

