-- ==== Sys2Proof/Laws/Memory.lean ====
section
/-! SUPPORT. The register file and the boot flash as sparse maps: what is read after a write, and that every operation keeps the canonical form. -/

namespace Sys2Proof.Laws

open Sys2Proof Sys2Proof.Machine

/-! ## Sparse maps -/

theorem rising_weaken {α : Type} (m : KMap α) (lo hi : Nat) (h : KMap.rising (some hi) m = true) (hl : lo ≤ hi) :
    KMap.rising (some lo) m = true := by
  cases m with
  | nil => rfl
  | cons p r =>
    simp only [KMap.rising, Bool.and_eq_true, decide_eq_true_eq] at h ⊢
    exact ⟨by omega, h.2⟩

theorem rising_none {α : Type} (m : KMap α) (k : Nat) (h : KMap.rising (some k) m = true) : KMap.rising none m = true := by
  cases m with
  | nil => rfl
  | cons p r =>
    simp only [KMap.rising, Bool.and_eq_true] at h ⊢
    exact ⟨trivial, h.2⟩

theorem rising_put {α : Type} (m : KMap α) (k : Nat) (v : α) :
    ∀ lo, KMap.rising lo m = true → (∀ l, lo = some l → l < k) → KMap.rising lo (KMap.put m k v) = true := by
  induction m with
  | nil =>
    intro lo _ hl
    cases lo with
    | none => rfl
    | some l => simp [KMap.put, KMap.rising, hl l rfl]
  | cons p r ih =>
    obtain ⟨a, u⟩ := p
    intro lo h hl
    simp only [KMap.rising, Bool.and_eq_true] at h
    unfold KMap.put
    split
    · rename_i hka
      simp only [KMap.rising, Bool.and_eq_true, decide_eq_true_eq]
      refine ⟨?_, hka, h.2⟩
      cases lo with
      | none => rfl
      | some l => simpa using hl l rfl
    · split
      · rename_i hak
        subst hak
        simp only [KMap.rising, Bool.and_eq_true]
        exact ⟨h.1, h.2⟩
      · simp only [KMap.rising, Bool.and_eq_true]
        exact ⟨h.1, ih (some a) h.2 (fun l hl' => by simp at hl'; omega)⟩

theorem rising_del {α : Type} (m : KMap α) (k : Nat) : ∀ lo, KMap.rising lo m = true → KMap.rising lo (KMap.del m k) = true := by
  induction m with
  | nil => intro lo _; rfl
  | cons p r ih =>
    obtain ⟨a, u⟩ := p
    intro lo h
    simp only [KMap.rising, Bool.and_eq_true] at h
    unfold KMap.del
    split
    · cases lo with
      | none => exact rising_none r a h.2
      | some l =>
        have := h.1
        simp only [decide_eq_true_eq] at this
        exact rising_weaken r l a h.2 (Nat.le_of_lt this)
    · simp only [KMap.rising, Bool.and_eq_true]
      exact ⟨h.1, ih (some a) h.2⟩

theorem rising_filter {α : Type} (m : KMap α) (p : Nat × α → Bool) : ∀ lo, KMap.rising lo m = true → KMap.rising lo (m.filter p) = true := by
  induction m with
  | nil => intro lo _; rfl
  | cons q r ih =>
    obtain ⟨a, u⟩ := q
    intro lo h
    simp only [KMap.rising, Bool.and_eq_true] at h
    rw [List.filter_cons]
    split
    · simp only [KMap.rising, Bool.and_eq_true]
      exact ⟨h.1, ih (some a) h.2⟩
    · apply ih
      cases lo with
      | none => exact rising_none r a h.2
      | some l =>
        have := h.1
        simp only [decide_eq_true_eq] at this
        exact rising_weaken r l a h.2 (Nat.le_of_lt this)

theorem all_put {α : Type} (m : KMap α) (k : Nat) (v : α) (p : Nat × α → Bool) (h : m.all p = true) (hv : p (k, v) = true) :
    (KMap.put m k v).all p = true := by
  induction m with
  | nil => simp [KMap.put, hv]
  | cons q r ih =>
    obtain ⟨a, u⟩ := q
    simp only [List.all_cons, Bool.and_eq_true] at h
    unfold KMap.put
    split
    · simp only [List.all_cons, Bool.and_eq_true]; exact ⟨hv, h.1, h.2⟩
    · split
      · simp only [List.all_cons, Bool.and_eq_true]; exact ⟨hv, h.2⟩
      · simp only [List.all_cons, Bool.and_eq_true]; exact ⟨h.1, ih h.2⟩

theorem all_del {α : Type} (m : KMap α) (k : Nat) (p : Nat × α → Bool) (h : m.all p = true) : (KMap.del m k).all p = true := by
  induction m with
  | nil => rfl
  | cons q r ih =>
    obtain ⟨a, u⟩ := q
    simp only [List.all_cons, Bool.and_eq_true] at h
    unfold KMap.del
    split
    · exact h.2
    · simp only [List.all_cons, Bool.and_eq_true]; exact ⟨h.1, ih h.2⟩

theorem get?_above {α : Type} (m : KMap α) (k lo : Nat) (h : KMap.rising (some lo) m = true) (hk : k ≤ lo) : KMap.get? m k = none := by
  induction m generalizing lo with
  | nil => rfl
  | cons q r ih =>
    obtain ⟨a, u⟩ := q
    simp only [KMap.rising, Bool.and_eq_true, decide_eq_true_eq] at h
    unfold KMap.get?
    rw [if_neg (by omega)]
    exact ih a h.2 (by omega)

theorem get?_put {α : Type} (m : KMap α) (k j : Nat) (v : α) (h : KMap.rising none m = true) :
    KMap.get? (KMap.put m k v) j = if k = j then some v else KMap.get? m j := by
  induction m with
  | nil => simp [KMap.put, KMap.get?]
  | cons q r ih =>
    obtain ⟨a, u⟩ := q
    simp only [KMap.rising, Bool.and_eq_true] at h
    have hr := rising_none r a h.2
    unfold KMap.put
    split
    · simp [KMap.get?]
    · split
      · rename_i hak
        subst hak
        simp only [KMap.get?]
        split <;> rfl
      · rename_i h1 h2
        simp only [KMap.get?]
        rw [ih hr]
        split
        · rename_i haj
          subst haj
          rw [if_neg (fun e => h2 e.symm)]
        · rfl

theorem get?_del {α : Type} (m : KMap α) (k j : Nat) (h : KMap.rising none m = true) :
    KMap.get? (KMap.del m k) j = if k = j then none else KMap.get? m j := by
  induction m with
  | nil => simp [KMap.del, KMap.get?]
  | cons q r ih =>
    obtain ⟨a, u⟩ := q
    simp only [KMap.rising, Bool.and_eq_true] at h
    have hr := rising_none r a h.2
    unfold KMap.del
    split
    · rename_i hak
      subst hak
      split
      · rename_i haj
        subst haj
        exact get?_above r a a h.2 (Nat.le_refl _)
      · rename_i haj
        simp [KMap.get?, haj]
    · rename_i hak
      simp only [KMap.get?]
      rw [ih hr]
      split
      · rename_i haj
        subst haj
        rw [if_neg (fun e => hak e.symm)]
      · rfl

/-! ## The register file -/

theorem regFile_set_wf (m : KMap Word) (a : Nat) (v : Word) (h : RegFile.wf m = true) : RegFile.wf (RegFile.set m a v) = true := by
  simp only [RegFile.wf, Bool.and_eq_true] at h
  unfold RegFile.set
  split
  · simp only [RegFile.wf, Bool.and_eq_true]
    exact ⟨rising_del m a none h.1, all_del m a _ h.2⟩
  · rename_i hv
    simp only [RegFile.wf, Bool.and_eq_true]
    exact ⟨rising_put m a v none h.1 (fun l hl => by simp at hl), all_put m a v _ h.2 (by simpa using hv)⟩

theorem dropRegs_wf (m : KMap Word) (p : Nat → Bool) (h : RegFile.wf m = true) : RegFile.wf (dropRegs m p) = true := by
  simp only [RegFile.wf, Bool.and_eq_true] at h
  simp only [RegFile.wf, Bool.and_eq_true, dropRegs]
  refine ⟨rising_filter m _ none h.1, ?_⟩
  simp only [List.all_eq_true, List.mem_filter] at h ⊢
  exact fun x hx => h.2 x hx.1

theorem foldl_set_wf (l : List (Nat × Word)) (m : KMap Word) (h : RegFile.wf m = true) :
    RegFile.wf (l.foldl (fun m p => RegFile.set m p.1 p.2) m) = true := by
  induction l generalizing m with
  | nil => exact h
  | cons p r ih => exact ih _ (regFile_set_wf m p.1 p.2 h)

/-- A register read after a write: the value written at its address, what stood there before at every other. -/
theorem regFile_get_set (m : KMap Word) (a b : Nat) (v : Word) (h : RegFile.wf m = true) :
    RegFile.get (RegFile.set m a v) b = if a = b then v else RegFile.get m b := by
  simp only [RegFile.wf, Bool.and_eq_true] at h
  unfold RegFile.set RegFile.get
  split
  · rename_i hv
    rw [get?_del m a b h.1]
    split
    · rw [hv]; rfl
    · rfl
  · rw [get?_put m a b v h.1]
    split <;> rfl

/-- A register's number read after `setReg`, in 32 bits. -/
theorem reg_setReg (s : State) (a b v : Nat) (h : RegFile.wf s.regs = true) :
    reg (setReg s a v) b = if a = b then v % 2 ^ 32 else reg s b := by
  unfold reg setReg
  simp only
  rw [regFile_get_set s.regs a b _ h]
  split
  · rw [BitVec.toNat_ofNat]
  · rfl

/-! ## The boot flash -/

theorem cellsOk_weaken (m : List Host.Cell) (lo hi : Nat) (h : Flash.cellsOk (some hi) m = true) (hl : lo ≤ hi) :
    Flash.cellsOk (some lo) m = true := by
  cases m with
  | nil => rfl
  | cons p r =>
    simp only [Flash.cellsOk, Bool.and_eq_true, decide_eq_true_eq] at h ⊢
    exact ⟨⟨by omega, h.1.2⟩, h.2⟩

theorem cellsOk_none (m : List Host.Cell) (k : Nat) (h : Flash.cellsOk (some k) m = true) : Flash.cellsOk none m = true := by
  cases m with
  | nil => rfl
  | cons p r =>
    simp only [Flash.cellsOk, Bool.and_eq_true] at h ⊢
    exact ⟨⟨trivial, h.1.2⟩, h.2⟩

theorem cellsOk_tail (m : List Host.Cell) (c : Host.Cell) (lo : Option Nat) (h : Flash.cellsOk lo (c :: m) = true) : Flash.cellsOk lo m = true := by
  simp only [Flash.cellsOk, Bool.and_eq_true] at h
  cases lo with
  | none => exact cellsOk_none m c.1 h.2
  | some l =>
    have := h.1.1
    simp only [decide_eq_true_eq] at this
    exact cellsOk_weaken m l c.1 h.2 (Nat.le_of_lt this)

theorem cellsOk_put (m : List Host.Cell) (a : Nat) (v : Byte) :
    ∀ lo, Flash.cellsOk lo m = true → (∀ l, lo = some l → l < a) → Flash.cellsOk lo (Flash.putCell m a v) = true := by
  induction m with
  | nil =>
    intro lo _ hl
    unfold Flash.putCell
    split
    · rfl
    · rename_i hv
      cases lo with
      | none => simpa [Flash.cellsOk] using hv
      | some l => simpa [Flash.cellsOk, hl l rfl] using hv
  | cons c r ih =>
    intro lo h hl
    have h' := h
    simp only [Flash.cellsOk, Bool.and_eq_true] at h
    unfold Flash.putCell
    split
    · rename_i hac
      split
      · exact h'
      · rename_i hv
        simp only [Flash.cellsOk, Bool.and_eq_true, decide_eq_true_eq]
        refine ⟨⟨?_, hv⟩, ⟨hac, by simpa using h.1.2⟩, h.2⟩
        cases lo with
        | none => trivial
        | some l => exact decide_eq_true (hl l rfl)
    · split
      · rename_i hca
        split
        · exact cellsOk_tail r c lo h'
        · rename_i hv
          subst hca
          simp only [Flash.cellsOk, Bool.and_eq_true, decide_eq_true_eq]
          exact ⟨⟨h.1.1, hv⟩, h.2⟩
      · simp only [Flash.cellsOk, Bool.and_eq_true]
        exact ⟨h.1, ih (some c.1) h.2 (fun l hl' => by simp at hl'; omega)⟩

theorem cellsOk_filter (m : List Host.Cell) (p : Host.Cell → Bool) : ∀ lo, Flash.cellsOk lo m = true → Flash.cellsOk lo (m.filter p) = true := by
  induction m with
  | nil => intro lo _; rfl
  | cons c r ih =>
    intro lo h
    rw [List.filter_cons]
    split
    · have h' := h
      simp only [Flash.cellsOk, Bool.and_eq_true] at h ⊢
      exact ⟨h.1, ih (some c.1) h.2⟩
    · exact ih lo (cellsOk_tail r c lo h)

/-- Setting a byte of the boot flash keeps its canonical form. -/
theorem flash_set_wf (f : Flash) (a : Nat) (v : Byte) (h : Flash.wf f = true) : Flash.wf (f.set a v) = true :=
  cellsOk_put f.mem a v none h (fun l hl => by simp at hl)

/-- Programming bytes keeps the canonical form. -/
theorem flash_program_wf (bs : Bytes) : ∀ (f : Flash) (a : Nat), Flash.wf f = true → Flash.wf (f.program a bs) = true := by
  induction bs with
  | nil => intro f a h; exact h
  | cons b r ih => intro f a h; exact ih _ _ (flash_set_wf f a _ h)

/-- Erasing keeps the canonical form. -/
theorem flash_erase_wf (f : Flash) (a n : Nat) (h : Flash.wf f = true) : Flash.wf (f.erase a n) = true :=
  cellsOk_filter f.mem _ none h

/-- The byte that a list of cells gives an address. -/
def cellAt (m : List Host.Cell) (b : Nat) : Byte :=
  match m with
  | [] => 0xFF
  | c :: r => if c.1 = b then c.2 else cellAt r b

theorem flash_get_eq (f : Flash) (b : Nat) : f.get b = cellAt f.mem b := by
  unfold Flash.get
  induction f.mem with
  | nil => rfl
  | cons c r ih =>
    by_cases h : c.1 = b
    · rw [List.find?_cons_of_pos (by simpa using h)]; simp [cellAt, h]
    · rw [List.find?_cons_of_neg (by simpa using h), ih]; simp [cellAt, h]

theorem cellAt_above (r : List Host.Cell) (k b : Nat) (h : Flash.cellsOk (some k) r = true) (hb : b ≤ k) : cellAt r b = 0xFF := by
  induction r with
  | nil => rfl
  | cons d t ih =>
    have ht := cellsOk_tail t d (some k) h
    simp only [Flash.cellsOk, Bool.and_eq_true, decide_eq_true_eq] at h
    unfold cellAt
    rw [if_neg (by omega)]
    exact ih ht

/-- A cell put into a list reads back at its own address and leaves every other. -/
theorem cellAt_putCell (m : List Host.Cell) (a b : Nat) (v : Byte) : ∀ lo, Flash.cellsOk lo m = true →
    cellAt (Flash.putCell m a v) b = if a = b then v else cellAt m b := by
  induction m with
  | nil =>
    intro lo _
    unfold Flash.putCell
    split
    · rename_i hv
      rw [hv]
      split <;> rfl
    · rfl
  | cons c r ih =>
    intro lo h
    simp only [Flash.cellsOk, Bool.and_eq_true] at h
    unfold Flash.putCell
    split
    · rename_i hac
      have hlow : a = b → cellAt (c :: r) b = 0xFF := by
        intro e
        subst e
        unfold cellAt
        rw [if_neg (by omega)]
        exact cellAt_above r c.1 a h.2 (Nat.le_of_lt hac)
      split
      · rename_i hv
        split
        · rename_i e
          rw [hlow e, hv]
        · rfl
      · rfl
    · split
      · rename_i hca
        split
        · rename_i hv
          split
          · rename_i e
            rw [cellAt_above r c.1 b h.2 (by omega), hv]
          · rename_i e
            conv => rhs; unfold cellAt
            rw [if_neg (by omega)]
        · conv => rhs; unfold cellAt
          conv => lhs; unfold cellAt
          rw [hca]
          split <;> rfl
      · rename_i h1 h2
        have e := ih (some c.1) h.2
        conv => rhs; unfold cellAt
        conv => lhs; unfold cellAt
        rw [e]
        split
        · rename_i hcb
          rw [if_neg (by omega)]
        · rfl

/-- A flash byte read after a byte is set. -/
theorem flash_get_set (f : Flash) (a b : Nat) (v : Byte) (h : Flash.wf f = true) :
    (f.set a v).get b = if a = b then v else f.get b := by
  rw [flash_get_eq, flash_get_eq]
  exact cellAt_putCell f.mem a b v none h

end Sys2Proof.Laws
end

