-- ==== Sys2Proof/Laws/Accesses.lean ====
section
/-! SUPPORT. What a register access does, said once: the change journal's part, the windows and holds a write leaves, and the shape of a write that passes its checks. -/

namespace Sys2Proof.Laws

open Sys2Proof Sys2Proof.Machine

theorem get?_del_ne {α : Type} (m : KMap α) (a b : Nat) (h : b ≠ a) : KMap.get? (KMap.del m a) b = KMap.get? m b := by
  induction m with
  | nil => rfl
  | cons x r ih =>
    obtain ⟨k, w⟩ := x
    simp only [KMap.del, KMap.get?]
    by_cases hk : k = a
    · subst hk
      rw [if_pos rfl, if_neg (Ne.symm h)]
    · rw [if_neg hk]
      simp only [KMap.get?, ih]

theorem get?_put_ne {α : Type} (m : KMap α) (a b : Nat) (v : α) (h : b ≠ a) : KMap.get? (KMap.put m a v) b = KMap.get? m b := by
  induction m with
  | nil =>
    simp only [KMap.put, KMap.get?]
    rw [if_neg (Ne.symm h)]
  | cons x r ih =>
    obtain ⟨k, w⟩ := x
    simp only [KMap.put]
    split
    · simp only [KMap.get?]
      rw [if_neg (Ne.symm h)]
    · split
      · rename_i hk
        subst hk
        simp only [KMap.get?]
        rw [if_neg (Ne.symm h), if_neg (Ne.symm h)]
      · simp only [KMap.get?, ih]

/-- A register that another register's write does not touch. -/
theorem regFile_get_set_ne (m : KMap Word) (a b : Nat) (v : Word) (h : b ≠ a) : RegFile.get (RegFile.set m a v) b = RegFile.get m b := by
  unfold RegFile.get RegFile.set
  split
  · rw [get?_del_ne m a b h]
  · rw [get?_put_ne m a b v h]

/-- An entry of the journal, as the three changes it makes. -/
theorem jPut_eq (stamp origin kind grp code : Nat) (data : Bytes) (s : State) :
    ∃ (c : Bool) (j : Journal), jPut stamp origin kind grp code data s =
      jKeep (if c = true then setInt 6 { s with h.jrn := j } else { s with h.jrn := j }) := by
  unfold jPut
  dsimp only
  exact ⟨_, _, rfl⟩

/-- A state with the journal's part of a write put in. -/
def withJournal (j : Journal) (k1 k2 : Nat) (k3 : Bool) (rg : KMap Word) (s : State) : State :=
  { s with h.jrn := j, keeper.jrnLast := k1, keeper.jrnAck := k2, keeper.jrnValid := k3, regs := rg }

/-- A state with the windows and holds of a write put in. -/
def withTail (w1 w2 h1 h2 : KMap Nat) (s : State) : State :=
  { s with h.port.windows := w1, f.windows := w2, h.img.holds := h1, f.holds := h2 }

/-- An entry of the journal, with all it may change. -/
theorem jPut_shape (st o k g c : Nat) (d : Bytes) (s : State) : ∃ j k1 k2 k3 rg, jPut st o k g c d s = withJournal j k1 k2 k3 rg s ∧
    (∀ b, b ≠ 0x4C → RegFile.get rg b = RegFile.get s.regs b) ∧ (RegFile.wf s.regs = true → RegFile.wf rg = true) := by
  obtain ⟨b, j, e⟩ := jPut_eq st o k g c d s
  cases b
  · exact ⟨j, _, _, true, s.regs, e, fun _ _ => rfl, id⟩
  · refine ⟨j, j.lastSeq, j.ackSeq, true, RegFile.set s.regs 0x4C _, e, fun b hb => ?_, fun h => ?_⟩
    · exact regFile_get_set_ne s.regs 0x4C b _ hb
    · exact regFile_set_wf s.regs 0x4C _ h

/-- What lies beside a write's effect once its journal entry is written. -/
theorem jChange_shape (stamp origin : Nat) (es : List (Nat × Nat × Bytes)) (s : State) :
    ∃ j k1 k2 k3 rg, jChange stamp origin es s = withJournal j k1 k2 k3 rg s ∧ (∀ b, b ≠ 0x4C → RegFile.get rg b = RegFile.get s.regs b) ∧
      (RegFile.wf s.regs = true → RegFile.wf rg = true) := by
  have segs : ∀ (es : List (Nat × Nat × Bytes)) (seg : Nat) (s : State), ∃ j k1 k2 k3 rg, jSegments stamp origin es seg s = withJournal j k1 k2 k3 rg s ∧
      (∀ b, b ≠ 0x4C → RegFile.get rg b = RegFile.get s.regs b) ∧ (RegFile.wf s.regs = true → RegFile.wf rg = true) := by
    intro es
    induction es with
    | nil => exact fun _ s => ⟨_, _, _, _, _, rfl, fun _ _ => rfl, id⟩
    | cons x r ih =>
      intro seg s
      obtain ⟨k, c, d⟩ := x
      unfold jSegments
      dsimp only
      obtain ⟨j1, a1, b1, c1, g1, e1, r1, w1⟩ := jPut_shape stamp origin k ((if seg = 0 then min 256 (r.length + 1) else seg) - 1)
        (c + if r.length + 1 > (if seg = 0 then min 256 (r.length + 1) else seg) then 128 else 0) d s
      rw [e1]
      obtain ⟨j2, a2, b2, c2, g2, e2, r2, w2⟩ := ih ((if seg = 0 then min 256 (r.length + 1) else seg) - 1) (withJournal j1 a1 b1 c1 g1 s)
      exact ⟨j2, a2, b2, c2, g2, e2, fun b hb => (r2 b hb).trans (r1 b hb), fun h => w2 (w1 h)⟩
  unfold jChange
  split
  · exact ⟨_, _, _, _, _, rfl, fun _ _ => rfl, id⟩
  · split
    · exact segs es 0 s
    · exact ⟨_, _, _, _, _, rfl, fun _ _ => rfl, id⟩

theorem setWindow_shape (fld : Bool) (o : Origin) (n : Nat) (s : State) :
    ∃ w1 w2, setWindow fld o n s = { s with h.port.windows := w1, f.windows := w2 } := by
  cases fld
  · exact ⟨_, _, rfl⟩
  · exact ⟨_, _, rfl⟩

theorem windowAfter_shape (s' : State) (o : Origin) (a v : Nat) (s : State) :
    ∃ w1 w2, windowAfter s' o a v s = { s with h.port.windows := w1, f.windows := w2 } := by
  unfold windowAfter
  dsimp only
  repeat' split
  all_goals first
    | exact setWindow_shape _ _ _ s
    | exact ⟨_, _, rfl⟩

theorem placeHold_shape (fs : Bool) (o : Origin) (d : RegDef) (a : Nat) (s : State) :
    ∃ h1 h2, placeHold fs o d a s = { s with h.img.holds := h1, f.holds := h2 } := by
  unfold placeHold
  repeat' split
  all_goals exact ⟨_, _, rfl⟩

theorem closeHost_shape (o : Origin) (s : State) :
    ∃ w1 w2, closeHost o s = { s with h.port.windows := w1, f.windows := w2 } := by
  unfold closeHost
  split
  · exact ⟨_, _, rfl⟩
  · exact ⟨_, _, rfl⟩

/-- The state in which a write sets off its effect: what it must keep is kept, and the register holds its value. -/
def written (fs : Bool) (o : Origin) (d : RegDef) (a v : Nat) (s : State) : State :=
  let s1 := beforeWrite a (peekReg s fs o d a) v s
  if storesElsewhere a then s1 else setReg s1 (storeKey fs d o a) (mergeRw d (reg s1 (storeKey fs d o a)) v)

/-- A write applied: its effect, then the window and the hold it leaves. -/
theorem applyWrite_shape (fs : Bool) (o : Origin) (a v : Nat) (s : State) (d : RegDef) (hd : regAt a = some d) :
    ∃ w1 w2 h1 h2, applyWrite fs o a v s = withTail w1 w2 h1 h2 (regEffect fs o a (peekReg s fs o d a) v (written fs o d a v s)) := by
  unfold applyWrite
  rw [hd]
  dsimp only
  obtain ⟨w1, w2, e⟩ := windowAfter_shape s o a v (regEffect fs o a (peekReg s fs o d a) v (written fs o d a v s))
  unfold written at e ⊢
  dsimp only at e ⊢
  rw [e]
  obtain ⟨h1, h2, e'⟩ := placeHold_shape fs o d a { (regEffect fs o a (peekReg s fs o d a) v
    (if storesElsewhere a then beforeWrite a (peekReg s fs o d a) v s
      else setReg (beforeWrite a (peekReg s fs o d a) v s) (storeKey fs d o a)
        (mergeRw d (reg (beforeWrite a (peekReg s fs o d a) v s) (storeKey fs d o a)) v))) with h.port.windows := w1, f.windows := w2 }
  rw [e']
  exact ⟨w1, w2, h1, h2, rfl⟩

/-- One write of a host-die register that passes its checks, before the windows of the host port close. -/
theorem hostWrite_shape (s : State) (o : Origin) (a v : Nat) (d : RegDef) (hm : hostModeStatus s o = none) (hs : hostWriteStatus s o a v 0 = none)
    (hd : regAt a = some d) :
    ∃ j k1 k2 k3 rg w1 w2 h1 h2, (∀ b, b ≠ 0x4C → RegFile.get rg b = RegFile.get s.regs b) ∧ (RegFile.wf s.regs = true → RegFile.wf rg = true) ∧
      hostWrites o [(a, v)] s = (withTail w1 w2 h1 h2 (regEffect false o a (peekReg (withJournal j k1 k2 k3 rg s) false o d a) v
        (written false o d a v (withJournal j k1 k2 k3 rg s))), 0) := by
  unfold hostWrites
  simp only [hm, checkHostWrites, List.length_nil, hs, hd, List.nil_append, List.foldl_cons, List.foldl_nil]
  obtain ⟨j, k1, k2, k3, rg, ej, hr, hw⟩ := jChange_shape s.time.now o.code (writeEntries s o d a v) s
  rw [ej]
  obtain ⟨w1, w2, g1, g2, ea⟩ := applyWrite_shape false o a v (withJournal j k1 k2 k3 rg s) d hd
  rw [ea]
  exact ⟨j, k1, k2, k3, rg, w1, w2, g1, g2, hr, hw, rfl⟩

/-- A host-die register's write that passes its checks: the journal takes it, its effect follows on that state, and windows and holds change beside it. -/
theorem masterWrite_shape (s : State) (o : Origin) (a v : Nat) (d : RegDef) (hp : passes s o a v) (hd : regAt a = some d) (hv : v < 2 ^ 32) :
    ∃ j k1 k2 k3 rg w1 w2 h1 h2, (∀ b, b ≠ 0x4C → RegFile.get rg b = RegFile.get s.regs b) ∧ (RegFile.wf s.regs = true → RegFile.wf rg = true) ∧
      masterWrite o a v s = withTail w1 w2 h1 h2 (regEffect false o a (peekReg (withJournal j k1 k2 k3 rg s) false o d a) v
        (written false o d a v (withJournal j k1 k2 k3 rg s))) := by
  obtain ⟨h1, h2, h3, h4, h5⟩ := hp
  unfold masterWrite busWrite
  rw [if_pos h1, if_neg h2, h3]
  have e : (BitVec.ofNat 32 v).toNat = v := by
    rw [BitVec.toNat_ofNat]
    exact Nat.mod_eq_of_lt hv
  simp only [Bool.false_eq_true, if_false, e]
  obtain ⟨j, k1, k2, k3, rg, w1, w2, g1, g2, hr, hw, ea⟩ := hostWrite_shape s o a v d h4 h5 hd
  rw [ea]
  obtain ⟨w1', w2', ec⟩ := closeHost_shape o (withTail w1 w2 g1 g2 (regEffect false o a (peekReg (withJournal j k1 k2 k3 rg s) false o d a) v
    (written false o d a v (withJournal j k1 k2 k3 rg s))))
  rw [ec]
  exact ⟨j, k1, k2, k3, rg, w1', w2', g1, g2, hr, hw, rfl⟩

/-- What a write leaves beside its effect, from its parts. -/
theorem beside_parts (A : List Nat) (s : State) (j : Journal) (k1 k2 : Nat) (k3 : Bool) (rg : KMap Word) (w1 w2 h1 h2 : KMap Nat)
    (hr : ∀ b, b ≠ 0x4C → b ∉ A → RegFile.get rg b = RegFile.get s.regs b) (hw : RegFile.wf s.regs = true → RegFile.wf rg = true) :
    beside A s (withTail w1 w2 h1 h2 (withJournal j k1 k2 k3 rg s)) := ⟨rfl, hr, hw⟩

theorem written_stored {fs : Bool} (o : Origin) (d : RegDef) (a v : Nat) (u : State) (hd : regAt a = some d) (he : storesElsewhere a = false)
    (hb : beforeWrite a (peekReg u fs o d a) v u = u) : written fs o d a v u = stored fs o a v u := by
  unfold written stored
  rw [hd]
  dsimp only
  rw [hb, he]
  rfl

/-- A write that passes its checks is taken, with its effect. -/
theorem masterWrite_wrote (s : State) (o : Origin) (a v : Nat) (G : State → State) (hp : passes s o a v) (hv : v < 2 ^ 32)
    (hG : ∀ d u, regAt a = some d → regEffect false o a (peekReg u false o d a) v (written false o d a v u) = G u) :
    wrote s G (masterWrite o a v s) := by
  have h5 := hp.2.2.2.2
  cases hd : regAt a with
  | none =>
    unfold hostWriteStatus at h5
    rw [hd] at h5
    cases h5
  | some d =>
    obtain ⟨j, k1, k2, k3, rg, w1, w2, h1, h2, hr, hw, e⟩ := masterWrite_shape s o a v d hp hd hv
    refine ⟨withJournal j k1 k2 k3 rg s, ⟨rfl, fun b hb _ => hr b hb, hw⟩, ?_⟩
    rw [e, hG d _ hd]
    rfl

/-- A store of the FS that passes its checks is taken, with its effect and the journal's report. -/
theorem masterWrite_wroteFs (s : State) (a v : Nat) (G : State → State) (hp : passesFs s a v) (hv : v < 2 ^ 32)
    (hG : ∀ d, regAt a = some d → regEffect true .fs a (peekReg s true .fs d a) v (written true .fs d a v s) = G s) :
    wroteFs a v G s (masterWrite .fs a v s) := by
  obtain ⟨h1, h2⟩ := hp
  have e : (BitVec.ofNat 32 v).toNat = v := by
    rw [BitVec.toNat_ofNat]
    exact Nat.mod_eq_of_lt hv
  have em : masterWrite .fs a v s = fieldApply .fs a v s := by
    unfold masterWrite
    rw [if_pos (show busMaster .fs = true from rfl)]
    unfold closeHost
    rw [if_neg (show ¬ Origin.fs = Origin.hostSpi by decide)]
    unfold busWrite
    rw [if_pos rfl, e]
    unfold fsWrite
    rw [h1, h2]
    rfl
  rw [em]
  unfold fieldApply wroteFs
  cases hd : regAt a with
  | none =>
    unfold fieldWriteStatus at h2
    rw [hd] at h2
    cases h2
  | some d =>
    obtain ⟨w1, w2, g1, g2, ea⟩ := applyWrite_shape true .fs a v s d hd
    refine ⟨applyWrite true .fs a v s, ?_, rfl⟩
    rw [ea, hG d hd]
    rfl

/-- A register set after the journal's part of a write, read back. -/
theorem reg_set_get (rg : KMap Word) (a v : Nat) (h : RegFile.wf rg = true) (hv : v < 2 ^ 32) :
    (RegFile.get (RegFile.set rg a (BitVec.ofNat 32 v)) a).toNat = v := by
  rw [regFile_get_set rg a a _ h, if_pos rfl, BitVec.toNat_ofNat]
  exact Nat.mod_eq_of_lt hv

end Sys2Proof.Laws
end

