-- ==== Sys2Proof/Laws/Bits.lean ====
section
/-! SUPPORT. Bit fields: a field put into a number reads back, and leaves the others. -/

namespace Sys2Proof.Laws

open Sys2Proof

theorem putBits_split (v lo w x : Nat) : putBits v lo w x = v % 2 ^ lo + (x % 2 ^ w + v / 2 ^ (lo + w) * 2 ^ w) * 2 ^ lo := by
  unfold putBits
  rw [Nat.pow_add]
  ring

/-- A field put reads back, cut to its width. -/
theorem bits_putBits (v lo w x : Nat) : bits (putBits v lo w x) lo w = x % 2 ^ w := by
  rw [putBits_split]
  unfold bits
  rw [Nat.add_mul_div_right _ _ (Nat.two_pow_pos lo), Nat.div_eq_of_lt (Nat.mod_lt _ (Nat.two_pow_pos lo)), Nat.zero_add,
    Nat.add_mul_mod_self_right, Nat.mod_mod]

/-- A field put leaves a field below it. -/
theorem bits_putBits_below (v lo w x lo' w' : Nat) (h : lo' + w' ≤ lo) : bits (putBits v lo w x) lo' w' = bits v lo' w' := by
  rw [putBits_split]
  obtain ⟨k, rfl⟩ := Nat.exists_eq_add_of_le h
  generalize x % 2 ^ w + v / 2 ^ (lo' + w' + k + w) * 2 ^ w = y
  unfold bits
  have e1 : v % 2 ^ (lo' + w' + k) + y * 2 ^ (lo' + w' + k) = v % 2 ^ (lo' + w' + k) + (y * 2 ^ k * 2 ^ w') * 2 ^ lo' := by
    rw [Nat.pow_add, Nat.pow_add]
    ring
  rw [e1, Nat.add_mul_div_right _ _ (Nat.two_pow_pos lo'), Nat.add_mul_mod_self_right]
  have e2 : v = v % 2 ^ (lo' + w' + k) + (v / 2 ^ (lo' + w' + k) * 2 ^ k * 2 ^ w') * 2 ^ lo' := by
    have := Nat.mod_add_div v (2 ^ (lo' + w' + k))
    rw [Nat.pow_add, Nat.pow_add] at this ⊢
    linarith
  conv_rhs => rw [e2, Nat.add_mul_div_right _ _ (Nat.two_pow_pos lo'), Nat.add_mul_mod_self_right]

/-- A field put leaves a field above it. -/
theorem bits_putBits_above (v lo w x lo' w' : Nat) (h : lo + w ≤ lo') : bits (putBits v lo w x) lo' w' = bits v lo' w' := by
  obtain ⟨k, rfl⟩ := Nat.exists_eq_add_of_le h
  unfold bits putBits
  have lt : v % 2 ^ lo + x % 2 ^ w * 2 ^ lo < 2 ^ (lo + w) := by
    have h1 := Nat.mod_lt v (Nat.two_pow_pos lo)
    have h2 := Nat.mod_lt x (Nat.two_pow_pos w)
    have h3 := Nat.mul_le_mul_right (2 ^ lo) (Nat.succ_le_of_lt h2)
    rw [Nat.succ_mul, ← Nat.pow_add, Nat.add_comm w lo] at h3
    omega
  rw [Nat.pow_add _ (lo + w) k, ← Nat.div_div_eq_div_mul, ← Nat.div_div_eq_div_mul,
    Nat.add_mul_div_right _ _ (Nat.two_pow_pos (lo + w)), Nat.div_eq_of_lt lt, Nat.zero_add]

/-- A field within 32 bits put into a 32-bit number gives a 32-bit number. -/
theorem putBits_lt (v lo w x : Nat) (hv : v < 2 ^ 32) (h : lo + w ≤ 32) : putBits v lo w x < 2 ^ 32 := by
  unfold putBits
  have lt : v % 2 ^ lo + x % 2 ^ w * 2 ^ lo < 2 ^ (lo + w) := by
    have h1 := Nat.mod_lt v (Nat.two_pow_pos lo)
    have h2 := Nat.mod_lt x (Nat.two_pow_pos w)
    have h3 := Nat.mul_le_mul_right (2 ^ lo) (Nat.succ_le_of_lt h2)
    rw [Nat.succ_mul, ← Nat.pow_add, Nat.add_comm w lo] at h3
    omega
  obtain ⟨k, hk⟩ := Nat.exists_eq_add_of_le h
  have hp : (2 : Nat) ^ 32 = 2 ^ (lo + w) * 2 ^ k := by rw [← Nat.pow_add, ← hk]
  have hd : v / 2 ^ (lo + w) < 2 ^ k := by
    rw [Nat.div_lt_iff_lt_mul (Nat.two_pow_pos _), Nat.mul_comm, ← hp]
    exact hv
  have h4 := Nat.mul_le_mul_right (2 ^ (lo + w)) (Nat.succ_le_of_lt hd)
  rw [Nat.succ_mul, Nat.mul_comm (2 ^ k)] at h4
  rw [hp]
  omega

/-- The bits of a field, all of a 32-bit number. -/
theorem bits_all (v : Nat) (h : v < 2 ^ 32) : bits v 0 32 = v := by
  unfold bits
  rw [Nat.pow_zero, Nat.div_one]
  exact Nat.mod_eq_of_lt h

/-- A field of all 32 bits put over a 32-bit number. -/
theorem putBits_all (v x : Nat) (hv : v < 2 ^ 32) (hx : x < 2 ^ 32) : putBits v 0 32 (bits x 0 32) = x := by
  rw [bits_all x hx]
  unfold putBits
  rw [Nat.pow_zero, Nat.mod_one, Nat.zero_add, Nat.mul_one, Nat.mod_eq_of_lt hx, Nat.zero_add, Nat.div_eq_of_lt hv, Nat.zero_mul, Nat.add_zero]

/-- The model's bit test is the library's. -/
theorem bit_testBit (n i : Nat) : bit n i = n.testBit i := by
  rw [Nat.testBit_eq_decide_div_mod_eq]
  unfold bit
  rw [Bool.eq_iff_iff]
  simp

end Sys2Proof.Laws
end

