-- ==== Sys2Proof/Laws/Keeps.lean ====
section
/-! SUPPORT. What a change of state keeps, whatever else it does: the queue of commands, the one way of the fuses, the canonical forms, and pins that show the mode. One lemma per operation says that the operation keeps it; the statements about every step rest on them. -/

namespace Sys2Proof.Laws

open Sys2Proof Sys2Proof.Machine

/-- Which of the fixed things a change may not touch, and the changes of the root state it may bring. -/
structure Fix where
  /-- the boot flash stands -/
  flash : Prop
  /-- no fuse is blown -/
  otp : Prop
  /-- SYSCNT stands -/
  now : Prop
  /-- the PERMIT pins do not start to toggle -/
  permit : Prop
  /-- the root key stands -/
  key : Prop
  /-- the root state may go from the one code to the other -/
  enter : Nat → Nat → Prop

/-- Nothing fixed is touched. -/
def Fix.all : Fix := ⟨True, True, True, True, True, fun _ _ => False⟩

/-- What every operation keeps but the pins. -/
structure Holds (q : Fix) (r s : State) : Prop where
  pending : s.pending = r.pending
  fuses : otpForward r.otp s.otp
  regs : RegFile.wf r.regs = true → RegFile.wf s.regs = true
  cells : Flash.wf r.flash = true → Flash.wf s.flash = true
  flash : q.flash → s.flash = r.flash
  otp : q.otp → s.otp = r.otp
  now : q.now → s.time.now = r.time.now
  permit : q.permit → s.f.permit = true → r.f.permit = true
  key : q.key → s.keeper.root = r.keeper.root
  enter : s.keeper.rootState = r.keeper.rootState ∨ q.enter r.keeper.rootState s.keeper.rootState

/-- `Holds`, and the pins show the mode if they did. -/
structure Keeps (q : Fix) (r s : State) : Prop where
  holds : Holds q r s
  pins : pinsShow r → pinsShow s

theorem otpForward_refl (a : Otp) : otpForward a a :=
  ⟨⟨rfl, rfl, rfl, rfl, rfl, rfl⟩, fun h => ⟨Nat.le_refl _, h⟩, fun h => ⟨Nat.le_refl _, h⟩, id, id⟩

theorem otpForward_trans {a b c : Otp} (h1 : otpForward a b) (h2 : otpForward b c) : otpForward a c := by
  obtain ⟨⟨p1, p2, p3, p4, p5, p6⟩, f1, e1, u1, v1⟩ := h1
  obtain ⟨⟨q1, q2, q3, q4, q5, q6⟩, f2, e2, u2, v2⟩ := h2
  refine ⟨⟨q1.trans p1, q2.trans p2, q3.trans p3, q4.trans p4, q5.trans p5, q6.trans p6⟩, fun h => ?_, fun h => ?_,
    fun h => u2 (u1 h), fun h => v2 (v1 h)⟩
  · have := f1 h
    have := f2 this.2
    omega
  · have := e1 h
    have := e2 this.2
    omega

theorem holds_refl (q : Fix) (s : State) : Holds q s s :=
  ⟨rfl, otpForward_refl _, id, id, fun _ => rfl, fun _ => rfl, fun _ => rfl, fun _ h => h, fun _ => rfl, Or.inl rfl⟩

theorem keeps_refl (q : Fix) (s : State) : Keeps q s s := ⟨holds_refl q s, id⟩

/-- An update of other fields makes no difference to what holds. -/
theorem holds_upd {q : Fix} {r x : State} (h : Holds q r x) {fr : Nat} {sy : Sys} {ti : Time} {k : Keeper} {hd : HostDie} {fd : FieldDie}
    (hn : ti.now = x.time.now) (hp : fd.permit = x.f.permit) (hk : k.root = x.keeper.root) (hs : k.rootState = x.keeper.rootState) :
    Holds q r ⟨x.pending, fr, sy, ti, k, x.otp, x.flash, x.regs, hd, fd⟩ :=
  ⟨h.pending, h.fuses, h.regs, h.cells, h.flash, h.otp, fun e => hn.trans (h.now e), fun e a => h.permit e (hp.symm.trans a),
    fun e => hk.trans (h.key e), by
      show k.rootState = _ ∨ q.enter _ k.rootState
      rw [hs]
      exact h.enter⟩

/-- The pins show the mode where nothing that they depend on has changed. -/
theorem pinsShow_of_eq {x y : State} (hm : y.sys.mode = x.sys.mode) (hi : y.sys.inReset = x.sys.inReset) (hl : y.sys.holdLine = x.sys.holdLine)
    (ho : y.sys.safeOut = x.sys.safeOut) (he : y.h.dbg.extest = x.h.dbg.extest) (h : pinsShow x) : pinsShow y := by
  unfold pinsShow at h ⊢
  rw [hm, hi, hl, ho, he]
  exact h

/-- An update of other fields keeps it. -/
theorem keeps_upd {q : Fix} {r x : State} (h : Keeps q r x) {fr : Nat} {sy : Sys} {ti : Time} {k : Keeper} {hd : HostDie} {fd : FieldDie}
    (hm : sy.mode = x.sys.mode) (hi : sy.inReset = x.sys.inReset) (hl : sy.holdLine = x.sys.holdLine) (ho : sy.safeOut = x.sys.safeOut)
    (he : hd.dbg.extest = x.h.dbg.extest)
    (hn : ti.now = x.time.now) (hp : fd.permit = x.f.permit) (hk : k.root = x.keeper.root) (hs : k.rootState = x.keeper.rootState) :
    Keeps q r ⟨x.pending, fr, sy, ti, k, x.otp, x.flash, x.regs, hd, fd⟩ :=
  ⟨holds_upd h.holds hn hp hk hs, fun hr => pinsShow_of_eq hm hi hl ho he (h.pins hr)⟩

/-- An update of other fields, as a rewriting. -/
theorem keeps_mk {q : Fix} {r x : State} {fr : Nat} {sy : Sys} {ti : Time} {k : Keeper} {hd : HostDie} {fd : FieldDie}
    (hm : sy.mode = x.sys.mode) (hi : sy.inReset = x.sys.inReset) (hl : sy.holdLine = x.sys.holdLine) (ho : sy.safeOut = x.sys.safeOut)
    (he : hd.dbg.extest = x.h.dbg.extest)
    (hn : ti.now = x.time.now) (hp : fd.permit = x.f.permit) (hk : k.root = x.keeper.root) (hs : k.rootState = x.keeper.rootState) :
    Keeps q r ⟨x.pending, fr, sy, ti, k, x.otp, x.flash, x.regs, hd, fd⟩ = Keeps q r x :=
  propext ⟨fun h => ⟨⟨h.holds.pending, h.holds.fuses, h.holds.regs, h.holds.cells, h.holds.flash, h.holds.otp,
      fun e => hn.symm.trans (h.holds.now e), fun e a => h.holds.permit e (hp.trans a), fun e => hk.symm.trans (h.holds.key e), by
        have := h.holds.enter
        simp only [hs] at this
        exact this⟩,
      fun hr => pinsShow_of_eq (x := ⟨x.pending, fr, sy, ti, k, x.otp, x.flash, x.regs, hd, fd⟩) hm.symm hi.symm hl.symm ho.symm he.symm (h.pins hr)⟩,
    fun h => keeps_upd h hm hi hl ho he hn hp hk hs⟩

/-- An update of the register file keeps it where the register file's form is kept. -/
theorem keeps_regs {q : Fix} {r x : State} (h : Keeps q r x) {rg : KMap Word} (hw : RegFile.wf x.regs = true → RegFile.wf rg = true) :
    Keeps q r { x with regs := rg } :=
  ⟨⟨h.holds.pending, h.holds.fuses, fun e => hw (h.holds.regs e), h.holds.cells, h.holds.flash, h.holds.otp, h.holds.now,
    h.holds.permit, h.holds.key, h.holds.enter⟩, h.pins⟩

/-- What an operation keeps, told for a state whose pins are yet to be set. -/
theorem holds_via {q : Fix} {r s t : State} (hf : ∀ r', Keeps q r' s → Keeps q r' t) (h : Holds q r s) : Holds q r t := by
  have np : ¬ pinsShow { r with sys.holdLine := !(r.sys.inReset.isSome || r.h.dbg.extest || !r.sys.mode.live) } := by
    intro p
    have := p.1
    simp only [Bool.not_eq_eq_eq_not] at this
    cases hh : (r.sys.inReset.isSome || r.h.dbg.extest || !r.sys.mode.live) <;> simp [hh] at this
  have k := hf { r with sys.holdLine := !(r.sys.inReset.isSome || r.h.dbg.extest || !r.sys.mode.live) }
    ⟨⟨h.pending, h.fuses, h.regs, h.cells, h.flash, h.otp, h.now, h.permit, h.key, h.enter⟩, fun p => absurd p np⟩
  exact ⟨k.holds.pending, k.holds.fuses, k.holds.regs, k.holds.cells, k.holds.flash, k.holds.otp, k.holds.now, k.holds.permit, k.holds.key,
    k.holds.enter⟩

/-- `modePins` makes the pins show the mode. -/
theorem pinsShow_modePins (s : State) : pinsShow (modePins s) := by
  unfold pinsShow modePins
  cases hm : s.sys.mode <;> cases hi : s.sys.inReset <;> cases he : s.h.dbg.extest <;> simp [Mode.live, *]

theorem holds_modePins {q : Fix} {r s : State} (h : Holds q r s) : Holds q r (modePins s) := holds_upd h rfl rfl rfl rfl

theorem keeps_modePins {q : Fix} {r s : State} (h : Holds q r s) : Keeps q r (modePins s) :=
  ⟨holds_modePins h, fun _ => pinsShow_modePins s⟩

/-- A state on the way to another. -/
theorem keeps_cut {q : Fix} {r x y : State} (hx : Keeps q r x) (hy : Keeps q r x → Keeps q r y) : Keeps q r y := hy hx

/-- Folding an operation that keeps it keeps it. -/
theorem keeps_foldl {α : Type} {q : Fix} {r : State} (f : State → α → State) (hf : ∀ s x, Keeps q r s → Keeps q r (f s x)) (l : List α) :
    ∀ s, Keeps q r s → Keeps q r (l.foldl f s) := by
  induction l with
  | nil => exact fun s h => h
  | cons x l ih => exact fun s h => ih _ (hf s x h)

theorem keeps_ite {q : Fix} {r a b : State} {c : Prop} [Decidable c] (ha : Keeps q r a) (hb : Keeps q r b) : Keeps q r (if c then a else b) := by
  split
  · exact ha
  · exact hb

theorem keeps_ite1 {α : Type} {q : Fix} {r : State} {a b : State × α} {c : Prop} [Decidable c] (ha : Keeps q r a.1) (hb : Keeps q r b.1) :
    Keeps q r (if c then a else b).1 := by
  split
  · exact ha
  · exact hb

/-- Folding an operation on a state and a value beside it. -/
theorem keeps_foldP {α β : Type} {q : Fix} {r : State} (f : State × β → α → State × β) (hf : ∀ a x, Keeps q r a.1 → Keeps q r (f a x).1) (l : List α) :
    ∀ a, Keeps q r a.1 → Keeps q r (l.foldl f a).1 := by
  induction l with
  | nil => exact fun a h => h
  | cons x l ih => exact fun a h => ih _ (hf a x h)

/-- The first of a pair that was taken apart. -/
theorem keeps_of_eq {α : Type} {q : Fix} {r t : State} {p : State × α} {v : α} (e : p = (t, v)) (h : Keeps q r p.1) : Keeps q r t := by
  rw [e] at h
  exact h

/-- The second of a pair that was taken apart. -/
theorem keeps_of_eq2 {α : Type} {q : Fix} {r t : State} {p : α × State} {v : α} (e : p = (v, t)) (h : Keeps q r p.2) : Keeps q r t := by
  rw [e] at h
  exact h

theorem keeps_setReg {q : Fix} {r s : State} {a v : Nat} (h : Keeps q r s) : Keeps q r (setReg s a v) := by
  unfold setReg
  exact keeps_regs h (fun hw => regFile_set_wf _ _ _ hw)

end Sys2Proof.Laws
end

