-- ==== Sys2Proof/Laws/KeepsOps.lean ====
section
/-! SUPPORT. What the meanings of the shared operations, the fabric, the gateway, the buses, the Tahr link, keys and modes keep: one lemma for each, as Laws/Keeps.lean tells it. -/

namespace Sys2Proof.Laws

open Sys2Proof Sys2Proof.Machine

theorem keeps_setField {q : Fix} {r s : State} {x2 x3 x4 x5 : Nat} (h : Keeps q r s) : Keeps q r (setField s x2 x3 x4 x5) := by
  unfold setField
  try dsimp only
  repeat' (first
    | (with_reducible assumption) | (with_reducible apply keeps_setReg))

theorem keeps_bump {q : Fix} {r s : State} {x2 x3 x4 x5 : Nat} (h : Keeps q r s) : Keeps q r (bump s x2 x3 x4 x5) := by
  unfold bump
  try dsimp only
  repeat' (first
    | (with_reducible assumption) | (with_reducible apply keeps_setField))

theorem keeps_raise {q : Fix} {r : State} {x1 x2 : Nat} {s : State} (h : Keeps q r s) : Keeps q r (raise x1 x2 s) := by
  unfold raise
  try dsimp only
  repeat' (first
    | (with_reducible assumption) | simp only [↓keeps_mk] | (with_reducible apply keeps_ite))

theorem keeps_setInt {q : Fix} {r : State} {x1 : Nat} {s : State} (h : Keeps q r s) : Keeps q r (setInt x1 s) := by
  unfold setInt
  try dsimp only
  repeat' (first
    | (with_reducible assumption) | (with_reducible apply keeps_setField))

theorem keeps_dropLate {q : Fix} {r s : State} (h : Keeps q r s) : Keeps q r (dropLate s) := by
  unfold dropLate
  try dsimp only
  repeat' (first
    | (with_reducible assumption) | (with_reducible apply keeps_raise) | (with_reducible apply keeps_bump))

theorem keeps_setRole {q : Fix} {r : State} {x1 : Nat} {x2 : Role} {s : State} (h : Keeps q r s) : Keeps q r (setRole x1 x2 s) := by
  unfold setRole
  try dsimp only
  repeat' (first
    | (with_reducible assumption) | simp only [↓keeps_mk])

theorem keeps_jKeep {q : Fix} {r s : State} (h : Keeps q r s) : Keeps q r (jKeep s) := by
  unfold jKeep
  try dsimp only
  repeat' (first
    | (with_reducible assumption) | simp only [↓keeps_mk])

theorem keeps_jPut {q : Fix} {r : State} {x1 x2 x3 x4 x5 : Nat} {x6 : Bytes} {s : State} (h : Keeps q r s) : Keeps q r (jPut x1 x2 x3 x4 x5 x6 s) := by
  unfold jPut
  try dsimp only
  repeat' (first
    | (with_reducible assumption) | (with_reducible apply keeps_setInt) | (with_reducible apply keeps_jKeep) | simp only [↓keeps_mk]
    | (with_reducible apply keeps_ite))

theorem keeps_jSegments {q : Fix} {r : State} {x1 x2 : Nat} {x3 : List (Nat × Nat × Bytes)} {x4 : Nat} {s : State} (h : Keeps q r s) : Keeps q r (jSegments x1 x2 x3 x4 s) := by
  induction x3 generalizing x1 x2 x4 s h with
  | nil =>
    unfold jSegments
    try dsimp only
    repeat' (first
      | (with_reducible assumption))
  | cons p l ih =>
    unfold jSegments
    try dsimp only
    repeat' (first
      | (with_reducible assumption) | intro _ | (with_reducible apply ih) | (with_reducible apply keeps_jPut))

theorem keeps_jChange {q : Fix} {r : State} {x1 : Stamp} {x2 : Nat} {x3 : List (Nat × Nat × Bytes)} {s : State} (h : Keeps q r s) : Keeps q r (jChange x1 x2 x3 s) := by
  unfold jChange
  try dsimp only
  repeat' (first
    | (with_reducible assumption) | (with_reducible apply keeps_jSegments) | simp only [↓keeps_mk] | (with_reducible apply keeps_ite))

theorem keeps_jEvent {q : Fix} {r : State} {x1 x2 : Nat} {x3 : Bytes} {s : State} (h : Keeps q r s) : Keeps q r (jEvent x1 x2 x3 s) := by
  unfold jEvent
  try dsimp only
  repeat' (first
    | (with_reducible assumption) | (with_reducible apply keeps_jChange))

theorem keeps_jGap {q : Fix} {r s : State} (h : Keeps q r s) : Keeps q r (jGap s) := by
  unfold jGap
  try dsimp only
  repeat' (first
    | (with_reducible assumption) | (with_reducible apply keeps_jPut) | simp only [↓keeps_mk] | (with_reducible apply keeps_ite))

theorem keeps_jSent {q : Fix} {r s : State} (h : Keeps q r s) : Keeps q r (jSent s) := by
  unfold jSent
  try dsimp only
  repeat' (first
    | (with_reducible assumption) | intro _ | simp only [↓keeps_mk] | (with_reducible refine keeps_of_eq (by with_reducible assumption) ?_)
    | (with_reducible apply keeps_ite) | (with_reducible apply keeps_ite1) | split)

theorem keeps_setMode {q : Fix} {r : State} {x1 : Mode} {x2 : Nat} {s : State} (h : Keeps q r s) : Keeps q r (setMode x1 x2 s) := by
  unfold setMode
  split
  · exact h
  · exact keeps_modePins (holds_via (fun _ k => keeps_setInt (keeps_jEvent k)) (holds_upd (x := s) h.holds rfl rfl rfl rfl))

theorem keeps_setFmode {q : Fix} {r : State} {x1 : Bool} {x2 x3 : Nat} {s : State} (h : Keeps q r s) : Keeps q r (setFmode x1 x2 x3 s) := by
  unfold setFmode
  try dsimp only
  repeat' (first
    | (with_reducible assumption) | (with_reducible apply keeps_setInt) | (with_reducible apply keeps_jEvent) | simp only [↓keeps_mk]
    | (with_reducible apply keeps_ite))

theorem keeps_setOcc {q : Fix} {r s : State} {x2 x3 : Nat} (h : Keeps q r s) : Keeps q r (setOcc s x2 x3) := by
  unfold setOcc
  try dsimp only
  repeat' (first
    | (with_reducible assumption) | simp only [↓keeps_mk])

theorem keeps_notePorts {q : Fix} {r s : State} (h : Keeps q r s) : Keeps q r (notePorts s) := by
  unfold notePorts
  try dsimp only
  repeat' (first
    | (with_reducible assumption) | simp only [↓keeps_mk])

theorem keeps_setBlocked {q : Fix} {r : State} {x1 : Nat} {x2 : Bool} {s : State} (h : Keeps q r s) : Keeps q r (setBlocked x1 x2 s) := by
  unfold setBlocked
  try dsimp only
  repeat' (first
    | (with_reducible assumption) | intro _ | simp only [↓keeps_mk])

theorem keeps_setQueue {q : Fix} {r s : State} {x2 : Nat} {x3 : List Frame} (h : Keeps q r s) : Keeps q r (setQueue s x2 x3) := by
  unfold setQueue
  try dsimp only
  repeat' (first
    | (with_reducible assumption) | simp only [↓keeps_mk])

theorem keeps_submitAt {q : Fix} {r : State} {x1 : Nat} {x2 x3 : Stamp} {x4 x5 : Nat} {x6 : Bytes} {x7 : Bool} {x8 : Nat} {s : State} (h : Keeps q r s) : Keeps q r (submitAt x1 x2 x3 x4 x5 x6 x7 x8 s) := by
  unfold submitAt
  try dsimp only
  repeat' (first
    | (with_reducible assumption) | simp only [↓keeps_mk] | (with_reducible apply keeps_ite))

theorem keeps_submitMsg {q : Fix} {r : State} {x1 : Nat} {x2 : Bytes} {x3 : Nat} {s : State} (h : Keeps q r s) : Keeps q r (submitMsg x1 x2 x3 s) := by
  unfold submitMsg
  try dsimp only
  repeat' (first
    | (with_reducible assumption) | (with_reducible apply keeps_submitAt))

theorem keeps_takeFree {q : Fix} {r s : State} (h : Keeps q r s) : Keeps q r (takeFree s).1 := by
  unfold takeFree
  try dsimp only
  repeat' (first
    | (with_reducible assumption) | simp only [↓keeps_mk])

theorem keeps_hostStatus {q : Fix} {r : State} {x1 : Nat} {s : State} (h : Keeps q r s) : Keeps q r (hostStatus x1 s) := by
  unfold hostStatus
  try dsimp only
  repeat' (first
    | (with_reducible assumption) | (with_reducible apply keeps_bump) | simp only [↓keeps_mk] | (with_reducible apply keeps_ite))

theorem keeps_hostRefuse {q : Fix} {r : State} {x1 : Nat} {s : State} (h : Keeps q r s) : Keeps q r (hostRefuse x1 s) := by
  unfold hostRefuse
  try dsimp only
  repeat' (first
    | (with_reducible assumption) | (with_reducible apply keeps_hostStatus))

theorem keeps_touchSlot {q : Fix} {r : State} {x1 x2 : Nat} {x3 : Bool} {s : State} (h : Keeps q r s) : Keeps q r (touchSlot x1 x2 x3 s) := by
  unfold touchSlot
  try dsimp only
  repeat' (first
    | (with_reducible assumption) | simp only [↓keeps_mk] | (with_reducible refine keeps_of_eq (by with_reducible assumption) ?_) | split)

theorem keeps_dropSlots {q : Fix} {r : State} {x1 : Nat} {x2 : Option Nat} {s : State} (h : Keeps q r s) : Keeps q r (dropSlots x1 x2 s) := by
  unfold dropSlots
  try dsimp only
  repeat' (first
    | (with_reducible assumption) | intro _ | simp only [↓keeps_mk])

theorem keeps_keyEvent {q : Fix} {r : State} {x1 x2 x3 x4 : Nat} {s : State} (h : Keeps q r s) : Keeps q r (keyEvent x1 x2 x3 x4 s) := by
  unfold keyEvent
  try dsimp only
  repeat' (first
    | (with_reducible assumption) | (with_reducible apply keeps_jEvent))

theorem keeps_eraseHandle {q : Fix} {r : State} {x1 : Nat} {s : State} (h : Keeps q r s) : Keeps q r (eraseHandle x1 s) := by
  unfold eraseHandle
  try dsimp only
  repeat' (first
    | (with_reducible assumption) | intro _ | (with_reducible apply keeps_setRole) | (with_reducible apply keeps_dropSlots)
    | (with_reducible apply keeps_keyEvent) | simp only [↓keeps_mk])

theorem keeps_installOn {q : Fix} {r : State} {x1 x2 x3 : Nat} {x4 : Bytes} {s : State} (h : Keeps q r s) : Keeps q r (installOn x1 x2 x3 x4 s) := by
  unfold installOn
  try dsimp only
  repeat' (first
    | (with_reducible assumption) | (with_reducible apply keeps_keyEvent) | (with_reducible apply keeps_touchSlot) | (with_reducible apply keeps_setRole)
    | simp only [↓keeps_mk] | (with_reducible refine keeps_of_eq (by with_reducible assumption) ?_) | split)

theorem keeps_endGrace {q : Fix} {r : State} {x1 : Nat} {s : State} (h : Keeps q r s) : Keeps q r (endGrace x1 s) := by
  unfold endGrace
  try dsimp only
  repeat' (first
    | (with_reducible assumption) | (with_reducible apply keeps_keyEvent) | (with_reducible apply keeps_dropSlots) | (with_reducible apply keeps_setRole)
    | simp only [↓keeps_mk] | (with_reducible refine keeps_of_eq (by with_reducible assumption) ?_) | split)

theorem keeps_commitPending {q : Fix} {r : State} {x1 : Nat} {s : State} (h : Keeps q r s) : Keeps q r (commitPending x1 s) := by
  unfold commitPending
  try dsimp only
  repeat' (first
    | (with_reducible assumption) | (with_reducible apply keeps_endGrace) | (with_reducible apply keeps_dropSlots) | (with_reducible apply keeps_touchSlot)
    | (with_reducible apply keeps_setRole) | (with_reducible apply keeps_keyEvent) | simp only [↓keeps_mk]
    | (with_reducible refine keeps_of_eq (by with_reducible assumption) ?_) | (with_reducible apply keeps_ite) | split)

theorem keeps_verifyRoles' {q : Fix} {r : State} {x2 x3 : Nat} {x4 x5 : Bytes} {s t : State} (e : verifyRoles s x2 x3 x4 x5 = .good t) (h : Keeps q r s) : Keeps q r t := by
  unfold verifyRoles at e
  try dsimp only at e
  repeat' (split at e)
  all_goals (try (simp only [MacResult.good.injEq, reduceCtorEq] at e))
  all_goals (try (subst e))
  all_goals (first
    | exact h
    | exact keeps_touchSlot h
    | exact keeps_commitPending h)

theorem keeps_macVerify' {q : Fix} {r : State} {x2 : Nat} {x3 x4 : Bytes} {s t : State} (e : macVerify s x2 x3 x4 = .good t) (h : Keeps q r s) : Keeps q r t :=
  keeps_verifyRoles' e h

theorem keeps_markDead {q : Fix} {r s : State} (h : Keeps q r s) : Keeps q r (markDead s) := by
  unfold markDead
  try dsimp only
  repeat' (first
    | (with_reducible assumption) | intro _ | simp only [↓keeps_mk])

theorem keeps_zeroKeys {q : Fix} {r s : State} (h : Keeps q r s) (hkey : ¬ q.key) : Keeps q r (zeroKeys s) :=
  ⟨⟨h.holds.pending, h.holds.fuses, h.holds.regs, h.holds.cells, h.holds.flash, h.holds.otp, h.holds.now, h.holds.permit,
    fun e => absurd e hkey, h.holds.enter⟩, h.pins⟩

theorem keeps_putLive {q : Fix} {r s : State} {x2 x3 : Nat} {x4 : Bytes} (h : Keeps q r s) : Keeps q r (putLive s x2 x3 x4) := by
  unfold putLive
  try dsimp only
  repeat' (first
    | (with_reducible assumption) | simp only [↓keeps_mk] | (with_reducible refine keeps_of_eq (by with_reducible assumption) ?_) | split)

theorem keeps_countDrop {q : Fix} {r : State} {x1 : Nat} {x2 : Drop} {s : State} (h : Keeps q r s) : Keeps q r (countDrop x1 x2 s) := by
  unfold countDrop
  try dsimp only
  repeat' (first
    | (with_reducible assumption) | (with_reducible apply keeps_bump))

theorem keeps_verifyStage {q : Fix} {r s : State} {x2 x3 x4 : Nat} {x5 : Bytes} (h : Keeps q r s) : Keeps q r (verifyStage s x2 x3 x4 x5).1 := by
  unfold verifyStage
  try dsimp only
  repeat' (first
    | (with_reducible assumption) | intro _ | (with_reducible apply keeps_bump) | (with_reducible apply keeps_putLive) | simp only [↓keeps_mk]
    | (with_reducible refine keeps_of_eq (by with_reducible assumption) ?_) | (with_reducible apply keeps_ite) | (with_reducible apply keeps_ite1)
    | (with_reducible refine keeps_macVerify' (by with_reducible assumption) ?_) | split)

theorem keeps_policeResult {q : Fix} {r : State} {x1 : Nat} {x2 : Bytes} {x3 : Bool} {s : State} (h : Keeps q r s) : Keeps q r (policeResult x1 x2 x3 s).1 := by
  unfold policeResult
  try dsimp only
  repeat' (first
    | (with_reducible assumption) | (with_reducible apply keeps_bump) | simp only [↓keeps_mk]
    | (with_reducible refine keeps_of_eq (by with_reducible assumption) ?_) | (with_reducible apply keeps_ite) | (with_reducible apply keeps_ite1) | split)

theorem keeps_policeBucket {q : Fix} {r s : State} {x1 x2 x4 : Nat} {x3 : Bytes} (h : Keeps q r s) : Keeps q r (policeBucket x1 x2 x3 x4 s).1 := by
  unfold policeBucket
  exact keeps_policeResult (keeps_upd h rfl rfl rfl rfl rfl rfl rfl rfl rfl)

theorem keeps_policeStage {q : Fix} {r s : State} {x2 x3 : Nat} {x4 : Stamp} {x5 : Nat} (h : Keeps q r s) : Keeps q r (policeStage s x2 x3 x4 x5).1 := by
  unfold policeStage
  try dsimp only
  repeat' (first
    | (with_reducible assumption) | (with_reducible apply keeps_policeBucket) | simp only [↓keeps_mk]
    | (with_reducible refine keeps_of_eq (by with_reducible assumption) ?_) | (with_reducible apply keeps_ite) | (with_reducible apply keeps_ite1) | split)

theorem keeps_extractStage {q : Fix} {r s : State} {x2 x3 : Nat} {x4 : Bytes} (h : Keeps q r s) : Keeps q r (extractStage s x2 x3 x4).1 := by
  unfold extractStage
  try dsimp only
  repeat' (first
    | (with_reducible assumption) | intro _ | (with_reducible apply keeps_bump) | simp only [↓keeps_mk] | (with_reducible apply keeps_foldl)
    | (with_reducible apply keeps_foldP) | (with_reducible refine keeps_of_eq (by with_reducible assumption) ?_) | (with_reducible apply keeps_ite)
    | (with_reducible apply keeps_ite1) | split)

theorem keeps_secureStage {q : Fix} {r s : State} {x2 x3 x4 : Nat} {x5 : Bytes} (h : Keeps q r s) : Keeps q r (secureStage s x2 x3 x4 x5).1 := by
  unfold secureStage
  try dsimp only
  repeat' (first
    | (with_reducible assumption) | (with_reducible apply keeps_putLive) | simp only [↓keeps_mk]
    | (with_reducible refine keeps_of_eq (by with_reducible assumption) ?_) | (with_reducible apply keeps_ite) | (with_reducible apply keeps_ite1) | split)

theorem keeps_handoff {q : Fix} {r : State} {x1 : Event} {x2 x3 x4 : Nat} {x5 : Bytes} {s : State} (h : Keeps q r s) : Keeps q r (handoff x1 x2 x3 x4 x5 s) := by
  unfold handoff
  try dsimp only
  repeat' (first
    | (with_reducible assumption) | (with_reducible apply keeps_bump) | simp only [↓keeps_mk] | (with_reducible apply keeps_ite))

theorem keeps_routeCopy {q : Fix} {r : State} {x1 : Event} {x2 x3 x4 : Nat} {x5 : Option Nat} {x6 x7 : Bytes} {x8 : State × Option Nat} (h8 : Keeps q r x8.1) : Keeps q r (routeCopy x1 x2 x3 x4 x5 x6 x7 x8).1 := by
  unfold routeCopy
  try dsimp only
  repeat' (first
    | (with_reducible assumption) | (with_reducible apply keeps_countDrop) | (with_reducible apply keeps_secureStage) | (with_reducible apply keeps_handoff)
    | simp only [↓keeps_mk] | (with_reducible refine keeps_of_eq (by with_reducible assumption) ?_) | (with_reducible apply keeps_ite)
    | (with_reducible apply keeps_ite1) | split)

theorem keeps_sendUpdates {q : Fix} {r : State} {x1 : Event} {x2 : List (Nat × Bytes)} {s : State} (h : Keeps q r s) : Keeps q r (sendUpdates x1 x2 s) := by
  unfold sendUpdates
  try dsimp only
  repeat' (first
    | (with_reducible assumption) | intro _ | (with_reducible apply keeps_handoff) | simp only [↓keeps_mk] | (with_reducible apply keeps_foldl))

theorem keeps_traceEvent {q : Fix} {r : State} {x1 : Event} {x2 : Option Nat} {x3 : Nat} {s : State} (h : Keeps q r s) : Keeps q r (traceEvent x1 x2 x3 s) := by
  unfold traceEvent
  try dsimp only
  repeat' (first
    | (with_reducible assumption) | simp only [↓keeps_mk] | (with_reducible apply keeps_ite))

theorem keeps_runStages {q : Fix} {r : State} {x1 : Event} {x2 : Nat} {x3 : Bytes} {s : State} (h : Keeps q r s) : Keeps q r (runStages x1 x2 x3 s).1 := by
  unfold runStages
  try dsimp only
  repeat' (first
    | (with_reducible assumption) | intro _ | (with_reducible apply keeps_countDrop) | (with_reducible apply keeps_bump)
    | (with_reducible apply keeps_verifyStage) | (with_reducible apply keeps_policeStage) | (with_reducible apply keeps_extractStage)
    | (with_reducible apply keeps_sendUpdates) | (with_reducible apply keeps_routeCopy) | simp only [↓keeps_mk] | (with_reducible apply keeps_foldl)
    | (with_reducible apply keeps_foldP) | (with_reducible refine keeps_of_eq (by with_reducible assumption) ?_) | (with_reducible apply keeps_ite)
    | (with_reducible apply keeps_ite1) | split)

theorem keeps_classifyEvent {q : Fix} {r : State} {x1 : Event} {s : State} (h : Keeps q r s) : Keeps q r (classifyEvent x1 s) := by
  unfold classifyEvent
  try dsimp only
  repeat' (first
    | (with_reducible assumption) | (with_reducible apply keeps_traceEvent) | (with_reducible apply keeps_countDrop)
    | (with_reducible apply keeps_runStages) | simp only [↓keeps_mk] | (with_reducible refine keeps_of_eq (by with_reducible assumption) ?_)
    | (with_reducible apply keeps_ite))

theorem keeps_setEth {q : Fix} {r s : State} {x2 : Nat} {x3 : Eth} (h : Keeps q r s) : Keeps q r (setEth s x2 x3) := by
  unfold setEth
  try dsimp only
  repeat' (first
    | (with_reducible assumption) | simp only [↓keeps_mk])

theorem keeps_ethPortState {q : Fix} {r : State} {x1 : Nat} {s : State} (h : Keeps q r s) : Keeps q r (ethPortState x1 s) := by
  unfold ethPortState
  try dsimp only
  repeat' (first
    | (with_reducible assumption) | (with_reducible apply keeps_bump) | (with_reducible apply keeps_setBlocked) | simp only [↓keeps_mk]
    | (with_reducible apply keeps_ite))

theorem keeps_cbsTick {q : Fix} {r : State} {x1 : Nat} {s : State} (h : Keeps q r s) : Keeps q r (cbsTick x1 s) := by
  unfold cbsTick
  try dsimp only
  repeat' (first
    | (with_reducible assumption) | intro _ | simp only [↓keeps_mk])

theorem keeps_setSaPn {q : Fix} {r : State} {x1 x2 : Nat} {s : State} (h : Keeps q r s) : Keeps q r (setSaPn x1 x2 s) := by
  unfold setSaPn
  try dsimp only
  repeat' (first
    | (with_reducible assumption) | (with_reducible apply keeps_setReg))

theorem keeps_macsecProtect {q : Fix} {r : State} {x1 : Nat} {x2 : Bytes} {s : State} (h : Keeps q r s) : Keeps q r (macsecProtect x1 x2 s).1 := by
  unfold macsecProtect
  try dsimp only
  repeat' (first
    | (with_reducible assumption) | (with_reducible apply keeps_bump) | (with_reducible apply keeps_setSaPn) | (with_reducible apply keeps_raise)
    | simp only [↓keeps_mk] | (with_reducible refine keeps_of_eq (by with_reducible assumption) ?_) | (with_reducible apply keeps_ite)
    | (with_reducible apply keeps_ite1) | split)

theorem keeps_macsecVerify {q : Fix} {r : State} {x1 : Nat} {x2 : Bytes} {s : State} (h : Keeps q r s) : Keeps q r (macsecVerify x1 x2 s).1 := by
  unfold macsecVerify
  try dsimp only
  repeat' (first
    | (with_reducible assumption) | intro _ | (with_reducible apply keeps_bump) | (with_reducible apply keeps_setSaPn) | simp only [↓keeps_mk]
    | (with_reducible refine keeps_of_eq (by with_reducible assumption) ?_) | (with_reducible apply keeps_ite) | (with_reducible apply keeps_ite1) | split)

theorem keeps_macsecRx {q : Fix} {r : State} {x1 : Nat} {x2 : Bytes} {s : State} (h : Keeps q r s) : Keeps q r (macsecRx x1 x2 s).1 := by
  unfold macsecRx
  try dsimp only
  repeat' (first
    | (with_reducible assumption) | (with_reducible apply keeps_macsecVerify) | (with_reducible apply keeps_bump) | simp only [↓keeps_mk]
    | (with_reducible refine keeps_of_eq (by with_reducible assumption) ?_) | (with_reducible apply keeps_ite) | (with_reducible apply keeps_ite1))

theorem keeps_ethReceive {q : Fix} {r : State} {x1 : Nat} {x2 : Stamp} {x3 : Bytes} {x4 : Bool} {s : State} (h : Keeps q r s) : Keeps q r (ethReceive x1 x2 x3 x4 s) := by
  unfold ethReceive
  try dsimp only
  repeat' (first
    | (with_reducible assumption) | (with_reducible apply keeps_bump) | (with_reducible apply keeps_dropLate) | (with_reducible apply keeps_submitAt)
    | (with_reducible apply keeps_macsecRx) | simp only [↓keeps_mk] | (with_reducible refine keeps_of_eq (by with_reducible assumption) ?_)
    | (with_reducible apply keeps_ite) | (with_reducible apply keeps_ite1) | split)

theorem keeps_ptpStamp {q : Fix} {r : State} {x1 : Nat} {x2 : Bytes} {s : State} (h : Keeps q r s) : Keeps q r (ptpStamp x1 x2 s) := by
  unfold ptpStamp
  try dsimp only
  repeat' (first
    | (with_reducible assumption) | (with_reducible apply keeps_bump) | (with_reducible apply keeps_setEth) | simp only [↓keeps_mk]
    | (with_reducible apply keeps_ite))

theorem keeps_ethTxDone {q : Fix} {r : State} {x1 : Nat} {s : State} (h : Keeps q r s) : Keeps q r (ethTxDone x1 s) := by
  unfold ethTxDone
  try dsimp only
  repeat' (first
    | (with_reducible assumption) | (with_reducible apply keeps_bump) | (with_reducible apply keeps_setEth) | simp only [↓keeps_mk]
    | (with_reducible refine keeps_of_eq (by with_reducible assumption) ?_) | split)

theorem keeps_ethStart {q : Fix} {r : State} {x1 : Nat} {x2 : Frame} {s : State} (h : Keeps q r s) : Keeps q r (ethStart x1 x2 s) := by
  unfold ethStart
  try dsimp only
  repeat' (first
    | (with_reducible assumption) | intro _ | (with_reducible apply keeps_bump) | (with_reducible apply keeps_macsecProtect)
    | (with_reducible apply keeps_ptpStamp) | (with_reducible apply keeps_setEth) | simp only [↓keeps_mk]
    | (with_reducible refine keeps_of_eq (by with_reducible assumption) ?_) | (with_reducible apply keeps_ite) | (with_reducible apply keeps_ite1) | split)

theorem keeps_ethLink {q : Fix} {r : State} {x1 : Nat} {x2 : Bool} {x3 : Nat} {x4 : Bool} {s : State} (h : Keeps q r s) : Keeps q r (ethLink x1 x2 x3 x4 s) := by
  unfold ethLink
  try dsimp only
  repeat' (first
    | (with_reducible assumption) | (with_reducible apply keeps_bump) | (with_reducible apply keeps_ethPortState) | (with_reducible apply keeps_setEth)
    | simp only [↓keeps_mk] | (with_reducible apply keeps_ite))

theorem keeps_ethCollide {q : Fix} {r : State} {x1 : Nat} {s : State} (h : Keeps q r s) : Keeps q r (ethCollide x1 s) := by
  unfold ethCollide
  try dsimp only
  repeat' (first
    | (with_reducible assumption) | (with_reducible apply keeps_setEth) | (with_reducible apply keeps_bump) | simp only [↓keeps_mk]
    | (with_reducible refine keeps_of_eq (by with_reducible assumption) ?_) | (with_reducible apply keeps_ite) | split)

theorem keeps_plcaEffect {q : Fix} {r : State} {x1 : Nat} {s : State} (h : Keeps q r s) : Keeps q r (plcaEffect x1 s) := by
  unfold plcaEffect
  try dsimp only
  repeat' (first
    | (with_reducible assumption) | (with_reducible apply keeps_setEth))

theorem keeps_setT1 {q : Fix} {r : State} {x1 x2 : Nat} {s : State} (h : Keeps q r s) : Keeps q r (setT1 x1 x2 s) := by
  unfold setT1
  try dsimp only
  repeat' (first
    | (with_reducible assumption) | (with_reducible apply keeps_ethPortState) | (with_reducible apply keeps_setEth))

theorem keeps_t1ctlEffect {q : Fix} {r : State} {x1 x2 : Nat} {s : State} (h : Keeps q r s) : Keeps q r (t1ctlEffect x1 x2 s) := by
  unfold t1ctlEffect
  try dsimp only
  repeat' (first
    | (with_reducible assumption) | (with_reducible apply keeps_setT1) | simp only [↓keeps_mk] | (with_reducible apply keeps_ite))

theorem keeps_setFifo {q : Fix} {r s : State} {x2 : Nat} {x3 : List LEntry} (h : Keeps q r s) : Keeps q r (setFifo s x2 x3) := by
  unfold setFifo
  try dsimp only
  repeat' (first
    | (with_reducible assumption) | simp only [↓keeps_mk])

theorem keeps_giveBack {q : Fix} {r s : State} {x2 : List (Nat × Nat)} (h : Keeps q r s) : Keeps q r (giveBack s x2) := by
  unfold giveBack
  try dsimp only
  repeat' (first
    | (with_reducible assumption) | intro _ | (with_reducible apply keeps_setOcc) | simp only [↓keeps_mk] | (with_reducible apply keeps_foldl))

theorem keeps_departPort {q : Fix} {r : State} {x1 : Nat} {s : State} (h : Keeps q r s) : Keeps q r (departPort x1 s) := by
  unfold departPort
  try dsimp only
  repeat' (first
    | (with_reducible assumption) | (with_reducible apply keeps_setFifo) | (with_reducible apply keeps_giveBack) | simp only [↓keeps_mk])

theorem keeps_creditPort {q : Fix} {r s : State} {x2 : Nat} (h : Keeps q r s) : Keeps q r (creditPort s x2) := by
  unfold creditPort
  try dsimp only
  repeat' (first
    | (with_reducible assumption) | (with_reducible apply keeps_departPort) | simp only [↓keeps_mk] | (with_reducible apply keeps_ite))

theorem keeps_takeEntry {q : Fix} {r s : State} {x2 : Nat × Nat} (h : Keeps q r s) : Keeps q r (takeEntry s x2) := by
  unfold takeEntry
  try dsimp only
  repeat' (first
    | (with_reducible assumption) | intro _ | (with_reducible apply keeps_setFifo) | (with_reducible apply keeps_setOcc) | simp only [↓keeps_mk]
    | (with_reducible refine keeps_of_eq (by with_reducible assumption) ?_) | split)

theorem keeps_ledgerDepartures {q : Fix} {r s : State} (h : Keeps q r s) : Keeps q r (ledgerDepartures s) := by
  unfold ledgerDepartures
  try dsimp only
  repeat' (first
    | (with_reducible assumption) | intro _ | (with_reducible apply keeps_creditPort) | (with_reducible apply keeps_takeEntry) | simp only [↓keeps_mk]
    | (with_reducible apply keeps_foldl) | (with_reducible apply keeps_foldP) | (with_reducible refine keeps_of_eq (by with_reducible assumption) ?_)
    | (with_reducible apply keeps_ite))

theorem keeps_purgeFrame {q : Fix} {r s : State} {x2 : Frame} (h : Keeps q r s) : Keeps q r (purgeFrame s x2) := by
  unfold purgeFrame
  try dsimp only
  repeat' (first
    | (with_reducible assumption) | intro _ | (with_reducible apply keeps_setQueue) | (with_reducible apply keeps_bump)
    | (with_reducible apply keeps_takeEntry) | simp only [↓keeps_mk] | (with_reducible refine keeps_of_eq (by with_reducible assumption) ?_)
    | (with_reducible apply keeps_ite))

theorem keeps_purgePort {q : Fix} {r : State} {x1 x2 : Nat} {s : State} (h : Keeps q r s) : Keeps q r (purgePort x1 x2 s) := by
  unfold purgePort
  try dsimp only
  repeat' (first
    | (with_reducible assumption) | intro _ | (with_reducible apply keeps_purgeFrame) | simp only [↓keeps_mk] | (with_reducible apply keeps_foldl))

theorem keeps_ledgerPurges {q : Fix} {r : State} {x1 : Nat} {s : State} (h : Keeps q r s) : Keeps q r (ledgerPurges x1 s) := by
  unfold ledgerPurges
  try dsimp only
  repeat' (first
    | (with_reducible assumption) | intro _ | (with_reducible apply keeps_purgePort) | simp only [↓keeps_mk] | (with_reducible apply keeps_foldl))

theorem keeps_expressPurge {q : Fix} {r : State} {x1 : Nat} {s : State} (h : Keeps q r s) : Keeps q r (expressPurge x1 s) := by
  unfold expressPurge
  try dsimp only
  repeat' (first
    | (with_reducible assumption) | intro _ | (with_reducible apply keeps_purgeFrame) | simp only [↓keeps_mk] | (with_reducible apply keeps_foldl))

theorem keeps_noteUse {q : Fix} {r s : State} (h : Keeps q r s) : Keeps q r (noteUse s) := by
  unfold noteUse
  try dsimp only
  repeat' (first
    | (with_reducible assumption) | (with_reducible apply keeps_setField) | simp only [↓keeps_mk] | (with_reducible apply keeps_ite))

theorem keeps_noteTake {q : Fix} {r : State} {x1 x2 : Nat} {s : State} (h : Keeps q r s) : Keeps q r (noteTake x1 x2 s) := by
  unfold noteTake
  try dsimp only
  repeat' (first
    | (with_reducible assumption) | simp only [↓keeps_mk] | (with_reducible apply keeps_ite))

theorem keeps_toPlane {q : Fix} {r : State} {x1 : Frame} {s : State} (h : Keeps q r s) : Keeps q r (toPlane x1 s) := by
  unfold toPlane
  try dsimp only
  repeat' (first
    | (with_reducible assumption) | simp only [↓keeps_mk] | (with_reducible apply keeps_ite))

theorem keeps_admitFrame {q : Fix} {r : State} {x1 : Frame} {s : State} (h : Keeps q r s) : Keeps q r (admitFrame x1 s) := by
  unfold admitFrame
  try dsimp only
  repeat' (first
    | (with_reducible assumption) | (with_reducible apply keeps_setOcc) | (with_reducible apply keeps_setFifo) | (with_reducible apply keeps_bump)
    | (with_reducible apply keeps_noteUse) | (with_reducible apply keeps_toPlane) | (with_reducible apply keeps_noteTake))

theorem keeps_reportAdmission {q : Fix} {r : State} {x1 : Nat} {x2 : Bool} {s : State} (h : Keeps q r s) : Keeps q r (reportAdmission x1 x2 s) := by
  unfold reportAdmission
  try dsimp only
  repeat' (first
    | (with_reducible assumption) | (with_reducible apply keeps_jSent) | (with_reducible apply keeps_hostRefuse) | (with_reducible apply keeps_bump)
    | simp only [↓keeps_mk] | (with_reducible refine keeps_of_eq (by with_reducible assumption) ?_) | (with_reducible apply keeps_ite) | split)

theorem keeps_decideFrame {q : Fix} {r s : State} {x2 : Frame} (h : Keeps q r s) : Keeps q r (decideFrame s x2) := by
  unfold decideFrame
  try dsimp only
  repeat' (first
    | (with_reducible assumption) | (with_reducible apply keeps_reportAdmission) | (with_reducible apply keeps_admitFrame)
    | (with_reducible apply keeps_bump) | simp only [↓keeps_mk] | (with_reducible refine keeps_of_eq (by with_reducible assumption) ?_) | split)

theorem keeps_ledgerAdmissions {q : Fix} {r : State} {x1 : Nat} {s : State} (h : Keeps q r s) : Keeps q r (ledgerAdmissions x1 s) := by
  unfold ledgerAdmissions
  try dsimp only
  repeat' (first
    | (with_reducible assumption) | intro _ | (with_reducible apply keeps_decideFrame) | simp only [↓keeps_mk] | (with_reducible apply keeps_foldl))

theorem keeps_ledgerCommit {q : Fix} {r : State} {x1 : Nat} {s : State} (h : Keeps q r s) : Keeps q r (ledgerCommit x1 s) := by
  unfold ledgerCommit
  try dsimp only
  repeat' (first
    | (with_reducible assumption) | (with_reducible apply keeps_ledgerAdmissions) | (with_reducible apply keeps_ledgerPurges)
    | (with_reducible apply keeps_ledgerDepartures))

theorem keeps_enqueue {q : Fix} {r s : State} {x2 : Frame} (h : Keeps q r s) : Keeps q r (enqueue s x2) := by
  unfold enqueue
  try dsimp only
  repeat' (first
    | (with_reducible assumption) | (with_reducible apply keeps_setQueue))

theorem keeps_releaseHeads {q : Fix} {r : State} {x1 : Nat} {s : State} (h : Keeps q r s) : Keeps q r (releaseHeads x1 s) := by
  unfold releaseHeads
  try dsimp only
  repeat' (first
    | (with_reducible assumption) | intro _ | (with_reducible apply keeps_enqueue) | simp only [↓keeps_mk] | (with_reducible apply keeps_foldl))

theorem keeps_matchRound {q : Fix} {r s : State} {x2 : List Nat} {x3 : Bool} {x4 : State × List XPair × List Frame} (h : Keeps q r s) (h4 : Keeps q r x4.1) : Keeps q r (matchRound s x2 x3 x4).1 := by
  unfold matchRound
  try dsimp only
  repeat' (first
    | (with_reducible assumption) | intro _ | simp only [↓keeps_mk] | (with_reducible apply keeps_foldl) | (with_reducible apply keeps_foldP)
    | (with_reducible refine keeps_of_eq (by with_reducible assumption) ?_) | (with_reducible apply keeps_ite) | (with_reducible apply keeps_ite1) | split)

theorem keeps_matchCell {q : Fix} {r s : State} (h : Keeps q r s) : Keeps q r (matchCell s) := by
  unfold matchCell
  try dsimp only
  repeat' (first
    | (with_reducible assumption) | intro _ | (with_reducible apply keeps_matchRound) | (with_reducible apply keeps_enqueue) | simp only [↓keeps_mk]
    | (with_reducible apply keeps_foldl) | (with_reducible apply keeps_foldP))

theorem keeps_chooseQueue' {q : Fix} {r s : State} {x2 : Nat} {t : State} {v} (e : chooseQueue s x2 = some (v, t)) (h : Keeps q r s) : Keeps q r t := by
  unfold chooseQueue at e
  try dsimp only at e
  repeat' (split at e)
  all_goals (try (simp only [Option.some.injEq, Prod.mk.injEq, reduceCtorEq] at e))
  all_goals (try (obtain ⟨_, rfl⟩ := e))
  all_goals repeat' (first
    | (with_reducible assumption) | intro _ | simp only [↓keeps_mk])

theorem keeps_popQueue' {q : Fix} {r s : State} {x2 : Nat} {t : State} {v} (e : popQueue s x2 = some (v, t)) (h : Keeps q r s) : Keeps q r t := by
  unfold popQueue at e
  try dsimp only at e
  repeat' (split at e)
  all_goals (try (simp only [Option.some.injEq, Prod.mk.injEq, reduceCtorEq] at e))
  all_goals (try (obtain ⟨_, rfl⟩ := e))
  all_goals repeat' (first
    | (with_reducible assumption) | (with_reducible apply keeps_setQueue))

theorem keeps_takeHead' {q : Fix} {r s : State} {x2 : Nat} {t : State} {v} (e : takeHead s x2 = some (v, t)) (h : Keeps q r s) : Keeps q r t := by
  unfold takeHead at e
  try dsimp only at e
  repeat' (split at e)
  all_goals (try (simp only [Option.some.injEq, Prod.mk.injEq, reduceCtorEq] at e))
  all_goals (try (obtain ⟨_, rfl⟩ := e))
  all_goals repeat' (first
    | (with_reducible assumption) | (with_reducible refine keeps_chooseQueue' (by with_reducible assumption) ?_)
    | (with_reducible refine keeps_popQueue' (by with_reducible assumption) ?_) | simp only [↓keeps_mk])

theorem keeps_setFlt {q : Fix} {r : State} {x1 : Nat} {x2 : Faults} {s : State} (h : Keeps q r s) : Keeps q r (setFlt x1 x2 s) := by
  unfold setFlt
  try dsimp only
  repeat' (first
    | (with_reducible assumption) | simp only [↓keeps_mk] | (with_reducible apply keeps_ite))

theorem keeps_classifyFault {q : Fix} {r : State} {x1 : FEvent} {s : State} (h : Keeps q r s) : Keeps q r (classifyFault x1 s).1 := by
  unfold classifyFault
  try dsimp only
  repeat' (first
    | (with_reducible assumption) | (with_reducible apply keeps_setFlt) | (with_reducible apply keeps_setField) | simp only [↓keeps_mk]
    | (with_reducible refine keeps_of_eq (by with_reducible assumption) ?_) | (with_reducible apply keeps_ite) | (with_reducible apply keeps_ite1) | split)

theorem keeps_clearLatch {q : Fix} {r : State} {x1 : Nat} {s : State} (h : Keeps q r s) : Keeps q r (clearLatch x1 s) := by
  unfold clearLatch
  try dsimp only
  repeat' (first
    | (with_reducible assumption) | (with_reducible apply keeps_setFlt))

theorem keeps_settleLatch {q : Fix} {r : State} {x1 : Nat} {s : State} (h : Keeps q r s) : Keeps q r (settleLatch x1 s) := by
  unfold settleLatch
  try dsimp only
  repeat' (first
    | (with_reducible assumption) | (with_reducible apply keeps_setFlt) | simp only [↓keeps_mk] | (with_reducible apply keeps_ite))

theorem keeps_notice {q : Fix} {r : State} {x1 x2 x3 x4 : Nat} {x5 : Stamp} {s : State} (h : Keeps q r s) : Keeps q r (notice x1 x2 x3 x4 x5 s) := by
  unfold notice
  try dsimp only
  repeat' (first
    | (with_reducible assumption) | (with_reducible apply keeps_submitMsg) | simp only [↓keeps_mk])

theorem keeps_reportFault {q : Fix} {r : State} {x1 x2 x3 x4 x5 : Nat} {x6 : Stamp} {s : State} (h : Keeps q r s) : Keeps q r (reportFault x1 x2 x3 x4 x5 x6 s) := by
  unfold reportFault
  try dsimp only
  repeat' (first
    | (with_reducible assumption) | (with_reducible apply keeps_jChange) | (with_reducible apply keeps_setInt) | (with_reducible apply keeps_notice))

theorem keeps_fieldReport {q : Fix} {r : State} {x1 x2 x3 : Nat} {x4 : Stamp} {s : State} (h : Keeps q r s) : Keeps q r (fieldReport x1 x2 x3 x4 s) := by
  unfold fieldReport
  try dsimp only
  repeat' (first
    | (with_reducible assumption) | (with_reducible apply keeps_bump) | simp only [↓keeps_mk] | (with_reducible apply keeps_ite))

theorem keeps_setCan {q : Fix} {r s : State} {x2 : Nat} {x3 : Can} (h : Keeps q r s) : Keeps q r (setCan s x2 x3) := by
  unfold setCan
  try dsimp only
  repeat' (first
    | (with_reducible assumption) | simp only [↓keeps_mk] | (with_reducible apply keeps_ite))

theorem keeps_canPortState {q : Fix} {r : State} {x1 : Nat} {s : State} (h : Keeps q r s) : Keeps q r (canPortState x1 s) := by
  unfold canPortState
  try dsimp only
  repeat' (first
    | (with_reducible assumption) | (with_reducible apply keeps_setBlocked) | simp only [↓keeps_mk] | (with_reducible apply keeps_ite))

theorem keeps_settleErrors {q : Fix} {r : State} {x1 : Nat} {x2 : Can} {s : State} (h : Keeps q r s) : Keeps q r (settleErrors x1 x2 s) := by
  unfold settleErrors
  try dsimp only
  repeat' (first
    | (with_reducible assumption) | (with_reducible apply keeps_setCan) | (with_reducible apply keeps_canPortState) | (with_reducible apply keeps_raise)
    | (with_reducible apply keeps_bump) | simp only [↓keeps_mk] | (with_reducible apply keeps_ite))

theorem keeps_endStall {q : Fix} {r : State} {x1 : Nat} {x2 : Bool} {s : State} (h : Keeps q r s) : Keeps q r (endStall x1 x2 s) := by
  unfold endStall
  try dsimp only
  repeat' (first
    | (with_reducible assumption) | (with_reducible apply keeps_canPortState) | (with_reducible apply keeps_setCan) | simp only [↓keeps_mk]
    | (with_reducible apply keeps_ite))

theorem keeps_finishStop {q : Fix} {r : State} {x1 : Nat} {s : State} (h : Keeps q r s) : Keeps q r (finishStop x1 s) := by
  unfold finishStop
  try dsimp only
  repeat' (first
    | (with_reducible assumption) | (with_reducible apply keeps_canPortState) | (with_reducible apply keeps_setCan) | simp only [↓keeps_mk]
    | (with_reducible apply keeps_ite))

theorem keeps_placeFrame {q : Fix} {r : State} {x1 : Nat} {x2 : Bytes} {x3 : Nat} {x4 : Stamp} {s : State} (h : Keeps q r s) : Keeps q r (placeFrame x1 x2 x3 x4 s) := by
  unfold placeFrame
  try dsimp only
  repeat' (first
    | (with_reducible assumption) | (with_reducible apply keeps_setCan) | (with_reducible apply keeps_bump) | simp only [↓keeps_mk]
    | (with_reducible refine keeps_of_eq (by with_reducible assumption) ?_) | (with_reducible apply keeps_ite) | split)

theorem keeps_canInitEffect {q : Fix} {r : State} {x1 : Nat} {x2 x3 : Bool} {s : State} (h : Keeps q r s) : Keeps q r (canInitEffect x1 x2 x3 s) := by
  unfold canInitEffect
  try dsimp only
  repeat' (first
    | (with_reducible assumption) | (with_reducible apply keeps_setCan) | (with_reducible apply keeps_canPortState) | simp only [↓keeps_mk]
    | (with_reducible apply keeps_ite))

theorem keeps_canRecoverEffect {q : Fix} {r : State} {x1 : Nat} {s : State} (h : Keeps q r s) : Keeps q r (canRecoverEffect x1 s) := by
  unfold canRecoverEffect
  try dsimp only
  repeat' (first
    | (with_reducible assumption) | (with_reducible apply keeps_setCan) | simp only [↓keeps_mk] | (with_reducible apply keeps_ite))

theorem keeps_canAbortEffect {q : Fix} {r : State} {x1 x2 : Nat} {s : State} (h : Keeps q r s) : Keeps q r (canAbortEffect x1 x2 s) := by
  unfold canAbortEffect
  try dsimp only
  repeat' (first
    | (with_reducible assumption) | intro _ | (with_reducible apply keeps_setCan) | (with_reducible apply keeps_bump)
    | (with_reducible apply keeps_endStall) | simp only [↓keeps_mk] | (with_reducible apply keeps_foldl) | (with_reducible apply keeps_foldP)
    | (with_reducible refine keeps_of_eq (by with_reducible assumption) ?_) | (with_reducible apply keeps_ite) | (with_reducible apply keeps_ite1) | split)

theorem keeps_canIntegrate {q : Fix} {r : State} {x1 : Nat} {s : State} (h : Keeps q r s) : Keeps q r (canIntegrate x1 s) := by
  unfold canIntegrate
  try dsimp only
  repeat' (first
    | (with_reducible assumption) | (with_reducible apply keeps_settleErrors) | simp only [↓keeps_mk] | (with_reducible apply keeps_ite))

theorem keeps_canRecovered {q : Fix} {r : State} {x1 : Nat} {s : State} (h : Keeps q r s) : Keeps q r (canRecovered x1 s) := by
  unfold canRecovered
  try dsimp only
  repeat' (first
    | (with_reducible assumption) | (with_reducible apply keeps_canPortState) | (with_reducible apply keeps_setCan) | simp only [↓keeps_mk]
    | (with_reducible apply keeps_ite))

theorem keeps_canAttempt {q : Fix} {r : State} {x1 x2 : Nat} {s : State} (h : Keeps q r s) : Keeps q r (canAttempt x1 x2 s) := by
  unfold canAttempt
  try dsimp only
  repeat' (first
    | (with_reducible assumption) | (with_reducible apply keeps_setCan) | simp only [↓keeps_mk]
    | (with_reducible refine keeps_of_eq (by with_reducible assumption) ?_) | (with_reducible apply keeps_ite) | split)

theorem keeps_canComplete {q : Fix} {r : State} {x1 : Nat} {s : State} (h : Keeps q r s) : Keeps q r (canComplete x1 s) := by
  unfold canComplete
  try dsimp only
  repeat' (first
    | (with_reducible assumption) | (with_reducible apply keeps_finishStop) | (with_reducible apply keeps_endStall)
    | (with_reducible apply keeps_settleErrors) | (with_reducible apply keeps_bump) | simp only [↓keeps_mk]
    | (with_reducible refine keeps_of_eq (by with_reducible assumption) ?_) | (with_reducible apply keeps_ite) | split)

theorem keeps_canAttemptOver {q : Fix} {r : State} {x1 : Nat} {s : State} (h : Keeps q r s) : Keeps q r (canAttemptOver x1 s) := by
  unfold canAttemptOver
  try dsimp only
  repeat' (first
    | (with_reducible assumption) | (with_reducible apply keeps_endStall) | (with_reducible apply keeps_bump) | (with_reducible apply keeps_setCan)
    | simp only [↓keeps_mk] | (with_reducible refine keeps_of_eq (by with_reducible assumption) ?_) | (with_reducible apply keeps_ite) | split)

theorem keeps_canErrCode {q : Fix} {r : State} {x1 x2 : Nat} {x3 : Bool} {s : State} (h : Keeps q r s) : Keeps q r (canErrCode x1 x2 x3 s) := by
  unfold canErrCode
  try dsimp only
  repeat' (first
    | (with_reducible assumption) | (with_reducible apply keeps_bump) | (with_reducible apply keeps_setCan))

theorem keeps_setEnd {q : Fix} {r : State} {x1 : Bool} {x2 : LinkEnd} {s : State} (h : Keeps q r s) : Keeps q r (setEnd x1 x2 s) := by
  unfold setEnd
  try dsimp only
  repeat' (first
    | (with_reducible assumption) | simp only [↓keeps_mk] | (with_reducible apply keeps_ite))

theorem keeps_countXdrop {q : Fix} {r : State} {x1 : Bool} {x2 : Barrier} {s : State} (h : Keeps q r s) : Keeps q r (countXdrop x1 x2 s) := by
  unfold countXdrop
  try dsimp only
  repeat' (first
    | (with_reducible assumption) | (with_reducible apply keeps_bump) | simp only [↓keeps_mk]
    | (with_reducible refine keeps_of_eq (by with_reducible assumption) ?_) | (with_reducible apply keeps_ite) | split)

theorem keeps_pump {q : Fix} {r : State} {x1 : Bool} {x2 : Nat} {s : State} (h : Keeps q r s) : Keeps q r (pump x1 x2 s) := by
  induction x2 generalizing x1 s h with
  | zero =>
    unfold pump
    try dsimp only
    repeat' (first
      | (with_reducible assumption))
  | succ n ih =>
    unfold pump
    try dsimp only
    repeat' (first
      | (with_reducible assumption) | intro _ | (with_reducible apply ih) | (with_reducible apply keeps_setEnd) | simp only [↓keeps_mk]
      | (with_reducible refine keeps_of_eq (by with_reducible assumption) ?_) | (with_reducible apply keeps_ite) | split)

theorem keeps_enqueueMsg {q : Fix} {r : State} {x1 : Bool} {x2 x3 : Nat} {x4 : Stamp} {x5 : Bytes} {s : State} (h : Keeps q r s) : Keeps q r (enqueueMsg x1 x2 x3 x4 x5 s) := by
  unfold enqueueMsg
  try dsimp only
  repeat' (first
    | (with_reducible assumption) | (with_reducible apply keeps_pump) | (with_reducible apply keeps_setEnd))

theorem keeps_sendMsg {q : Fix} {r : State} {x1 : Bool} {x2 x3 : Nat} {x4 : Stamp} {x5 : Bytes} {s : State} (h : Keeps q r s) : Keeps q r (sendMsg x1 x2 x3 x4 x5 s).1 := by
  unfold sendMsg
  try dsimp only
  repeat' (first
    | (with_reducible assumption) | (with_reducible apply keeps_bump) | (with_reducible apply keeps_enqueueMsg) | simp only [↓keeps_mk]
    | (with_reducible refine keeps_of_eq (by with_reducible assumption) ?_) | (with_reducible apply keeps_ite) | (with_reducible apply keeps_ite1) | split)

theorem keeps_fieldSendAt {q : Fix} {r : State} {x1 x2 : Nat} {x3 : Stamp} {x4 : Bytes} {s : State} (h : Keeps q r s) : Keeps q r (fieldSendAt x1 x2 x3 x4 s) := by
  unfold fieldSendAt
  try dsimp only
  repeat' (first
    | (with_reducible assumption) | (with_reducible apply keeps_bump) | (with_reducible apply keeps_sendMsg) | simp only [↓keeps_mk]
    | (with_reducible refine keeps_of_eq (by with_reducible assumption) ?_) | (with_reducible apply keeps_ite))

theorem keeps_fieldSend {q : Fix} {r : State} {x1 x2 : Nat} {x3 : Bytes} {s : State} (h : Keeps q r s) : Keeps q r (fieldSend x1 x2 x3 s) := by
  unfold fieldSend
  try dsimp only
  repeat' (first
    | (with_reducible assumption) | (with_reducible apply keeps_fieldSendAt))

theorem keeps_releaseHeld {q : Fix} {r s : State} (h : Keeps q r s) : Keeps q r (releaseHeld s) := by
  unfold releaseHeld
  try dsimp only
  repeat' (first
    | (with_reducible assumption) | intro _ | (with_reducible apply keeps_enqueueMsg) | simp only [↓keeps_mk] | (with_reducible apply keeps_foldl))

theorem keeps_deliverMsg {q : Fix} {r : State} {x1 : Bool} {x2 : XMsg} {s : State} (h : Keeps q r s) : Keeps q r (deliverMsg x1 x2 s) := by
  unfold deliverMsg
  try dsimp only
  repeat' (first
    | (with_reducible assumption) | (with_reducible apply keeps_countXdrop) | (with_reducible apply keeps_setEnd) | (with_reducible apply keeps_raise)
    | (with_reducible apply keeps_bump) | simp only [↓keeps_mk] | (with_reducible refine keeps_of_eq (by with_reducible assumption) ?_)
    | (with_reducible apply keeps_ite) | split)

theorem keeps_takeSegment {q : Fix} {r : State} {x1 : Bool} {x2 : TFrame} {s : State} (h : Keeps q r s) : Keeps q r (takeSegment x1 x2 s) := by
  unfold takeSegment
  try dsimp only
  repeat' (first
    | (with_reducible assumption) | (with_reducible apply keeps_deliverMsg) | (with_reducible apply keeps_setEnd) | simp only [↓keeps_mk]
    | (with_reducible refine keeps_of_eq (by with_reducible assumption) ?_) | (with_reducible apply keeps_ite))

theorem keeps_takeHeld {q : Fix} {r : State} {x1 : Bool} {x2 : Nat} {s : State} (h : Keeps q r s) : Keeps q r (takeHeld x1 x2 s) := by
  induction x2 generalizing x1 s h with
  | zero =>
    unfold takeHeld
    try dsimp only
    repeat' (first
      | (with_reducible assumption))
  | succ n ih =>
    unfold takeHeld
    try dsimp only
    repeat' (first
      | (with_reducible assumption) | intro _ | (with_reducible apply ih) | (with_reducible apply keeps_setEnd) | (with_reducible apply keeps_takeSegment)
      | simp only [↓keeps_mk] | (with_reducible refine keeps_of_eq (by with_reducible assumption) ?_) | split)

theorem keeps_takeHeader {q : Fix} {r : State} {x1 : Bool} {x2 : Bytes} {s : State} (h : Keeps q r s) : Keeps q r (takeHeader x1 x2 s) := by
  unfold takeHeader
  try dsimp only
  repeat' (first
    | (with_reducible assumption) | intro _ | (with_reducible apply keeps_setEnd) | (with_reducible apply keeps_bump) | (with_reducible apply keeps_pump)
    | simp only [↓keeps_mk] | (with_reducible refine keeps_of_eq (by with_reducible assumption) ?_) | (with_reducible apply keeps_ite))

theorem keeps_frameRx {q : Fix} {r : State} {x1 : Bool} {x2 : Bytes} {x3 : Bool} {s : State} (h : Keeps q r s) : Keeps q r (frameRx x1 x2 x3 s) := by
  unfold frameRx
  try dsimp only
  repeat' (first
    | (with_reducible assumption) | intro _ | (with_reducible apply keeps_setEnd) | (with_reducible apply keeps_takeHeader)
    | (with_reducible apply keeps_takeHeld) | (with_reducible apply keeps_takeSegment) | simp only [↓keeps_mk]
    | (with_reducible refine keeps_of_eq (by with_reducible assumption) ?_) | (with_reducible apply keeps_ite))

theorem keeps_takeInbox' {q : Fix} {r : State} {x1 : Bool} {x2 : XMsg → Bool} {s t : State} {v} (e : takeInbox x1 x2 s = some (v, t)) (h : Keeps q r s) : Keeps q r t := by
  unfold takeInbox at e
  try dsimp only at e
  repeat' (split at e)
  all_goals (try (simp only [Option.some.injEq, Prod.mk.injEq, reduceCtorEq] at e))
  all_goals (try (obtain ⟨_, rfl⟩ := e))
  all_goals repeat' (first
    | (with_reducible assumption) | (with_reducible apply keeps_setEnd))

theorem keeps_retireLane {q : Fix} {r : State} {x1 : Bool} {x2 : Nat} {s : State} (h : Keeps q r s) : Keeps q r (retireLane x1 x2 s) := by
  unfold retireLane
  try dsimp only
  repeat' (first
    | (with_reducible assumption) | (with_reducible apply keeps_setEnd) | (with_reducible apply keeps_raise) | (with_reducible apply keeps_bump)
    | simp only [↓keeps_mk] | (with_reducible apply keeps_ite))

theorem keeps_retrain {q : Fix} {r s : State} (h : Keeps q r s) : Keeps q r (retrain s) := by
  unfold retrain
  try dsimp only
  repeat' (first
    | (with_reducible assumption) | intro _ | (with_reducible apply keeps_setEnd) | (with_reducible apply keeps_raise) | (with_reducible apply keeps_bump))

theorem keeps_trained {q : Fix} {r s : State} (h : Keeps q r s) : Keeps q r (trained s) := by
  unfold trained
  try dsimp only
  repeat' (first
    | (with_reducible assumption) | intro _ | (with_reducible apply keeps_pump) | (with_reducible apply keeps_setEnd))

theorem keeps_withdraw {q : Fix} {r s : State} {x1 : Nat} (h : Keeps q r s) : Keeps q r (withdraw x1 s) := by
  have k : ∀ c : Nat, Keeps q r { s with f.granted := false, f.permit := false, f.cause := c } := fun c =>
    ⟨⟨h.holds.pending, h.holds.fuses, h.holds.regs, h.holds.cells, h.holds.flash, h.holds.otp, h.holds.now, fun _ a => Bool.noConfusion a,
      h.holds.key, h.holds.enter⟩, h.pins⟩
  unfold withdraw
  exact keeps_ite (keeps_ite (k x1) (k s.f.cause)) (keeps_ite (keeps_setField (k x1)) (k s.f.cause))

theorem keeps_permitUpdate {q : Fix} {r s : State} (h : Keeps q r s) : Keeps q r (permitUpdate s) := by
  unfold permitUpdate
  try dsimp only
  repeat' (first
    | (with_reducible assumption) | simp only [↓keeps_mk] | (with_reducible apply keeps_ite))

theorem keeps_permitStart {q : Fix} {r s : State} (h : Keeps q r s) (hpermit : ¬ q.permit) : Keeps q r (permitStart s) := by
  unfold permitStart
  exact keeps_ite ⟨⟨h.holds.pending, h.holds.fuses, h.holds.regs, h.holds.cells, h.holds.flash, h.holds.otp, h.holds.now,
    fun e => absurd e hpermit, h.holds.key, h.holds.enter⟩, h.pins⟩ h

theorem keeps_setHoldSeen {q : Fix} {r : State} {x1 : Bool} {s : State} (h : Keeps q r s) : Keeps q r (setHoldSeen x1 s) := by
  unfold setHoldSeen
  try dsimp only
  repeat' (first
    | (with_reducible assumption) | (with_reducible apply keeps_withdraw) | (with_reducible apply keeps_permitUpdate) | simp only [↓keeps_mk]
    | (with_reducible apply keeps_ite))

theorem keeps_setHostGrant {q : Fix} {r : State} {x1 : Bool} {s : State} (h : Keeps q r s) : Keeps q r (setHostGrant x1 s) := by
  unfold setHostGrant
  try dsimp only
  repeat' (first
    | (with_reducible assumption) | (with_reducible apply keeps_permitUpdate) | (with_reducible apply keeps_withdraw) | simp only [↓keeps_mk]
    | (with_reducible apply keeps_ite))

theorem keeps_readbackMismatch {q : Fix} {r s : State} (h : Keeps q r s) : Keeps q r (readbackMismatch s) := by
  unfold readbackMismatch
  try dsimp only
  repeat' (first
    | (with_reducible assumption) | (with_reducible apply keeps_raise) | (with_reducible apply keeps_withdraw) | simp only [↓keeps_mk])

theorem keeps_sendPermit {q : Fix} {r : State} {x1 : Bool} {s : State} (h : Keeps q r s) : Keeps q r (sendPermit x1 s) := by
  unfold sendPermit
  try dsimp only
  repeat' (first
    | (with_reducible assumption) | (with_reducible apply keeps_sendMsg))

theorem keeps_wdExpire {q : Fix} {r s : State} (h : Keeps q r s) : Keeps q r (wdExpire s) := by
  unfold wdExpire
  try dsimp only
  repeat' (first
    | (with_reducible assumption) | (with_reducible apply keeps_raise) | (with_reducible apply keeps_withdraw) | simp only [↓keeps_mk]
    | (with_reducible refine keeps_of_eq (by with_reducible assumption) ?_) | (with_reducible apply keeps_ite) | split)

theorem keeps_wdRefresh {q : Fix} {r : State} {x1 : Nat} {s : State} (h : Keeps q r s) : Keeps q r (wdRefresh x1 s) := by
  unfold wdRefresh
  try dsimp only
  repeat' (first
    | (with_reducible assumption) | (with_reducible apply keeps_permitUpdate) | (with_reducible apply keeps_raise) | (with_reducible apply keeps_withdraw)
    | simp only [↓keeps_mk] | (with_reducible apply keeps_ite))

theorem keeps_fieldJournal {q : Fix} {r : State} {x1 x2 x3 x4 x5 : Nat} {s : State} (h : Keeps q r s) : Keeps q r (fieldJournal x1 x2 x3 x4 x5 s) := by
  unfold fieldJournal
  try dsimp only
  repeat' (first
    | (with_reducible assumption) | simp only [↓keeps_mk])

theorem keeps_sendJournal {q : Fix} {r s : State} (h : Keeps q r s) : Keeps q r (sendJournal s) := by
  unfold sendJournal
  try dsimp only
  repeat' (first
    | (with_reducible assumption) | (with_reducible apply keeps_fieldSend) | simp only [↓keeps_mk]
    | (with_reducible refine keeps_of_eq (by with_reducible assumption) ?_) | (with_reducible apply keeps_ite) | split)

theorem keeps_takeStatus {q : Fix} {r : State} {x1 : Bytes} {s : State} (h : Keeps q r s) : Keeps q r (takeStatus x1 s) := by
  unfold takeStatus
  try dsimp only
  repeat' (first
    | (with_reducible assumption) | intro _ | (with_reducible apply keeps_setReg) | (with_reducible apply keeps_setBlocked) | simp only [↓keeps_mk]
    | (with_reducible apply keeps_foldl) | (with_reducible apply keeps_foldP) | (with_reducible refine keeps_of_eq (by with_reducible assumption) ?_)
    | (with_reducible apply keeps_ite))

theorem keeps_takeCredit {q : Fix} {r : State} {x1 : Bytes} {s : State} (h : Keeps q r s) : Keeps q r (takeCredit x1 s) := by
  unfold takeCredit
  try dsimp only
  repeat' (first
    | (with_reducible assumption) | simp only [↓keeps_mk])

theorem keeps_hostLinkDown {q : Fix} {r s : State} (h : Keeps q r s) : Keeps q r (hostLinkDown s) := by
  unfold hostLinkDown
  try dsimp only
  repeat' (first
    | (with_reducible assumption) | intro _ | (with_reducible apply keeps_setFmode) | (with_reducible apply keeps_expressPurge)
    | (with_reducible apply keeps_raise) | (with_reducible apply keeps_setInt) | simp only [↓keeps_mk] | (with_reducible apply keeps_foldl)
    | (with_reducible apply keeps_foldP) | (with_reducible refine keeps_of_eq (by with_reducible assumption) ?_) | (with_reducible apply keeps_ite))

theorem keeps_fieldLinkDown {q : Fix} {r s : State} (h : Keeps q r s) : Keeps q r (fieldLinkDown s) := by
  unfold fieldLinkDown
  try dsimp only
  repeat' (first
    | (with_reducible assumption) | (with_reducible apply keeps_raise) | (with_reducible apply keeps_withdraw) | simp only [↓keeps_mk]
    | (with_reducible apply keeps_ite))

theorem keeps_hostHeartbeat {q : Fix} {r : State} {x1 : XMsg} {s : State} (h : Keeps q r s) : Keeps q r (hostHeartbeat x1 s) := by
  unfold hostHeartbeat
  try dsimp only
  repeat' (first
    | (with_reducible assumption) | (with_reducible apply keeps_setFmode) | (with_reducible apply keeps_setInt) | simp only [↓keeps_mk]
    | (with_reducible refine keeps_of_eq (by with_reducible assumption) ?_) | (with_reducible apply keeps_ite))

theorem keeps_fieldHeartbeat {q : Fix} {r : State} {x1 : XMsg} {s : State} (h : Keeps q r s) : Keeps q r (fieldHeartbeat x1 s) := by
  unfold fieldHeartbeat
  try dsimp only
  repeat' (first
    | (with_reducible assumption) | (with_reducible apply keeps_setHostGrant) | simp only [↓keeps_mk])

theorem keeps_reportOffset {q : Fix} {r : State} {x1 : Int} {s : State} (h : Keeps q r s) : Keeps q r (reportOffset x1 s) := by
  unfold reportOffset
  try dsimp only
  repeat' (first
    | (with_reducible assumption) | (with_reducible apply keeps_raise) | simp only [↓keeps_mk] | (with_reducible apply keeps_ite))

theorem keeps_takeOffset {q : Fix} {r : State} {x1 : Int} {s : State} (h : Keeps q r s) : Keeps q r (takeOffset x1 s) := by
  unfold takeOffset
  try dsimp only
  repeat' (first
    | (with_reducible assumption) | simp only [↓keeps_mk] | (with_reducible apply keeps_ite))

theorem keeps_fieldReset {q : Fix} {r s : State} {x1 : FState} {x2 : Bool} (h : Keeps q r s) : Keeps q r (fieldReset x1 x2 s) := by
  have e : (fieldReset x1 x2 s).regs = dropRegs s.regs (fun k => decide (0x20000000 ≤ k) ||
      (decide (0x800000 ≤ k % 0x1000000) && decide (k % 0x1000000 < 0x830000) && decide (k < 0x20000000))) := rfl
  have k := keeps_regs h (rg := (fieldReset x1 x2 s).regs) (fun hw => by rw [e]; exact dropRegs_wf _ _ hw)
  exact ⟨⟨k.holds.pending, k.holds.fuses, k.holds.regs, k.holds.cells, k.holds.flash, k.holds.otp, k.holds.now,
    fun _ a => Bool.noConfusion a, k.holds.key, k.holds.enter⟩, k.pins⟩

theorem keeps_fieldStart {q : Fix} {r : State} {x1 : XMsg} {s : State} (h : Keeps q r s) : Keeps q r (fieldStart x1 s) := by
  unfold fieldStart
  try dsimp only
  repeat' (first
    | (with_reducible assumption) | (with_reducible apply keeps_fieldReset) | (with_reducible apply keeps_countXdrop) | simp only [↓keeps_mk]
    | (with_reducible refine keeps_of_eq (by with_reducible assumption) ?_) | (with_reducible apply keeps_ite))

theorem keeps_sendResult {q : Fix} {r : State} {x1 x2 : Nat} {s : State} (h : Keeps q r s) : Keeps q r (sendResult x1 x2 s) := by
  unfold sendResult
  try dsimp only
  repeat' (first
    | (with_reducible assumption) | (with_reducible apply keeps_sendMsg))

theorem keeps_imageEntry {q : Fix} {r : State} {x1 : XMsg} {s : State} (h : Keeps q r s) : Keeps q r (imageEntry x1 s) := by
  unfold imageEntry
  try dsimp only
  repeat' (first
    | (with_reducible assumption) | intro _ | (with_reducible apply keeps_sendResult) | simp only [↓keeps_mk]
    | (with_reducible refine keeps_of_eq (by with_reducible assumption) ?_) | (with_reducible apply keeps_ite))

theorem keeps_imageData {q : Fix} {r : State} {x1 : XMsg} {s : State} (h : Keeps q r s) : Keeps q r (imageData x1 s) := by
  unfold imageData
  try dsimp only
  repeat' (first
    | (with_reducible assumption) | intro _ | (with_reducible apply keeps_sendResult) | simp only [↓keeps_mk]
    | (with_reducible refine keeps_of_eq (by with_reducible assumption) ?_) | (with_reducible apply keeps_ite) | (with_reducible apply keeps_ite1) | split)

theorem keeps_imageAbort {q : Fix} {r s : State} (h : Keeps q r s) : Keeps q r (imageAbort s) := by
  unfold imageAbort
  try dsimp only
  repeat' (first
    | (with_reducible assumption) | simp only [↓keeps_mk])

theorem keeps_sendImage {q : Fix} {r : State} {x1 x2 x3 : Nat} {x4 : Bytes} {s : State} (h : Keeps q r s) : Keeps q r (sendImage x1 x2 x3 x4 s) := by
  unfold sendImage
  try dsimp only
  repeat' (first
    | (with_reducible assumption) | (with_reducible apply keeps_sendMsg))

theorem keeps_sendData {q : Fix} {r : State} {x1 : Nat} {x2 : Bytes} {x3 x4 : Nat} {s : State} (h : Keeps q r s) : Keeps q r (sendData x1 x2 x3 x4 s) := by
  induction x3 generalizing x1 x2 x4 s h with
  | zero =>
    unfold sendData
    try dsimp only
    repeat' (first
      | (with_reducible assumption))
  | succ n ih =>
    unfold sendData
    try dsimp only
    repeat' (first
      | (with_reducible assumption) | intro _ | (with_reducible apply ih) | (with_reducible apply keeps_sendMsg) | simp only [↓keeps_mk]
      | (with_reducible refine keeps_of_eq (by with_reducible assumption) ?_) | (with_reducible apply keeps_ite))

theorem keeps_sendFieldSections {q : Fix} {r : State} {x1 : Bytes} {s : State} (h : Keeps q r s) : Keeps q r (sendFieldSections x1 s) := by
  unfold sendFieldSections
  try dsimp only
  repeat' (first
    | (with_reducible assumption) | intro _ | (with_reducible apply keeps_sendImage) | (with_reducible apply keeps_sendData) | simp only [↓keeps_mk]
    | (with_reducible apply keeps_foldl))

theorem keeps_sendStart {q : Fix} {r : State} {x1 : Bytes} {s : State} (h : Keeps q r s) : Keeps q r (sendStart x1 s) := by
  unfold sendStart
  try dsimp only
  repeat' (first
    | (with_reducible assumption) | (with_reducible apply keeps_sendImage) | simp only [↓keeps_mk])

theorem keeps_remoteSend {q : Fix} {r : State} {x1 : Origin} {x2 : Nat} {x3 : List (Nat × Nat)} {x4 : Nat} {s : State} (h : Keeps q r s) : Keeps q r (remoteSend x1 x2 x3 x4 s) := by
  unfold remoteSend
  try dsimp only
  repeat' (first
    | (with_reducible assumption) | intro _ | (with_reducible apply keeps_sendMsg) | simp only [↓keeps_mk])

theorem keeps_remoteReply {q : Fix} {r : State} {x1 x2 x3 x4 x5 : Nat} {x6 : List Word} {s : State} (h : Keeps q r s) : Keeps q r (remoteReply x1 x2 x3 x4 x5 x6 s) := by
  unfold remoteReply
  try dsimp only
  repeat' (first
    | (with_reducible assumption) | intro _ | (with_reducible apply keeps_sendMsg))

theorem keeps_setLin {q : Fix} {r s : State} {x2 : Nat} {x3 : Lin} (h : Keeps q r s) : Keeps q r (setLin s x2 x3) := by
  unfold setLin
  try dsimp only
  repeat' (first
    | (with_reducible assumption) | simp only [↓keeps_mk])

theorem keeps_linPortState {q : Fix} {r : State} {x1 : Nat} {s : State} (h : Keeps q r s) : Keeps q r (linPortState x1 s) := by
  unfold linPortState
  try dsimp only
  repeat' (first
    | (with_reducible assumption) | (with_reducible apply keeps_setBlocked))

theorem keeps_publish {q : Fix} {r s : State} {x2 x3 : Nat} (h : Keeps q r s) : Keeps q r (publish s x2 x3) := by
  unfold publish
  try dsimp only
  repeat' (first
    | (with_reducible assumption) | (with_reducible apply keeps_setLin) | simp only [↓keeps_mk]
    | (with_reducible refine keeps_of_eq (by with_reducible assumption) ?_) | (with_reducible apply keeps_ite) | split)

theorem keeps_startHeader {q : Fix} {r : State} {x1 x2 x3 x4 : Nat} {s : State} (h : Keeps q r s) : Keeps q r (startHeader x1 x2 x3 x4 s) := by
  unfold startHeader
  try dsimp only
  repeat' (first
    | (with_reducible assumption) | (with_reducible apply keeps_publish) | (with_reducible apply keeps_setLin))

theorem keeps_linSleepNow {q : Fix} {r : State} {x1 : Nat} {s : State} (h : Keeps q r s) : Keeps q r (linSleepNow x1 s) := by
  unfold linSleepNow
  try dsimp only
  repeat' (first
    | (with_reducible assumption) | (with_reducible apply keeps_linPortState) | (with_reducible apply keeps_setLin))

theorem keeps_linSlot {q : Fix} {r : State} {x1 : Nat} {s : State} (h : Keeps q r s) : Keeps q r (linSlot x1 s) := by
  unfold linSlot
  try dsimp only
  repeat' (first
    | (with_reducible assumption) | (with_reducible apply keeps_linSleepNow) | (with_reducible apply keeps_setLin)
    | (with_reducible apply keeps_startHeader) | simp only [↓keeps_mk] | (with_reducible refine keeps_of_eq (by with_reducible assumption) ?_)
    | (with_reducible apply keeps_ite) | split)

theorem keeps_linMove {q : Fix} {r : State} {x1 : Nat} {x2 : Bytes} {s : State} (h : Keeps q r s) : Keeps q r (linMove x1 x2 s) := by
  unfold linMove
  try dsimp only
  repeat' (first
    | (with_reducible assumption) | (with_reducible apply keeps_bump) | (with_reducible apply keeps_setLin) | simp only [↓keeps_mk]
    | (with_reducible refine keeps_of_eq (by with_reducible assumption) ?_) | (with_reducible apply keeps_ite) | split)

theorem keeps_linCtlEffect {q : Fix} {r : State} {x1 x2 x3 : Nat} {s : State} (h : Keeps q r s) : Keeps q r (linCtlEffect x1 x2 x3 s) := by
  unfold linCtlEffect
  try dsimp only
  repeat' (first
    | (with_reducible assumption) | (with_reducible apply keeps_setLin) | simp only [↓keeps_mk] | (with_reducible apply keeps_ite))

theorem keeps_linWoken {q : Fix} {r : State} {x1 : Nat} {s : State} (h : Keeps q r s) : Keeps q r (linWoken x1 s) := by
  unfold linWoken
  try dsimp only
  repeat' (first
    | (with_reducible assumption) | (with_reducible apply keeps_linPortState) | (with_reducible apply keeps_setLin) | simp only [↓keeps_mk]
    | (with_reducible apply keeps_ite))

theorem keeps_linCollision {q : Fix} {r : State} {x1 x2 : Nat} {s : State} (h : Keeps q r s) : Keeps q r (linCollision x1 x2 s) := by
  unfold linCollision
  try dsimp only
  repeat' (first
    | (with_reducible assumption) | (with_reducible apply keeps_bump) | (with_reducible apply keeps_setLin) | simp only [↓keeps_mk]
    | (with_reducible apply keeps_ite))

theorem keeps_linResponse {q : Fix} {r : State} {x1 : Nat} {x2 : Stamp} {x3 x4 : Nat} {x5 : Bytes} {x6 : Bool} {s : State} (h : Keeps q r s) : Keeps q r (linResponse x1 x2 x3 x4 x5 x6 s) := by
  unfold linResponse
  try dsimp only
  repeat' (first
    | (with_reducible assumption) | intro _ | (with_reducible apply keeps_setLin) | (with_reducible apply keeps_linCollision)
    | (with_reducible apply keeps_bump) | (with_reducible apply keeps_submitAt) | simp only [↓keeps_mk]
    | (with_reducible refine keeps_of_eq (by with_reducible assumption) ?_) | (with_reducible apply keeps_ite) | (with_reducible apply keeps_ite1) | split)

theorem keeps_drbgDraw {q : Fix} {r : State} {x1 : Nat} {s : State} (h : Keeps q r s) : Keeps q r (drbgDraw x1 s).1 := by
  unfold drbgDraw
  try dsimp only
  repeat' (first
    | (with_reducible assumption) | intro _ | simp only [↓keeps_mk])

theorem keeps_setJob {q : Fix} {r : State} {x1 : SpJob} {s : State} (h : Keeps q r s) : Keeps q r (setJob x1 s) := by
  unfold setJob
  try dsimp only
  repeat' (first
    | (with_reducible assumption) | intro _ | simp only [↓keeps_mk])

theorem keeps_assignOne {q : Fix} {r s : State} {x2 : SpJob} (h : Keeps q r s) : Keeps q r (assignOne s x2) := by
  unfold assignOne
  try dsimp only
  repeat' (first
    | (with_reducible assumption) | intro _ | (with_reducible apply keeps_setReg) | (with_reducible apply keeps_setJob) | simp only [↓keeps_mk]
    | (with_reducible refine keeps_of_eq (by with_reducible assumption) ?_) | (with_reducible apply keeps_ite) | (with_reducible apply keeps_ite1) | split)

theorem keeps_assignJobs {q : Fix} {r s : State} (h : Keeps q r s) : Keeps q r (assignJobs s) := by
  unfold assignJobs
  try dsimp only
  repeat' (first
    | (with_reducible assumption) | (with_reducible apply keeps_assignOne) | simp only [↓keeps_mk] | (with_reducible apply keeps_foldl))

theorem keeps_lmeRunRow {q : Fix} {r : State} {x1 : Nat} {s : State} (h : Keeps q r s) : Keeps q r (lmeRunRow x1 s) := by
  unfold lmeRunRow
  try dsimp only
  repeat' (first
    | (with_reducible assumption) | simp only [↓keeps_mk] | (with_reducible refine keeps_of_eq (by with_reducible assumption) ?_) | split)

theorem keeps_lmeIssueOne {q : Fix} {r s : State} {x2 : LmeIssue} (h : Keeps q r s) : Keeps q r (lmeIssueOne s x2) := by
  unfold lmeIssueOne
  try dsimp only
  repeat' (first
    | (with_reducible assumption) | simp only [↓keeps_mk] | (with_reducible refine keeps_of_eq (by with_reducible assumption) ?_) | split)

theorem keeps_lmeRowEnd {q : Fix} {r : State} {x1 : List LmeIssue} {s : State} (h : Keeps q r s) : Keeps q r (lmeRowEnd x1 s) := by
  unfold lmeRowEnd
  try dsimp only
  repeat' (first
    | (with_reducible assumption) | (with_reducible apply keeps_lmeRunRow) | (with_reducible apply keeps_lmeIssueOne) | (with_reducible apply keeps_setJob)
    | (with_reducible apply keeps_bump) | simp only [↓keeps_mk] | (with_reducible apply keeps_foldl) | (with_reducible apply keeps_foldP)
    | (with_reducible refine keeps_of_eq (by with_reducible assumption) ?_) | (with_reducible apply keeps_ite) | split)

theorem keeps_shaBlockEnd {q : Fix} {r : State} {x1 : Nat} {s : State} (h : Keeps q r s) : Keeps q r (shaBlockEnd x1 s) := by
  unfold shaBlockEnd
  try dsimp only
  repeat' (first
    | (with_reducible assumption) | intro _ | (with_reducible apply keeps_setJob) | simp only [↓keeps_mk]
    | (with_reducible refine keeps_of_eq (by with_reducible assumption) ?_) | (with_reducible apply keeps_ite) | (with_reducible apply keeps_ite1) | split)

theorem keeps_svcRandom {q : Fix} {r : State} {x1 : SvcReq} {s : State} (h : Keeps q r s) : Keeps q r (svcRandom x1 s).1 := by
  unfold svcRandom
  try dsimp only
  repeat' (first
    | (with_reducible assumption) | (with_reducible apply keeps_drbgDraw) | simp only [↓keeps_mk]
    | (with_reducible refine keeps_of_eq (by with_reducible assumption) ?_) | (with_reducible apply keeps_ite) | (with_reducible apply keeps_ite1))

theorem keeps_svcMacgen {q : Fix} {r : State} {x1 : SvcReq} {s : State} (h : Keeps q r s) : Keeps q r (svcMacgen x1 s).1 := by
  unfold svcMacgen
  try dsimp only
  repeat' (first
    | (with_reducible assumption) | (with_reducible apply keeps_touchSlot) | simp only [↓keeps_mk]
    | (with_reducible refine keeps_of_eq (by with_reducible assumption) ?_) | (with_reducible apply keeps_ite) | (with_reducible apply keeps_ite1) | split)

theorem keeps_svcMacver {q : Fix} {r : State} {x1 : SvcReq} {s : State} (h : Keeps q r s) : Keeps q r (svcMacver x1 s).1 := by
  unfold svcMacver
  try dsimp only
  repeat' (first
    | (with_reducible assumption) | intro _ | simp only [↓keeps_mk] | (with_reducible refine keeps_of_eq (by with_reducible assumption) ?_)
    | (with_reducible apply keeps_ite) | (with_reducible apply keeps_ite1) | (with_reducible refine keeps_verifyRoles' (by with_reducible assumption) ?_)
    | split)

theorem keeps_svcGcmenc {q : Fix} {r : State} {x1 : SvcReq} {s : State} (h : Keeps q r s) : Keeps q r (svcGcmenc x1 s).1 := by
  unfold svcGcmenc
  try dsimp only
  repeat' (first
    | (with_reducible assumption) | (with_reducible apply keeps_drbgDraw) | (with_reducible apply keeps_touchSlot) | simp only [↓keeps_mk]
    | (with_reducible refine keeps_of_eq (by with_reducible assumption) ?_) | (with_reducible apply keeps_ite) | (with_reducible apply keeps_ite1) | split)

theorem keeps_svcGcmdec {q : Fix} {r : State} {x1 : SvcReq} {s : State} (h : Keeps q r s) : Keeps q r (svcGcmdec x1 s).1 := by
  unfold svcGcmdec
  try dsimp only
  repeat' (first
    | (with_reducible assumption) | (with_reducible apply keeps_touchSlot) | simp only [↓keeps_mk]
    | (with_reducible refine keeps_of_eq (by with_reducible assumption) ?_) | (with_reducible apply keeps_ite) | (with_reducible apply keeps_ite1) | split)

theorem keeps_svcCtrenc {q : Fix} {r : State} {x1 : SvcReq} {s : State} (h : Keeps q r s) : Keeps q r (svcCtrenc x1 s).1 := by
  unfold svcCtrenc
  try dsimp only
  repeat' (first
    | (with_reducible assumption) | (with_reducible apply keeps_touchSlot) | simp only [↓keeps_mk]
    | (with_reducible refine keeps_of_eq (by with_reducible assumption) ?_) | (with_reducible apply keeps_ite) | (with_reducible apply keeps_ite1) | split)

theorem keeps_svcWrap {q : Fix} {r : State} {x1 : SvcReq} {s : State} (h : Keeps q r s) : Keeps q r (svcWrap x1 s).1 := by
  unfold svcWrap
  try dsimp only
  repeat' (first
    | (with_reducible assumption) | (with_reducible apply keeps_touchSlot) | simp only [↓keeps_mk]
    | (with_reducible refine keeps_of_eq (by with_reducible assumption) ?_) | (with_reducible apply keeps_ite) | (with_reducible apply keeps_ite1) | split)

theorem keeps_svcUnwrap {q : Fix} {r : State} {x1 : SvcReq} {s : State} (h : Keeps q r s) : Keeps q r (svcUnwrap x1 s).1 := by
  unfold svcUnwrap
  try dsimp only
  repeat' (first
    | (with_reducible assumption) | (with_reducible apply keeps_touchSlot) | simp only [↓keeps_mk]
    | (with_reducible refine keeps_of_eq (by with_reducible assumption) ?_) | (with_reducible apply keeps_ite) | (with_reducible apply keeps_ite1) | split)

theorem keeps_svcGenkey {q : Fix} {r : State} {x1 : SvcReq} {s : State} (h : Keeps q r s) : Keeps q r (svcGenkey x1 s).1 := by
  unfold svcGenkey
  try dsimp only
  repeat' (first
    | (with_reducible assumption) | (with_reducible apply keeps_drbgDraw) | simp only [↓keeps_mk]
    | (with_reducible refine keeps_of_eq (by with_reducible assumption) ?_) | (with_reducible apply keeps_ite) | (with_reducible apply keeps_ite1) | split)

theorem keeps_svcErase {q : Fix} {r : State} {x1 : SvcReq} {s : State} (h : Keeps q r s) : Keeps q r (svcErase x1 s).1 := by
  unfold svcErase
  try dsimp only
  repeat' (first
    | (with_reducible assumption) | (with_reducible apply keeps_eraseHandle) | simp only [↓keeps_mk]
    | (with_reducible refine keeps_of_eq (by with_reducible assumption) ?_) | (with_reducible apply keeps_ite) | (with_reducible apply keeps_ite1))

theorem keeps_svcCancel {q : Fix} {r : State} {x1 : SvcReq} {s : State} (h : Keeps q r s) : Keeps q r (svcCancel x1 s).1 := by
  unfold svcCancel
  try dsimp only
  repeat' (first
    | (with_reducible assumption) | (with_reducible apply keeps_keyEvent) | (with_reducible apply keeps_dropSlots) | (with_reducible apply keeps_setRole)
    | simp only [↓keeps_mk] | (with_reducible refine keeps_of_eq (by with_reducible assumption) ?_) | (with_reducible apply keeps_ite)
    | (with_reducible apply keeps_ite1) | split)

theorem keeps_svcConfirm {q : Fix} {r : State} {x1 : SvcReq} {s : State} (h : Keeps q r s) : Keeps q r (svcConfirm x1 s).1 := by
  unfold svcConfirm
  try dsimp only
  repeat' (first
    | (with_reducible assumption) | (with_reducible apply keeps_commitPending) | simp only [↓keeps_mk]
    | (with_reducible refine keeps_of_eq (by with_reducible assumption) ?_) | (with_reducible apply keeps_ite) | (with_reducible apply keeps_ite1) | split)

theorem keeps_svcKdf {q : Fix} {r : State} {x1 : SvcReq} {s : State} (h : Keeps q r s) : Keeps q r (svcKdf x1 s).1 := by
  unfold svcKdf
  try dsimp only
  repeat' (first
    | (with_reducible assumption) | (with_reducible apply keeps_touchSlot) | simp only [↓keeps_mk]
    | (with_reducible refine keeps_of_eq (by with_reducible assumption) ?_) | (with_reducible apply keeps_ite) | (with_reducible apply keeps_ite1) | split)

theorem keeps_svcSign {q : Fix} {r : State} {x1 : SvcReq} {s : State} (h : Keeps q r s) : Keeps q r (svcSign x1 s).1 := by
  unfold svcSign
  try dsimp only
  repeat' (first
    | (with_reducible assumption) | (with_reducible apply keeps_drbgDraw) | (with_reducible apply keeps_touchSlot) | (with_reducible apply keeps_raise)
    | (with_reducible apply keeps_bump) | simp only [↓keeps_mk] | (with_reducible refine keeps_of_eq (by with_reducible assumption) ?_)
    | (with_reducible apply keeps_ite) | (with_reducible apply keeps_ite1) | split)

theorem keeps_svcVerify {q : Fix} {r : State} {x1 : SvcReq} {s : State} (h : Keeps q r s) : Keeps q r (svcVerify x1 s).1 := by
  unfold svcVerify
  try dsimp only
  repeat' (first
    | (with_reducible assumption) | simp only [↓keeps_mk] | (with_reducible refine keeps_of_eq (by with_reducible assumption) ?_)
    | (with_reducible apply keeps_ite) | (with_reducible apply keeps_ite1) | split)

theorem keeps_svcAgree {q : Fix} {r : State} {x1 : SvcReq} {s : State} (h : Keeps q r s) : Keeps q r (svcAgree x1 s).1 := by
  unfold svcAgree
  try dsimp only
  repeat' (first
    | (with_reducible assumption) | (with_reducible apply keeps_touchSlot) | simp only [↓keeps_mk]
    | (with_reducible refine keeps_of_eq (by with_reducible assumption) ?_) | (with_reducible apply keeps_ite) | (with_reducible apply keeps_ite1) | split)

theorem keeps_svcMkaderive {q : Fix} {r : State} {x1 : SvcReq} {s : State} (h : Keeps q r s) : Keeps q r (svcMkaderive x1 s).1 := by
  unfold svcMkaderive
  try dsimp only
  repeat' (first
    | (with_reducible assumption) | (with_reducible apply keeps_touchSlot) | simp only [↓keeps_mk]
    | (with_reducible refine keeps_of_eq (by with_reducible assumption) ?_) | (with_reducible apply keeps_ite) | (with_reducible apply keeps_ite1) | split)

theorem keeps_svcPkload {q : Fix} {r : State} {x1 : SvcReq} {s : State} (h : Keeps q r s) : Keeps q r (svcPkload x1 s).1 := by
  unfold svcPkload
  try dsimp only
  repeat' (first
    | (with_reducible assumption) | simp only [↓keeps_mk] | (with_reducible refine keeps_of_eq (by with_reducible assumption) ?_)
    | (with_reducible apply keeps_ite) | (with_reducible apply keeps_ite1))

theorem keeps_svcHash {q : Fix} {r : State} {x1 : SvcReq} {s : State} (h : Keeps q r s) : Keeps q r (svcHash x1 s).1 := by
  unfold svcHash
  try dsimp only
  repeat' (first
    | (with_reducible assumption) | simp only [↓keeps_mk] | (with_reducible refine keeps_of_eq (by with_reducible assumption) ?_)
    | (with_reducible apply keeps_ite) | (with_reducible apply keeps_ite1))

theorem keeps_svcSelftest {q : Fix} {r : State} {x1 : SvcReq} {s : State} (h : Keeps q r s) : Keeps q r (svcSelftest x1 s).1 := by
  unfold svcSelftest
  try dsimp only
  repeat' (first
    | (with_reducible assumption) | (with_reducible apply keeps_takeFree) | simp only [↓keeps_mk]
    | (with_reducible refine keeps_of_eq (by with_reducible assumption) ?_) | (with_reducible apply keeps_ite) | (with_reducible apply keeps_ite1))

theorem keeps_placeJob {q : Fix} {r : State} {x1 : SpJob} {s : State} (h : Keeps q r s) : Keeps q r (placeJob x1 s) := by
  unfold placeJob
  try dsimp only
  repeat' (first
    | (with_reducible assumption) | (with_reducible apply keeps_assignJobs) | simp only [↓keeps_mk])

theorem keeps_takeRequest {q : Fix} {r : State} {x1 : Nat} {x2 : SvcReq → State → State × SvcOut} {x3 x4 x5 : Nat} {x6 : Bytes} {s : State} (h : Keeps q r s) (k2 : ∀ y0 y1, Keeps q r y1 → Keeps q r (x2 y0 y1).1) : Keeps q r (takeRequest x1 x2 x3 x4 x5 x6 s) := by
  unfold takeRequest
  try dsimp only
  repeat' (first
    | (with_reducible assumption) | intro _ | (with_reducible apply keeps_placeJob) | simp only [↓keeps_mk]
    | (with_reducible refine keeps_of_eq (by with_reducible assumption) ?_) | (with_reducible apply keeps_ite) | (with_reducible apply k2) | split)

theorem keeps_installAll {q : Fix} {r : State} {x1 : List Install} {s : State} (h : Keeps q r s) : Keeps q r (installAll x1 s).1 := by
  unfold installAll
  try dsimp only
  repeat' (first
    | (with_reducible assumption) | intro _ | (with_reducible apply keeps_installOn) | simp only [↓keeps_mk] | (with_reducible apply keeps_foldl)
    | (with_reducible apply keeps_foldP) | (with_reducible refine keeps_of_eq (by with_reducible assumption) ?_) | (with_reducible apply keeps_ite)
    | (with_reducible apply keeps_ite1) | split)

theorem keeps_releaseCtx {q : Fix} {r : State} {x1 : SpJob} {s : State} (h : Keeps q r s) : Keeps q r (releaseCtx x1 s) := by
  unfold releaseCtx
  try dsimp only
  repeat' (first
    | (with_reducible assumption) | simp only [↓keeps_mk] | (with_reducible refine keeps_of_eq (by with_reducible assumption) ?_)
    | (with_reducible apply keeps_ite) | split)

theorem keeps_endJob {q : Fix} {r : State} {x1 : SpJob} {x2 : Nat} {s : State} (h : Keeps q r s) : Keeps q r (endJob x1 x2 s).1 := by
  unfold endJob
  try dsimp only
  repeat' (first
    | (with_reducible assumption) | intro _ | (with_reducible apply keeps_releaseCtx) | (with_reducible apply keeps_bump)
    | (with_reducible apply keeps_installAll) | (with_reducible apply keeps_assignJobs) | simp only [↓keeps_mk]
    | (with_reducible refine keeps_of_eq (by with_reducible assumption) ?_) | (with_reducible apply keeps_ite) | (with_reducible apply keeps_ite1) | split)

theorem keeps_intPins {q : Fix} {r s : State} (h : Keeps q r s) : Keeps q r (intPins s) := by
  unfold intPins
  try dsimp only
  repeat' (first
    | (with_reducible assumption) | simp only [↓keeps_mk])

/-- Reinitialising the host die keeps all but the pins, which its callers set. -/
theorem holds_reinitHost {q : Fix} {r s : State} (h : Holds q r s) : Holds q r (reinitHost s) :=
  ⟨h.pending, h.fuses, fun hr => foldl_set_wf _ _ (dropRegs_wf _ _ (h.regs hr)), h.cells, h.flash, h.otp, h.now, h.permit, h.key, h.enter⟩

theorem keeps_hostReset {q : Fix} {r s : State} {x1 : Nat} (h : Keeps q r s) : Keeps q r (hostReset x1 s) := by
  unfold hostReset
  split
  · rename_i c hc
    refine ⟨holds_upd h.holds rfl rfl rfl rfl, fun hr => ?_⟩
    have p := h.pins hr
    unfold pinsShow at p ⊢
    simp only [hc, Option.isSome_some, reduceCtorEq, false_and, and_false] at p ⊢
    exact p
  · exact keeps_modePins (holds_upd (holds_reinitHost h.holds) rfl rfl rfl rfl)

theorem keeps_resetEnd {q : Fix} {r s : State} (h : Keeps q r s) (hnow : ¬ q.now) : Keeps q r (resetEnd s) := by
  unfold resetEnd
  split
  · exact h
  · exact keeps_modePins ⟨h.holds.pending, h.holds.fuses, h.holds.regs, h.holds.cells, h.holds.flash, h.holds.otp, fun e => absurd e hnow,
      h.holds.permit, h.holds.key, h.holds.enter⟩

theorem holds_loseKeeper {q : Fix} {r s : State} (h : Holds q r s) (hkey : ¬ q.key)
    (hlose : ∀ a b, b ≠ 3 → b = a ∨ q.enter a b → q.enter a 2) : Holds q r (loseKeeper s) := by
  refine ⟨h.pending, h.fuses, h.regs, h.cells, h.flash, h.otp, h.now, h.permit, fun e => absurd e hkey, ?_⟩
  have k := h.enter
  unfold loseKeeper
  by_cases hb : s.keeper.rootState = 3
  · simp only [hb, beq_self_eq_true, if_true] at k ⊢
    exact k
  · simp only [beq_iff_eq, hb, if_false]
    exact Or.inr (hlose _ _ hb k)

theorem keeps_supplyLoss {q : Fix} {r s : State} (h : Keeps q r s) (hkey : ¬ q.key)
    (hlose : ∀ a b, b ≠ 3 → b = a ∨ q.enter a b → q.enter a 2) : Keeps q r (supplyLoss s) := by
  have k := holds_reinitHost h.holds
  unfold supplyLoss
  exact keeps_ite h (keeps_ite (keeps_modePins (holds_upd k rfl rfl rfl rfl))
    (keeps_modePins (holds_loseKeeper (holds_upd k rfl rfl rfl rfl) hkey hlose)))

theorem keeps_enterHold {q : Fix} {r s : State} (h : Keeps q r s) : Keeps q r (enterHold s) := by
  unfold enterHold
  split
  · refine keeps_modePins (holds_via (fun _ k => keeps_setInt k) (holds_upd ?_ rfl rfl rfl rfl))
    split
    · exact holds_upd h.holds rfl rfl rfl rfl
    · exact holds_upd h.holds rfl rfl rfl rfl
    · exact h.holds
  · exact keeps_setMode h
  · exact keeps_setMode h
  · exact keeps_ite (keeps_setMode (keeps_upd h rfl rfl rfl rfl rfl rfl rfl rfl rfl)) h
  · exact h

theorem keeps_degrade {q : Fix} {r s : State} (h : Keeps q r s) : Keeps q r (degrade s) := by
  unfold degrade
  try dsimp only
  repeat' (first
    | (with_reducible assumption) | (with_reducible apply keeps_setField) | (with_reducible apply keeps_setMode) | simp only [↓keeps_mk]
    | (with_reducible apply keeps_ite))

theorem keeps_modeTick {q : Fix} {r s : State} (h : Keeps q r s) : Keeps q r (modeTick s) := by
  unfold modeTick
  try dsimp only
  repeat' (first
    | (with_reducible assumption) | (with_reducible apply keeps_setMode) | simp only [↓keeps_mk]
    | (with_reducible refine keeps_of_eq (by with_reducible assumption) ?_) | (with_reducible apply keeps_ite) | split)

theorem keeps_enterStandby {q : Fix} {r : State} {x1 : Nat} {s : State} (h : Keeps q r s) : Keeps q r (enterStandby x1 s) := by
  unfold enterStandby
  try dsimp only
  repeat' (first
    | (with_reducible assumption) | intro _ | (with_reducible apply keeps_sendPermit) | (with_reducible apply keeps_setMode) | simp only [↓keeps_mk]
    | (with_reducible refine keeps_of_eq (by with_reducible assumption) ?_) | (with_reducible apply keeps_ite))

theorem keeps_purgeAll {q : Fix} {r s : State} (h : Keeps q r s) : Keeps q r (purgeAll s) := by
  unfold purgeAll
  try dsimp only
  repeat' (first
    | (with_reducible assumption) | intro _ | (with_reducible apply keeps_purgeFrame) | simp only [↓keeps_mk] | (with_reducible apply keeps_foldl))

theorem keeps_loseSlots {q : Fix} {r s : State} (h : Keeps q r s) : Keeps q r (loseSlots s) := by
  unfold loseSlots
  try dsimp only
  repeat' (first
    | (with_reducible assumption) | intro _ | (with_reducible apply keeps_setCan) | (with_reducible apply keeps_bump) | simp only [↓keeps_mk]
    | (with_reducible apply keeps_foldl) | (with_reducible apply keeps_foldP) | (with_reducible refine keeps_of_eq (by with_reducible assumption) ?_)
    | (with_reducible apply keeps_ite))

theorem keeps_finishStandby {q : Fix} {r s : State} (h : Keeps q r s) : Keeps q r (finishStandby s) := by
  unfold finishStandby
  exact keeps_ite h (keeps_modePins (holds_upd (keeps_loseSlots (keeps_purgeAll h)).holds rfl rfl rfl rfl))

theorem keeps_wakeEvent {q : Fix} {r : State} {x1 : Nat} {x2 : Stamp} {s : State} (h : Keeps q r s) : Keeps q r (wakeEvent x1 x2 s) := by
  unfold wakeEvent
  try dsimp only
  repeat' (first
    | (with_reducible assumption) | simp only [↓keeps_mk] | (with_reducible apply keeps_ite))

theorem keeps_wakeDecide {q : Fix} {r s : State} (h : Keeps q r s) : Keeps q r (wakeDecide s) := by
  unfold wakeDecide
  refine keeps_ite h (keeps_ite h ?_)
  split
  · exact h
  · exact keeps_modePins (holds_upd (holds_reinitHost h.holds) rfl rfl rfl rfl)

theorem keeps_pulseEnd {q : Fix} {r s : State} (h : Keeps q r s) : Keeps q r (pulseEnd s) := by
  unfold pulseEnd
  try dsimp only
  repeat' (first
    | (with_reducible assumption) | simp only [↓keeps_mk] | (with_reducible refine keeps_of_eq (by with_reducible assumption) ?_)
    | (with_reducible apply keeps_ite) | split)

theorem keeps_wakeStop {q : Fix} {r s : State} (h : Keeps q r s) : Keeps q r (wakeStop s) := by
  unfold wakeStop
  try dsimp only
  repeat' (first
    | (with_reducible assumption) | simp only [↓keeps_mk])

theorem keeps_setArb {q : Fix} {r : State} {x1 : Bool} {x2 : Arbiter} {s : State} (h : Keeps q r s) : Keeps q r (setArb x1 x2 s) := by
  unfold setArb
  try dsimp only
  repeat' (first
    | (with_reducible assumption) | simp only [↓keeps_mk] | (with_reducible apply keeps_ite))

theorem keeps_notePeak {q : Fix} {r : State} {x1 : Bool} {s : State} (h : Keeps q r s) : Keeps q r (notePeak x1 s) := by
  unfold notePeak
  try dsimp only
  repeat' (first
    | (with_reducible assumption) | (with_reducible apply keeps_setField) | simp only [↓keeps_mk] | (with_reducible apply keeps_ite))

theorem keeps_askLeave {q : Fix} {r : State} {x1 : Bool} {x2 x3 : Nat} {x4 : Stamp} {s : State} (h : Keeps q r s) : Keeps q r (askLeave x1 x2 x3 x4 s) := by
  unfold askLeave
  try dsimp only
  repeat' (first
    | (with_reducible assumption) | intro _ | (with_reducible apply keeps_setArb) | simp only [↓keeps_mk]
    | (with_reducible refine keeps_of_eq (by with_reducible assumption) ?_) | (with_reducible apply keeps_ite))

theorem keeps_giveLeave {q : Fix} {r : State} {x1 : Bool} {x2 x3 : Nat} {s : State} (h : Keeps q r s) : Keeps q r (giveLeave x1 x2 x3 s) := by
  unfold giveLeave
  try dsimp only
  repeat' (first
    | (with_reducible assumption) | (with_reducible apply keeps_setArb))

theorem keeps_dropLeave {q : Fix} {r : State} {x1 : Bool} {x2 x3 : Nat} {s : State} (h : Keeps q r s) : Keeps q r (dropLeave x1 x2 x3 s) := by
  unfold dropLeave
  try dsimp only
  repeat' (first
    | (with_reducible assumption) | (with_reducible apply keeps_setArb))

theorem keeps_budStep1 {q : Fix} {r : State} {x1 : Bool} {s : State} (h : Keeps q r s) : Keeps q r (budStep1 x1 s) := by
  unfold budStep1
  try dsimp only
  repeat' (first
    | (with_reducible assumption) | intro _ | (with_reducible apply keeps_setArb))

theorem keeps_budTimeoutOne' {q : Fix} {r : State} {x1 : Bool} {s t : State} {v} (e : budTimeoutOne x1 s = some (v, t)) (h : Keeps q r s) : Keeps q r t := by
  unfold budTimeoutOne at e
  try dsimp only at e
  repeat' (split at e)
  all_goals (try (simp only [Option.some.injEq, Prod.mk.injEq, reduceCtorEq] at e))
  all_goals (try (obtain ⟨_, rfl⟩ := e))
  all_goals repeat' (first
    | (with_reducible assumption) | intro _ | (with_reducible apply keeps_bump) | (with_reducible apply keeps_setArb))

theorem keeps_budGrantOne' {q : Fix} {r : State} {x1 : Bool} {s t : State} {v} (e : budGrantOne x1 s = some (v, t)) (h : Keeps q r s) : Keeps q r t := by
  unfold budGrantOne at e
  try dsimp only at e
  repeat' (split at e)
  all_goals (try (simp only [Option.some.injEq, Prod.mk.injEq, reduceCtorEq] at e))
  all_goals (try (obtain ⟨_, rfl⟩ := e))
  all_goals repeat' (first
    | (with_reducible assumption) | intro _ | (with_reducible apply keeps_notePeak) | (with_reducible apply keeps_bump)
    | (with_reducible apply keeps_setArb) | (with_reducible apply keeps_setReg))

end Sys2Proof.Laws
end

