-- ==== Sys2Proof/Laws/KeepsUnits.lean ====
section
/-! SUPPORT. What the meanings of repair, measurement, audio, debug, the virtual ports and register accesses keep: one lemma for each, as Laws/Keeps.lean tells it. -/

namespace Sys2Proof.Laws

open Sys2Proof Sys2Proof.Machine

theorem keeps_setRep {q : Fix} {r : State} {x1 : Nat} {x2 : Repair} {s : State} (h : Keeps q r s) : Keeps q r (setRep x1 x2 s) := by
  unfold setRep
  try dsimp only
  repeat' (first
    | (with_reducible assumption) | simp only [↓keeps_mk] | (with_reducible apply keeps_ite))

theorem keeps_setIsland {q : Fix} {r : State} {x1 : Nat} {x2 : Island} {s : State} (h : Keeps q r s) : Keeps q r (setIsland x1 x2 s) := by
  unfold setIsland
  try dsimp only
  repeat' (first
    | (with_reducible assumption) | (with_reducible apply keeps_setRep))

theorem keeps_refreshOut {q : Fix} {r s : State} (h : Keeps q r s) : Keeps q r (refreshOut s) := by
  unfold refreshOut
  try dsimp only
  repeat' (first
    | (with_reducible assumption) | intro _ | (with_reducible apply keeps_expressPurge) | simp only [↓keeps_mk] | (with_reducible apply keeps_foldl))

theorem keeps_putOut {q : Fix} {r : State} {x1 x2 : Nat} {s : State} (h : Keeps q r s) : Keeps q r (putOut x1 x2 s) := by
  unfold putOut
  try dsimp only
  repeat' (first
    | (with_reducible assumption) | intro _ | (with_reducible apply keeps_setRep) | (with_reducible apply keeps_refreshOut)
    | (with_reducible apply keeps_hostReset) | (with_reducible apply keeps_expressPurge) | (with_reducible apply keeps_raise) | simp only [↓keeps_mk]
    | (with_reducible apply keeps_foldl) | (with_reducible apply keeps_foldP) | (with_reducible refine keeps_of_eq (by with_reducible assumption) ?_)
    | (with_reducible apply keeps_ite) | (with_reducible apply keeps_ite1) | split)

theorem keeps_mirrorSwap {q : Fix} {r : State} {x1 x2 : Nat} {s : State} (h : Keeps q r s) : Keeps q r (mirrorSwap x1 x2 s) := by
  unfold mirrorSwap
  try dsimp only
  repeat' (first
    | (with_reducible assumption) | intro _ | (with_reducible apply keeps_refreshOut) | simp only [↓keeps_mk])

theorem keeps_putBack {q : Fix} {r : State} {x1 x2 : Nat} {s : State} (h : Keeps q r s) : Keeps q r (putBack x1 x2 s) := by
  unfold putBack
  try dsimp only
  repeat' (first
    | (with_reducible assumption) | intro _ | (with_reducible apply keeps_setRep) | (with_reducible apply keeps_refreshOut) | simp only [↓keeps_mk]
    | (with_reducible refine keeps_of_eq (by with_reducible assumption) ?_) | (with_reducible apply keeps_ite))

theorem keeps_swapEvent {q : Fix} {r : State} {x1 : Stamp} {x2 x3 x4 : Nat} {s : State} (h : Keeps q r s) : Keeps q r (swapEvent x1 x2 x3 x4 s) := by
  unfold swapEvent
  try dsimp only
  repeat' (first
    | (with_reducible assumption) | (with_reducible apply keeps_fieldJournal) | (with_reducible apply keeps_bump) | (with_reducible apply keeps_jChange)
    | simp only [↓keeps_mk] | (with_reducible apply keeps_ite))

theorem keeps_takeover {q : Fix} {r : State} {x1 : Nat} {s : State} (h : Keeps q r s) : Keeps q r (takeover x1 s) := by
  unfold takeover
  try dsimp only
  repeat' (first
    | (with_reducible assumption) | (with_reducible apply keeps_bump) | (with_reducible apply keeps_canAttemptOver) | (with_reducible apply keeps_setLin)
    | simp only [↓keeps_mk] | (with_reducible refine keeps_of_eq (by with_reducible assumption) ?_) | (with_reducible apply keeps_ite) | split)

theorem keeps_rerunJobs {q : Fix} {r : State} {x1 : Nat} {s : State} (h : Keeps q r s) : Keeps q r (rerunJobs x1 s) := by
  unfold rerunJobs
  try dsimp only
  repeat' (first
    | (with_reducible assumption) | intro _ | (with_reducible apply keeps_bump) | simp only [↓keeps_mk]
    | (with_reducible refine keeps_of_eq (by with_reducible assumption) ?_) | (with_reducible apply keeps_ite) | (with_reducible apply keeps_ite1) | split)

theorem keeps_moveDuty {q : Fix} {r : State} {x1 : Stamp} {x2 x3 x4 x5 : Nat} {s : State} (h : Keeps q r s) : Keeps q r (moveDuty x1 x2 x3 x4 x5 s) := by
  unfold moveDuty
  try dsimp only
  repeat' (first
    | (with_reducible assumption) | (with_reducible apply keeps_setIsland) | (with_reducible apply keeps_takeover) | (with_reducible apply keeps_swapEvent)
    | (with_reducible apply keeps_putOut) | simp only [↓keeps_mk] | (with_reducible refine keeps_of_eq (by with_reducible assumption) ?_)
    | (with_reducible apply keeps_ite) | split)

theorem keeps_ageAdd {q : Fix} {r : State} {x1 x2 x3 x4 : Nat} {s : State} (h : Keeps q r s) : Keeps q r (ageAdd x1 x2 x3 x4 s) := by
  unfold ageAdd
  try dsimp only
  repeat' (first
    | (with_reducible assumption) | intro _ | (with_reducible apply keeps_bump) | simp only [↓keeps_mk]
    | (with_reducible refine keeps_of_eq (by with_reducible assumption) ?_) | split)

theorem keeps_markDefective {q : Fix} {r : State} {x1 x2 : Nat} {s : State} (h : Keeps q r s) : Keeps q r (markDefective x1 x2 s) := by
  unfold markDefective
  try dsimp only
  repeat' (first
    | (with_reducible assumption) | (with_reducible apply keeps_ageAdd) | (with_reducible apply keeps_setIsland))

theorem keeps_endVisit {q : Fix} {r : State} {x1 : Bool} {x2 : Nat} {s : State} (h : Keeps q r s) : Keeps q r (endVisit x1 x2 s) := by
  unfold endVisit
  try dsimp only
  repeat' (first
    | (with_reducible assumption) | (with_reducible apply keeps_setRep) | (with_reducible apply keeps_giveLeave) | (with_reducible apply keeps_dropLeave)
    | simp only [↓keeps_mk] | (with_reducible apply keeps_ite))

theorem keeps_endReturn {q : Fix} {r : State} {x1 : Bool} {x2 x3 : Nat} {s : State} (h : Keeps q r s) : Keeps q r (endReturn x1 x2 x3 s) := by
  unfold endReturn
  try dsimp only
  repeat' (first
    | (with_reducible assumption) | (with_reducible apply keeps_setRep) | (with_reducible apply keeps_giveLeave) | (with_reducible apply keeps_dropLeave)
    | simp only [↓keeps_mk] | (with_reducible apply keeps_ite))

theorem keeps_handDuty {q : Fix} {r : State} {x1 x2 x3 x4 : Nat} {s : State} (h : Keeps q r s) : Keeps q r (handDuty x1 x2 x3 x4 s) := by
  unfold handDuty
  try dsimp only
  repeat' (first
    | (with_reducible assumption) | (with_reducible apply keeps_setIsland) | (with_reducible apply keeps_swapEvent))

theorem keeps_shadowMismatch {q : Fix} {r : State} {x1 : Nat} {s : State} (h : Keeps q r s) : Keeps q r (shadowMismatch x1 s) := by
  unfold shadowMismatch
  try dsimp only
  repeat' (first
    | (with_reducible assumption) | (with_reducible apply keeps_raise) | (with_reducible apply keeps_markDefective) | (with_reducible apply keeps_endVisit)
    | (with_reducible apply keeps_endReturn) | simp only [↓keeps_mk] | (with_reducible refine keeps_of_eq (by with_reducible assumption) ?_)
    | (with_reducible apply keeps_ite) | split)

theorem keeps_repairDuty {q : Fix} {r : State} {x1 : Stamp} {x2 : Nat} {s : State} (h : Keeps q r s) : Keeps q r (repairDuty x1 x2 s) := by
  unfold repairDuty
  try dsimp only
  repeat' (first
    | (with_reducible assumption) | (with_reducible apply keeps_moveDuty) | (with_reducible apply keeps_endVisit) | (with_reducible apply keeps_setIsland)
    | (with_reducible apply keeps_handDuty) | simp only [↓keeps_mk] | (with_reducible refine keeps_of_eq (by with_reducible assumption) ?_)
    | (with_reducible apply keeps_ite) | split)

theorem keeps_isolateDuty {q : Fix} {r : State} {x1 : Stamp} {x2 : Nat} {s : State} (h : Keeps q r s) : Keeps q r (isolateDuty x1 x2 s) := by
  unfold isolateDuty
  try dsimp only
  repeat' (first
    | (with_reducible assumption) | (with_reducible apply keeps_setIsland) | (with_reducible apply keeps_putOut) | (with_reducible apply keeps_swapEvent)
    | simp only [↓keeps_mk] | (with_reducible refine keeps_of_eq (by with_reducible assumption) ?_) | (with_reducible apply keeps_ite) | split)

theorem keeps_islandCheck {q : Fix} {r : State} {x1 : Nat} {x2 : Bool} {s : State} (h : Keeps q r s) : Keeps q r (islandCheck x1 x2 s) := by
  unfold islandCheck
  try dsimp only
  repeat' (first
    | (with_reducible assumption) | intro _ | (with_reducible apply keeps_shadowMismatch) | (with_reducible apply keeps_raise)
    | (with_reducible apply keeps_setRep) | (with_reducible apply keeps_moveDuty) | (with_reducible apply keeps_ageAdd) | (with_reducible apply keeps_bump)
    | (with_reducible apply keeps_putOut) | (with_reducible apply keeps_swapEvent) | (with_reducible apply keeps_setIsland)
    | (with_reducible apply keeps_rerunJobs) | simp only [↓keeps_mk] | (with_reducible refine keeps_of_eq (by with_reducible assumption) ?_)
    | (with_reducible apply keeps_ite))

theorem keeps_visitStart {q : Fix} {r : State} {x1 : Bool} {s : State} (h : Keeps q r s) : Keeps q r (visitStart x1 s) := by
  unfold visitStart
  try dsimp only
  repeat' (first
    | (with_reducible assumption) | (with_reducible apply keeps_setRep) | (with_reducible apply keeps_askLeave) | simp only [↓keeps_mk]
    | (with_reducible refine keeps_of_eq (by with_reducible assumption) ?_) | (with_reducible apply keeps_ite) | split)

theorem keeps_setVisit {q : Fix} {r : State} {x1 : Bool} {x2 : Visit} {s : State} (h : Keeps q r s) : Keeps q r (setVisit x1 x2 s) := by
  unfold setVisit
  try dsimp only
  repeat' (first
    | (with_reducible assumption) | (with_reducible apply keeps_setRep))

theorem keeps_setReturn {q : Fix} {r : State} {x1 : Bool} {x2 : Visit} {s : State} (h : Keeps q r s) : Keeps q r (setReturn x1 x2 s) := by
  unfold setReturn
  try dsimp only
  repeat' (first
    | (with_reducible assumption) | (with_reducible apply keeps_setRep))

theorem keeps_visitGranted {q : Fix} {r : State} {x1 : Bool} {x2 : Nat} {s : State} (h : Keeps q r s) : Keeps q r (visitGranted x1 x2 s) := by
  unfold visitGranted
  try dsimp only
  repeat' (first
    | (with_reducible assumption) | (with_reducible apply keeps_endVisit) | (with_reducible apply keeps_setVisit) | (with_reducible apply keeps_setIsland)
    | (with_reducible apply keeps_setReturn) | simp only [↓keeps_mk] | (with_reducible refine keeps_of_eq (by with_reducible assumption) ?_)
    | (with_reducible apply keeps_ite) | split)

theorem keeps_visitRefused {q : Fix} {r : State} {x1 : Bool} {x2 : Nat} {s : State} (h : Keeps q r s) : Keeps q r (visitRefused x1 x2 s) := by
  unfold visitRefused
  try dsimp only
  repeat' (first
    | (with_reducible assumption) | (with_reducible apply keeps_endVisit) | (with_reducible apply keeps_bump) | (with_reducible apply keeps_endReturn)
    | simp only [↓keeps_mk] | (with_reducible refine keeps_of_eq (by with_reducible assumption) ?_) | (with_reducible apply keeps_ite) | split)

theorem keeps_shadowEnd {q : Fix} {r : State} {x1 : Bool} {s : State} (h : Keeps q r s) : Keeps q r (shadowEnd x1 s) := by
  unfold shadowEnd
  try dsimp only
  repeat' (first
    | (with_reducible assumption) | (with_reducible apply keeps_setVisit) | (with_reducible apply keeps_setReturn) | simp only [↓keeps_mk]
    | (with_reducible refine keeps_of_eq (by with_reducible assumption) ?_) | (with_reducible apply keeps_ite) | split)

theorem keeps_visitHandover {q : Fix} {r : State} {x1 : Bool} {s : State} (h : Keeps q r s) : Keeps q r (visitHandover x1 s) := by
  unfold visitHandover
  try dsimp only
  repeat' (first
    | (with_reducible assumption) | (with_reducible apply keeps_setVisit) | (with_reducible apply keeps_handDuty) | simp only [↓keeps_mk]
    | (with_reducible refine keeps_of_eq (by with_reducible assumption) ?_) | (with_reducible apply keeps_ite) | split)

theorem keeps_selftestDone {q : Fix} {r : State} {x1 x2 : Bool} {s : State} (h : Keeps q r s) : Keeps q r (selftestDone x1 x2 s) := by
  unfold selftestDone
  try dsimp only
  repeat' (first
    | (with_reducible assumption) | (with_reducible apply keeps_endVisit) | (with_reducible apply keeps_raise) | (with_reducible apply keeps_markDefective)
    | (with_reducible apply keeps_setVisit) | (with_reducible apply keeps_setIsland) | (with_reducible apply keeps_endReturn)
    | (with_reducible apply keeps_setReturn) | simp only [↓keeps_mk] | (with_reducible refine keeps_of_eq (by with_reducible assumption) ?_)
    | (with_reducible apply keeps_ite) | split)

theorem keeps_visitHandback {q : Fix} {r : State} {x1 : Bool} {s : State} (h : Keeps q r s) : Keeps q r (visitHandback x1 s) := by
  unfold visitHandback
  try dsimp only
  repeat' (first
    | (with_reducible assumption) | (with_reducible apply keeps_endVisit) | (with_reducible apply keeps_handDuty) | simp only [↓keeps_mk]
    | (with_reducible refine keeps_of_eq (by with_reducible assumption) ?_) | (with_reducible apply keeps_ite) | split)

theorem keeps_visitDefer {q : Fix} {r : State} {x1 : Bool} {s : State} (h : Keeps q r s) : Keeps q r (visitDefer x1 s) := by
  unfold visitDefer
  try dsimp only
  repeat' (first
    | (with_reducible assumption) | (with_reducible apply keeps_endVisit) | (with_reducible apply keeps_bump) | (with_reducible apply keeps_setIsland)
    | simp only [↓keeps_mk] | (with_reducible refine keeps_of_eq (by with_reducible assumption) ?_) | (with_reducible apply keeps_ite) | split)

theorem keeps_returnStart {q : Fix} {r : State} {x1 : Nat} {s : State} (h : Keeps q r s) : Keeps q r (returnStart x1 s) := by
  unfold returnStart
  try dsimp only
  repeat' (first
    | (with_reducible assumption) | intro _ | (with_reducible apply keeps_setRep) | (with_reducible apply keeps_askLeave) | simp only [↓keeps_mk]
    | (with_reducible refine keeps_of_eq (by with_reducible assumption) ?_) | (with_reducible apply keeps_ite))

theorem keeps_returnComplete {q : Fix} {r : State} {x1 : Bool} {s : State} (h : Keeps q r s) : Keeps q r (returnComplete x1 s) := by
  unfold returnComplete
  try dsimp only
  repeat' (first
    | (with_reducible assumption) | intro _ | (with_reducible apply keeps_endReturn) | (with_reducible apply keeps_handDuty)
    | (with_reducible apply keeps_putBack) | (with_reducible apply keeps_swapEvent) | (with_reducible apply keeps_setIsland) | simp only [↓keeps_mk]
    | (with_reducible apply keeps_foldl) | (with_reducible apply keeps_foldP) | (with_reducible refine keeps_of_eq (by with_reducible assumption) ?_)
    | (with_reducible apply keeps_ite) | (with_reducible apply keeps_ite1) | split)

theorem keeps_endFieldWork {q : Fix} {r s : State} (h : Keeps q r s) : Keeps q r (endFieldWork s) := by
  unfold endFieldWork
  try dsimp only
  repeat' (first
    | (with_reducible assumption) | (with_reducible apply keeps_endVisit) | (with_reducible apply keeps_setIsland) | (with_reducible apply keeps_endReturn)
    | simp only [↓keeps_mk] | (with_reducible refine keeps_of_eq (by with_reducible assumption) ?_) | (with_reducible apply keeps_ite) | split)

theorem keeps_sramCorrected {q : Fix} {r : State} {x1 : Bool} {x2 x3 : Nat} {s : State} (h : Keeps q r s) : Keeps q r (sramCorrected x1 x2 x3 s) := by
  unfold sramCorrected
  try dsimp only
  repeat' (first
    | (with_reducible assumption) | (with_reducible apply keeps_raise) | (with_reducible apply keeps_setRep) | simp only [↓keeps_mk]
    | (with_reducible refine keeps_of_eq (by with_reducible assumption) ?_) | (with_reducible apply keeps_ite) | split)

theorem keeps_sramReplace {q : Fix} {r : State} {x1 : Bool} {s : State} (h : Keeps q r s) : Keeps q r (sramReplace x1 s) := by
  unfold sramReplace
  try dsimp only
  repeat' (first
    | (with_reducible assumption) | (with_reducible apply keeps_setRep) | (with_reducible apply keeps_ageAdd) | simp only [↓keeps_mk]
    | (with_reducible refine keeps_of_eq (by with_reducible assumption) ?_) | (with_reducible apply keeps_ite) | split)

theorem keeps_setMeas {q : Fix} {r : State} {x1 : Bool} {x2 : Meas} {s : State} (h : Keeps q r s) : Keeps q r (setMeas x1 x2 s) := by
  unfold setMeas
  try dsimp only
  repeat' (first
    | (with_reducible assumption) | simp only [↓keeps_mk] | (with_reducible apply keeps_ite))

theorem keeps_startChan {q : Fix} {r : State} {x1 : Bool} {x2 : Nat} {s : State} (h : Keeps q r s) : Keeps q r (startChan x1 x2 s) := by
  unfold startChan
  try dsimp only
  repeat' (first
    | (with_reducible assumption) | (with_reducible apply keeps_setMeas) | simp only [↓keeps_mk]
    | (with_reducible refine keeps_of_eq (by with_reducible assumption) ?_) | split)

theorem keeps_stopChan {q : Fix} {r : State} {x1 : Bool} {x2 : Nat} {s : State} (h : Keeps q r s) : Keeps q r (stopChan x1 x2 s) := by
  unfold stopChan
  try dsimp only
  repeat' (first
    | (with_reducible assumption) | (with_reducible apply keeps_setMeas))

theorem keeps_startAll {q : Fix} {r : State} {x1 : Bool} {s : State} (h : Keeps q r s) : Keeps q r (startAll x1 s) := by
  unfold startAll
  try dsimp only
  repeat' (first
    | (with_reducible assumption) | intro _ | (with_reducible apply keeps_startChan) | simp only [↓keeps_mk] | (with_reducible apply keeps_foldl)
    | (with_reducible apply keeps_foldP) | (with_reducible refine keeps_of_eq (by with_reducible assumption) ?_) | (with_reducible apply keeps_ite))

theorem keeps_chctlEffect {q : Fix} {r : State} {x1 : Bool} {x2 : Nat} {x3 x4 : Bool} {s : State} (h : Keeps q r s) : Keeps q r (chctlEffect x1 x2 x3 x4 s) := by
  unfold chctlEffect
  try dsimp only
  repeat' (first
    | (with_reducible assumption) | (with_reducible apply keeps_startChan) | (with_reducible apply keeps_stopChan) | simp only [↓keeps_mk]
    | (with_reducible apply keeps_ite))

theorem keeps_filterOutput {q : Fix} {r : State} {x1 : Bool} {x2 : Nat} {x3 x4 : List Int} {s : State} (h : Keeps q r s) : Keeps q r (filterOutput x1 x2 x3 x4 s) := by
  unfold filterOutput
  try dsimp only
  repeat' (first
    | (with_reducible assumption) | intro _ | (with_reducible apply keeps_setMeas) | simp only [↓keeps_mk] | (with_reducible apply keeps_foldl)
    | (with_reducible apply keeps_foldP) | (with_reducible refine keeps_of_eq (by with_reducible assumption) ?_) | (with_reducible apply keeps_ite)
    | (with_reducible apply keeps_ite1) | split)

theorem keeps_placeRecord {q : Fix} {r : State} {x1 : Bool} {x2 : Nat} {x3 : Bytes} {s : State} (h : Keeps q r s) : Keeps q r (placeRecord x1 x2 x3 s) := by
  unfold placeRecord
  try dsimp only
  repeat' (first
    | (with_reducible assumption) | (with_reducible apply keeps_setMeas) | (with_reducible apply keeps_raise) | (with_reducible apply keeps_bump)
    | simp only [↓keeps_mk] | (with_reducible apply keeps_ite))

theorem keeps_windowClose {q : Fix} {r : State} {x1 : Bool} {x2 : Nat} {s : State} (h : Keeps q r s) : Keeps q r (windowClose x1 x2 s) := by
  unfold windowClose
  try dsimp only
  repeat' (first
    | (with_reducible assumption) | (with_reducible apply keeps_placeRecord) | (with_reducible apply keeps_setMeas) | simp only [↓keeps_mk]
    | (with_reducible refine keeps_of_eq (by with_reducible assumption) ?_) | (with_reducible apply keeps_ite) | split)

theorem keeps_followerStep {q : Fix} {r : State} {x1 : Stamp} {s : State} (h : Keeps q r s) : Keeps q r (followerStep x1 s) := by
  unfold followerStep
  try dsimp only
  repeat' (first
    | (with_reducible assumption) | intro _ | (with_reducible apply keeps_placeRecord) | (with_reducible apply keeps_startChan) | simp only [↓keeps_mk]
    | (with_reducible apply keeps_foldl) | (with_reducible apply keeps_foldP) | (with_reducible refine keeps_of_eq (by with_reducible assumption) ?_)
    | (with_reducible apply keeps_ite) | (with_reducible apply keeps_ite1) | split)

theorem keeps_recordSend {q : Fix} {r s : State} (h : Keeps q r s) : Keeps q r (recordSend s) := by
  unfold recordSend
  try dsimp only
  repeat' (first
    | (with_reducible assumption) | (with_reducible apply keeps_fieldSend) | (with_reducible apply keeps_bump) | simp only [↓keeps_mk]
    | (with_reducible refine keeps_of_eq (by with_reducible assumption) ?_) | (with_reducible apply keeps_ite) | split)

theorem keeps_publishRecord {q : Fix} {r : State} {x1 : Bytes} {s : State} (h : Keeps q r s) : Keeps q r (publishRecord x1 s) := by
  unfold publishRecord
  try dsimp only
  repeat' (first
    | (with_reducible assumption) | (with_reducible apply keeps_bump) | (with_reducible apply keeps_submitMsg) | simp only [↓keeps_mk]
    | (with_reducible refine keeps_of_eq (by with_reducible assumption) ?_) | split)

theorem keeps_publishTouch {q : Fix} {r : State} {x1 : Nat × Nat × Stamp} {s : State} (h : Keeps q r s) : Keeps q r (publishTouch x1 s) := by
  unfold publishTouch
  try dsimp only
  repeat' (first
    | (with_reducible assumption) | (with_reducible apply keeps_submitMsg) | simp only [↓keeps_mk])

theorem keeps_publishTick {q : Fix} {r : State} {x1 : Nat} {x2 : List Bytes} {s : State} (h : Keeps q r s) : Keeps q r (publishTick x1 x2 s) := by
  unfold publishTick
  try dsimp only
  repeat' (first
    | (with_reducible assumption) | intro _ | (with_reducible apply keeps_publishRecord) | (with_reducible apply keeps_publishTouch) | simp only [↓keeps_mk]
    | (with_reducible apply keeps_foldl))

theorem keeps_calNext {q : Fix} {r s : State} (h : Keeps q r s) : Keeps q r (calNext s) := by
  unfold calNext
  try dsimp only
  repeat' (first
    | (with_reducible assumption) | intro _ | (with_reducible apply keeps_endVisit) | (with_reducible apply keeps_askLeave) | simp only [↓keeps_mk]
    | (with_reducible refine keeps_of_eq (by with_reducible assumption) ?_) | (with_reducible apply keeps_ite) | (with_reducible apply keeps_ite1) | split)

theorem keeps_calEnd {q : Fix} {r : State} {x1 x2 : Nat} {s : State} (h : Keeps q r s) : Keeps q r (calEnd x1 x2 s) := by
  unfold calEnd
  try dsimp only
  repeat' (first
    | (with_reducible assumption) | intro _ | (with_reducible apply keeps_giveLeave) | (with_reducible apply keeps_dropLeave)
    | (with_reducible apply keeps_bump) | (with_reducible apply keeps_endVisit) | (with_reducible apply keeps_calNext) | simp only [↓keeps_mk]
    | (with_reducible refine keeps_of_eq (by with_reducible assumption) ?_) | (with_reducible apply keeps_ite) | (with_reducible apply keeps_ite1) | split)

theorem keeps_calRequest {q : Fix} {r : State} {x1 : Nat} {s : State} (h : Keeps q r s) : Keeps q r (calRequest x1 s) := by
  unfold calRequest
  try dsimp only
  repeat' (first
    | (with_reducible assumption) | intro _ | (with_reducible apply keeps_calNext) | simp only [↓keeps_mk] | (with_reducible apply keeps_foldl)
    | (with_reducible apply keeps_foldP) | (with_reducible refine keeps_of_eq (by with_reducible assumption) ?_) | (with_reducible apply keeps_ite)
    | (with_reducible apply keeps_ite1) | split)

theorem keeps_calStep {q : Fix} {r : State} {x1 : Nat} {s : State} (h : Keeps q r s) : Keeps q r (calStep x1 s) := by
  unfold calStep
  try dsimp only
  repeat' (first
    | (with_reducible assumption) | simp only [↓keeps_mk] | (with_reducible refine keeps_of_eq (by with_reducible assumption) ?_) | split)

theorem keeps_spareCalibrated {q : Fix} {r : State} {x1 : Bool} {s : State} (h : Keeps q r s) : Keeps q r (spareCalibrated x1 s) := by
  unfold spareCalibrated
  try dsimp only
  repeat' (first
    | (with_reducible assumption) | (with_reducible apply keeps_calStep) | (with_reducible apply keeps_setIsland) | (with_reducible apply keeps_calEnd)
    | (with_reducible apply keeps_raise) | simp only [↓keeps_mk] | (with_reducible refine keeps_of_eq (by with_reducible assumption) ?_)
    | (with_reducible apply keeps_ite) | split)

theorem keeps_converterSwap {q : Fix} {r s : State} (h : Keeps q r s) : Keeps q r (converterSwap s) := by
  unfold converterSwap
  try dsimp only
  repeat' (first
    | (with_reducible assumption) | intro _ | (with_reducible apply keeps_handDuty) | simp only [↓keeps_mk] | (with_reducible apply keeps_foldl)
    | (with_reducible apply keeps_foldP) | (with_reducible refine keeps_of_eq (by with_reducible assumption) ?_) | (with_reducible apply keeps_ite)
    | (with_reducible apply keeps_ite1) | split)

theorem keeps_calibrationDone {q : Fix} {r : State} {x1 : Bool} {s : State} (h : Keeps q r s) : Keeps q r (calibrationDone x1 s) := by
  unfold calibrationDone
  try dsimp only
  repeat' (first
    | (with_reducible assumption) | intro _ | (with_reducible apply keeps_setIsland) | (with_reducible apply keeps_calEnd)
    | (with_reducible apply keeps_raise) | simp only [↓keeps_mk] | (with_reducible refine keeps_of_eq (by with_reducible assumption) ?_)
    | (with_reducible apply keeps_ite) | (with_reducible apply keeps_ite1) | split)

theorem keeps_hsnsCalRequest {q : Fix} {r s : State} (h : Keeps q r s) : Keeps q r (hsnsCalRequest s) := by
  unfold hsnsCalRequest
  try dsimp only
  repeat' (first
    | (with_reducible assumption) | (with_reducible apply keeps_askLeave) | simp only [↓keeps_mk] | (with_reducible apply keeps_ite))

theorem keeps_hsnsCalEnd {q : Fix} {r : State} {x1 x2 : Nat} {s : State} (h : Keeps q r s) : Keeps q r (hsnsCalEnd x1 x2 s) := by
  unfold hsnsCalEnd
  try dsimp only
  repeat' (first
    | (with_reducible assumption) | (with_reducible apply keeps_giveLeave) | (with_reducible apply keeps_bump) | (with_reducible apply keeps_hsnsCalRequest)
    | simp only [↓keeps_mk] | (with_reducible apply keeps_ite))

theorem keeps_hsnsResume {q : Fix} {r : State} {x1 : Bool} {s : State} (h : Keeps q r s) : Keeps q r (hsnsResume x1 s) := by
  unfold hsnsResume
  try dsimp only
  repeat' (first
    | (with_reducible assumption) | intro _ | (with_reducible apply keeps_hsnsCalEnd) | (with_reducible apply keeps_raise) | simp only [↓keeps_mk]
    | (with_reducible refine keeps_of_eq (by with_reducible assumption) ?_) | (with_reducible apply keeps_ite) | (with_reducible apply keeps_ite1) | split)

theorem keeps_touchReading {q : Fix} {r : State} {x1 : Nat} {s : State} (h : Keeps q r s) : Keeps q r (touchReading x1 s) := by
  unfold touchReading
  try dsimp only
  repeat' (first
    | (with_reducible assumption) | (with_reducible apply keeps_bump) | (with_reducible apply keeps_raise) | simp only [↓keeps_mk]
    | (with_reducible refine keeps_of_eq (by with_reducible assumption) ?_) | (with_reducible apply keeps_ite) | split)

theorem keeps_touchScan {q : Fix} {r : State} {x1 : Nat} {x2 : Int} {x3 : Stamp} {s : State} (h : Keeps q r s) : Keeps q r (touchScan x1 x2 x3 s) := by
  unfold touchScan
  try dsimp only
  repeat' (first
    | (with_reducible assumption) | (with_reducible apply keeps_wakeEvent) | simp only [↓keeps_mk] | (with_reducible apply keeps_ite))

theorem keeps_touchStart {q : Fix} {r s : State} (h : Keeps q r s) : Keeps q r (touchStart s) := by
  unfold touchStart
  try dsimp only
  repeat' (first
    | (with_reducible assumption) | simp only [↓keeps_mk])

theorem keeps_setPort {q : Fix} {r : State} {x1 : Nat} {x2 : APort} {s : State} (h : Keeps q r s) : Keeps q r (setPort x1 x2 s) := by
  unfold setPort
  try dsimp only
  repeat' (first
    | (with_reducible assumption) | simp only [↓keeps_mk] | (with_reducible apply keeps_ite))

theorem keeps_pushBlock {q : Fix} {r : State} {x1 : Nat} {x2 : BStamp} {x3 : Nat} {s : State} (h : Keeps q r s) : Keeps q r (pushBlock x1 x2 x3 s) := by
  unfold pushBlock
  try dsimp only
  repeat' (first
    | (with_reducible assumption) | (with_reducible apply keeps_setPort) | (with_reducible apply keeps_bump) | simp only [↓keeps_mk]
    | (with_reducible apply keeps_ite))

theorem keeps_popBlock {q : Fix} {r : State} {x1 : Nat} {s : State} (h : Keeps q r s) : Keeps q r (popBlock x1 s).1 := by
  unfold popBlock
  try dsimp only
  repeat' (first
    | (with_reducible assumption) | (with_reducible apply keeps_setReg) | (with_reducible apply keeps_setPort) | simp only [↓keeps_mk]
    | (with_reducible refine keeps_of_eq (by with_reducible assumption) ?_) | split)

theorem keeps_keepSample {q : Fix} {r : State} {x1 x2 x3 : Nat} {x4 : Int} {s : State} (h : Keeps q r s) : Keeps q r (keepSample x1 x2 x3 x4 s) := by
  unfold keepSample
  try dsimp only
  repeat' (first
    | (with_reducible assumption) | intro _ | simp only [↓keeps_mk] | (with_reducible refine keeps_of_eq (by with_reducible assumption) ?_)
    | (with_reducible apply keeps_ite))

theorem keeps_forgetPort {q : Fix} {r : State} {x1 : Nat} {s : State} (h : Keeps q r s) : Keeps q r (forgetPort x1 s) := by
  unfold forgetPort
  try dsimp only
  repeat' (first
    | (with_reducible assumption) | intro _ | simp only [↓keeps_mk])

theorem keeps_loseLock {q : Fix} {r : State} {x1 : Nat} {s : State} (h : Keeps q r s) : Keeps q r (loseLock x1 s) := by
  unfold loseLock
  try dsimp only
  repeat' (first
    | (with_reducible assumption) | intro _ | (with_reducible apply keeps_forgetPort) | (with_reducible apply keeps_setPort)
    | (with_reducible apply keeps_bump) | simp only [↓keeps_mk] | (with_reducible apply keeps_foldl) | (with_reducible apply keeps_foldP)
    | (with_reducible refine keeps_of_eq (by with_reducible assumption) ?_) | (with_reducible apply keeps_ite))

theorem keeps_portStart {q : Fix} {r : State} {x1 : Nat} {s : State} (h : Keeps q r s) : Keeps q r (portStart x1 s) := by
  unfold portStart
  try dsimp only
  repeat' (first
    | (with_reducible assumption) | intro _ | (with_reducible apply keeps_setPort) | (with_reducible apply keeps_forgetPort))

theorem keeps_portStop {q : Fix} {r : State} {x1 : Nat} {s : State} (h : Keeps q r s) : Keeps q r (portStop x1 s) := by
  unfold portStop
  try dsimp only
  repeat' (first
    | (with_reducible assumption) | (with_reducible apply keeps_setPort))

theorem keeps_portEnable {q : Fix} {r : State} {x1 : Nat} {x2 x3 : Bool} {s : State} (h : Keeps q r s) : Keeps q r (portEnable x1 x2 x3 s) := by
  unfold portEnable
  try dsimp only
  repeat' (first
    | (with_reducible assumption) | (with_reducible apply keeps_setPort) | (with_reducible apply keeps_portStart) | (with_reducible apply keeps_portStop)
    | simp only [↓keeps_mk] | (with_reducible apply keeps_ite))

theorem keeps_tdmReceive {q : Fix} {r : State} {x1 x2 : Nat} {x3 : List Word} {s : State} (h : Keeps q r s) : Keeps q r (tdmReceive x1 x2 x3 s) := by
  unfold tdmReceive
  try dsimp only
  repeat' (first
    | (with_reducible assumption) | intro _ | (with_reducible apply keeps_keepSample) | (with_reducible apply keeps_setPort) | simp only [↓keeps_mk]
    | (with_reducible apply keeps_foldl))

theorem keeps_tdmLatch {q : Fix} {r : State} {x1 : Nat} {s : State} (h : Keeps q r s) : Keeps q r (tdmLatch x1 s) := by
  unfold tdmLatch
  try dsimp only
  repeat' (first
    | (with_reducible assumption) | intro _ | (with_reducible apply keeps_setPort))

theorem keeps_tdmFrame {q : Fix} {r : State} {x1 : Nat} {x2 : List Word} {s : State} (h : Keeps q r s) : Keeps q r (tdmFrame x1 x2 s) := by
  unfold tdmFrame
  try dsimp only
  repeat' (first
    | (with_reducible assumption) | (with_reducible apply keeps_tdmReceive) | (with_reducible apply keeps_pushBlock) | (with_reducible apply keeps_portStop)
    | (with_reducible apply keeps_setPort) | simp only [↓keeps_mk] | (with_reducible apply keeps_ite))

theorem keeps_tdmEdge {q : Fix} {r : State} {x1 : Nat} {x2 : Stamp} {x3 : Nat} {s : State} (h : Keeps q r s) : Keeps q r (tdmEdge x1 x2 x3 s) := by
  unfold tdmEdge
  try dsimp only
  repeat' (first
    | (with_reducible assumption) | (with_reducible apply keeps_dropLate) | (with_reducible apply keeps_setPort) | (with_reducible apply keeps_pushBlock)
    | (with_reducible apply keeps_loseLock) | (with_reducible apply keeps_bump) | simp only [↓keeps_mk]
    | (with_reducible refine keeps_of_eq (by with_reducible assumption) ?_) | (with_reducible apply keeps_ite) | split)

theorem keeps_bptCommit {q : Fix} {r : State} {x1 : Nat} {x2 : Bool} {s : State} (h : Keeps q r s) : Keeps q r (bptCommit x1 x2 s) := by
  unfold bptCommit
  try dsimp only
  repeat' (first
    | (with_reducible assumption) | (with_reducible apply keeps_setPort) | simp only [↓keeps_mk] | (with_reducible apply keeps_ite))

theorem keeps_bptFrame {q : Fix} {r : State} {x1 : Nat} {s : State} (h : Keeps q r s) : Keeps q r (bptFrame x1 s) := by
  unfold bptFrame
  try dsimp only
  repeat' (first
    | (with_reducible assumption) | intro _ | (with_reducible apply keeps_portStop) | (with_reducible apply keeps_setPort)
    | (with_reducible apply keeps_pushBlock) | simp only [↓keeps_mk] | (with_reducible refine keeps_of_eq (by with_reducible assumption) ?_)
    | (with_reducible apply keeps_ite))

theorem keeps_bprBlockEnd {q : Fix} {r : State} {x1 : Nat} {s : State} (h : Keeps q r s) : Keeps q r (bprBlockEnd x1 s) := by
  unfold bprBlockEnd
  try dsimp only
  repeat' (first
    | (with_reducible assumption) | (with_reducible apply keeps_setField) | (with_reducible apply keeps_setPort) | (with_reducible apply keeps_pushBlock)
    | simp only [↓keeps_mk] | (with_reducible refine keeps_of_eq (by with_reducible assumption) ?_) | (with_reducible apply keeps_ite) | split)

theorem keeps_bprTake {q : Fix} {r : State} {x1 x2 x3 : Nat} {s : State} (h : Keeps q r s) : Keeps q r (bprTake x1 x2 x3 s) := by
  unfold bprTake
  try dsimp only
  repeat' (first
    | (with_reducible assumption) | intro _ | (with_reducible apply keeps_bump) | (with_reducible apply keeps_setPort)
    | (with_reducible apply keeps_keepSample))

theorem keeps_bprFrame {q : Fix} {r : State} {x1 : Nat} {x2 : Stamp} {x3 x4 : Bool} {x5 x6 : Nat} {s : State} (h : Keeps q r s) : Keeps q r (bprFrame x1 x2 x3 x4 x5 x6 s) := by
  unfold bprFrame
  try dsimp only
  repeat' (first
    | (with_reducible assumption) | (with_reducible apply keeps_dropLate) | (with_reducible apply keeps_bprBlockEnd) | (with_reducible apply keeps_loseLock)
    | (with_reducible apply keeps_bump) | (with_reducible apply keeps_setPort) | (with_reducible apply keeps_bprTake)
    | (with_reducible apply keeps_portStop) | simp only [↓keeps_mk] | (with_reducible apply keeps_ite))

theorem keeps_setEp {q : Fix} {r : State} {x1 : Nat} {x2 : AEp} {s : State} (h : Keeps q r s) : Keeps q r (setEp x1 x2 s) := by
  unfold setEp
  try dsimp only
  repeat' (first
    | (with_reducible assumption) | simp only [↓keeps_mk])

theorem keeps_epctlEffect {q : Fix} {r : State} {x1 x2 x3 : Nat} {s : State} (h : Keeps q r s) : Keeps q r (epctlEffect x1 x2 x3 s) := by
  unfold epctlEffect
  try dsimp only
  repeat' (first
    | (with_reducible assumption) | (with_reducible apply keeps_setBlocked) | (with_reducible apply keeps_setEp))

theorem keeps_talkerPdu {q : Fix} {r : State} {x1 : Nat} {s : State} (h : Keeps q r s) : Keeps q r (talkerPdu x1 s) := by
  unfold talkerPdu
  try dsimp only
  repeat' (first
    | (with_reducible assumption) | intro _ | (with_reducible apply keeps_submitAt) | (with_reducible apply keeps_bump) | (with_reducible apply keeps_setEp)
    | simp only [↓keeps_mk] | (with_reducible refine keeps_of_eq (by with_reducible assumption) ?_) | (with_reducible apply keeps_ite))

theorem keeps_listenerTake {q : Fix} {r : State} {x1 : Nat} {s : State} (h : Keeps q r s) : Keeps q r (listenerTake x1 s) := by
  unfold listenerTake
  try dsimp only
  repeat' (first
    | (with_reducible assumption) | intro _ | (with_reducible refine keeps_takeHead' (by with_reducible assumption) ?_) | (with_reducible apply keeps_setEp)
    | (with_reducible apply keeps_bump) | simp only [↓keeps_mk] | (with_reducible refine keeps_of_eq (by with_reducible assumption) ?_)
    | (with_reducible apply keeps_ite) | (with_reducible apply keeps_ite1) | split)

theorem keeps_presentFrames {q : Fix} {r s : State} (h : Keeps q r s) : Keeps q r (presentFrames s) := by
  unfold presentFrames
  try dsimp only
  repeat' (first
    | (with_reducible assumption) | intro _ | (with_reducible apply keeps_setEp) | simp only [↓keeps_mk] | (with_reducible apply keeps_foldl)
    | (with_reducible apply keeps_foldP) | (with_reducible refine keeps_of_eq (by with_reducible assumption) ?_) | (with_reducible apply keeps_ite))

theorem keeps_listenerUnder {q : Fix} {r : State} {x1 : Nat} {s : State} (h : Keeps q r s) : Keeps q r (listenerUnder x1 s) := by
  unfold listenerUnder
  try dsimp only
  repeat' (first
    | (with_reducible assumption) | (with_reducible apply keeps_setEp) | (with_reducible apply keeps_bump) | simp only [↓keeps_mk]
    | (with_reducible refine keeps_of_eq (by with_reducible assumption) ?_) | (with_reducible apply keeps_ite) | split)

theorem keeps_setGain {q : Fix} {r : State} {x1 x2 : Nat} {s : State} (h : Keeps q r s) : Keeps q r (setGain x1 x2 s) := by
  unfold setGain
  try dsimp only
  repeat' (first
    | (with_reducible assumption) | simp only [↓keeps_mk])

theorem keeps_setWord {q : Fix} {r : State} {x1 : Nat} {x2 : Int} {s : State} (h : Keeps q r s) : Keeps q r (setWord x1 x2 s) := by
  unfold setWord
  try dsimp only
  repeat' (first
    | (with_reducible assumption) | simp only [↓keeps_mk])

theorem keeps_inputWords {q : Fix} {r : State} {x1 : List Int} {s : State} (h : Keeps q r s) : Keeps q r (inputWords x1 s) := by
  unfold inputWords
  try dsimp only
  repeat' (first
    | (with_reducible assumption) | intro _ | (with_reducible apply keeps_setWord) | simp only [↓keeps_mk] | (with_reducible apply keeps_foldl))

theorem keeps_inboundStep {q : Fix} {r : State} {x1 : Nat} {s : State} (h : Keeps q r s) : Keeps q r (inboundStep x1 s) := by
  unfold inboundStep
  try dsimp only
  repeat' (first
    | (with_reducible assumption) | intro _ | (with_reducible apply keeps_setWord) | (with_reducible apply keeps_bump) | simp only [↓keeps_mk]
    | (with_reducible apply keeps_foldl) | (with_reducible apply keeps_foldP) | (with_reducible refine keeps_of_eq (by with_reducible assumption) ?_)
    | (with_reducible apply keeps_ite))

theorem keeps_putTx {q : Fix} {r : State} {x1 x2 x3 : Nat} {x4 : Int} {s : State} (h : Keeps q r s) : Keeps q r (putTx x1 x2 x3 x4 s) := by
  unfold putTx
  try dsimp only
  repeat' (first
    | (with_reducible assumption) | (with_reducible apply keeps_setPort))

theorem keeps_outboundFrame {q : Fix} {r : State} {x1 x2 : Nat} {s : State} (h : Keeps q r s) : Keeps q r (outboundFrame x1 x2 s) := by
  unfold outboundFrame
  try dsimp only
  repeat' (first
    | (with_reducible assumption) | intro _ | (with_reducible apply keeps_setWord) | (with_reducible apply keeps_putTx) | (with_reducible apply keeps_bump)
    | simp only [↓keeps_mk] | (with_reducible apply keeps_foldl) | (with_reducible apply keeps_foldP)
    | (with_reducible refine keeps_of_eq (by with_reducible assumption) ?_) | (with_reducible apply keeps_ite) | (with_reducible apply keeps_ite1) | split)

theorem keeps_bqRun {q : Fix} {r : State} {x1 : Nat} {x2 : List Nat} {s : State} {x4 : Int} (h : Keeps q r s) : Keeps q r (bqRun x1 x2 s x4).1 := by
  unfold bqRun
  try dsimp only
  repeat' (first
    | (with_reducible assumption) | intro _ | simp only [↓keeps_mk] | (with_reducible apply keeps_foldl) | (with_reducible apply keeps_foldP))

theorem keeps_bqCommit {q : Fix} {r : State} {x1 : Nat} {s : State} (h : Keeps q r s) : Keeps q r (bqCommit x1 s) := by
  unfold bqCommit
  try dsimp only
  repeat' (first
    | (with_reducible assumption) | simp only [↓keeps_mk])

theorem keeps_bqHold {q : Fix} {r : State} {x1 x2 x3 : Nat} {s : State} (h : Keeps q r s) : Keeps q r (bqHold x1 x2 x3 s) := by
  unfold bqHold
  try dsimp only
  repeat' (first
    | (with_reducible assumption) | simp only [↓keeps_mk] | (with_reducible refine keeps_of_eq (by with_reducible assumption) ?_) | split)

theorem keeps_setOut {q : Fix} {r : State} {x1 : Nat} {x2 : AOut} {s : State} (h : Keeps q r s) : Keeps q r (setOut x1 x2 s) := by
  unfold setOut
  try dsimp only
  repeat' (first
    | (with_reducible assumption) | simp only [↓keeps_mk] | (with_reducible apply keeps_ite))

theorem keeps_outStart {q : Fix} {r : State} {x1 : Nat} {s : State} (h : Keeps q r s) : Keeps q r (outStart x1 s) := by
  unfold outStart
  try dsimp only
  repeat' (first
    | (with_reducible assumption) | (with_reducible apply keeps_askLeave) | (with_reducible apply keeps_setOut) | simp only [↓keeps_mk]
    | (with_reducible apply keeps_ite))

theorem keeps_spkGranted {q : Fix} {r s : State} (h : Keeps q r s) : Keeps q r (spkGranted s) := by
  unfold spkGranted
  try dsimp only
  repeat' (first
    | (with_reducible assumption) | (with_reducible apply keeps_setOut) | (with_reducible apply keeps_giveLeave) | simp only [↓keeps_mk]
    | (with_reducible apply keeps_ite))

theorem keeps_spkRefused {q : Fix} {r s : State} (h : Keeps q r s) : Keeps q r (spkRefused s) := by
  unfold spkRefused
  try dsimp only
  repeat' (first
    | (with_reducible assumption) | (with_reducible apply keeps_setField) | (with_reducible apply keeps_setOut) | simp only [↓keeps_mk]
    | (with_reducible apply keeps_ite))

theorem keeps_outDischarge {q : Fix} {r : State} {x1 : Nat} {s : State} (h : Keeps q r s) : Keeps q r (outDischarge x1 s) := by
  unfold outDischarge
  try dsimp only
  repeat' (first
    | (with_reducible assumption) | (with_reducible apply keeps_setOut))

theorem keeps_outWrite {q : Fix} {r : State} {x1 : Nat} {x2 x3 : Bool} {s : State} (h : Keeps q r s) : Keeps q r (outWrite x1 x2 x3 s) := by
  unfold outWrite
  try dsimp only
  repeat' (first
    | (with_reducible assumption) | (with_reducible apply keeps_outStart) | (with_reducible apply keeps_setOut) | (with_reducible apply keeps_outDischarge)
    | (with_reducible apply keeps_dropLeave) | (with_reducible apply keeps_giveLeave) | simp only [↓keeps_mk] | (with_reducible apply keeps_ite))

theorem keeps_outPrecharged {q : Fix} {r : State} {x1 : Nat} {s : State} (h : Keeps q r s) : Keeps q r (outPrecharged x1 s) := by
  unfold outPrecharged
  try dsimp only
  repeat' (first
    | (with_reducible assumption) | (with_reducible apply keeps_setOut) | simp only [↓keeps_mk] | (with_reducible apply keeps_ite))

theorem keeps_outRamped {q : Fix} {r : State} {x1 : Nat} {s : State} (h : Keeps q r s) : Keeps q r (outRamped x1 s) := by
  unfold outRamped
  try dsimp only
  repeat' (first
    | (with_reducible assumption) | (with_reducible apply keeps_outDischarge) | simp only [↓keeps_mk] | (with_reducible apply keeps_ite))

theorem keeps_outDischarged {q : Fix} {r : State} {x1 : Nat} {s : State} (h : Keeps q r s) : Keeps q r (outDischarged x1 s) := by
  unfold outDischarged
  try dsimp only
  repeat' (first
    | (with_reducible assumption) | (with_reducible apply keeps_setOut) | (with_reducible apply keeps_giveLeave) | (with_reducible apply keeps_outStart)
    | simp only [↓keeps_mk] | (with_reducible apply keeps_ite))

theorem keeps_calServe {q : Fix} {r : State} {x1 : ACal} {s : State} (h : Keeps q r s) : Keeps q r (calServe x1 s) := by
  unfold calServe
  try dsimp only
  repeat' (first
    | (with_reducible assumption) | (with_reducible apply keeps_askLeave) | simp only [↓keeps_mk])

theorem keeps_calRamp {q : Fix} {r : State} {x1 : Nat} {x2 : Bool} {s : State} (h : Keeps q r s) : Keeps q r (calRamp x1 x2 s) := by
  unfold calRamp
  try dsimp only
  repeat' (first
    | (with_reducible assumption) | intro _ | (with_reducible apply keeps_setOut) | (with_reducible apply keeps_setGain) | simp only [↓keeps_mk]
    | (with_reducible apply keeps_foldl) | (with_reducible apply keeps_foldP) | (with_reducible refine keeps_of_eq (by with_reducible assumption) ?_)
    | (with_reducible apply keeps_ite) | (with_reducible apply keeps_ite1) | split)

theorem keeps_audCalRequest {q : Fix} {r : State} {x1 : Nat} {x2 : Bool} {s : State} (h : Keeps q r s) : Keeps q r (audCalRequest x1 x2 s) := by
  unfold audCalRequest
  try dsimp only
  repeat' (first
    | (with_reducible assumption) | (with_reducible apply keeps_calServe) | (with_reducible apply keeps_calRamp) | simp only [↓keeps_mk]
    | (with_reducible refine keeps_of_eq (by with_reducible assumption) ?_) | (with_reducible apply keeps_ite))

theorem keeps_calHeld {q : Fix} {r s : State} (h : Keeps q r s) : Keeps q r (calHeld s) := by
  unfold calHeld
  try dsimp only
  repeat' (first
    | (with_reducible assumption) | (with_reducible apply keeps_calServe) | simp only [↓keeps_mk]
    | (with_reducible refine keeps_of_eq (by with_reducible assumption) ?_) | (with_reducible apply keeps_ite) | split)

theorem keeps_audCalGranted {q : Fix} {r s : State} (h : Keeps q r s) : Keeps q r (audCalGranted s) := by
  unfold audCalGranted
  try dsimp only
  repeat' (first
    | (with_reducible assumption) | simp only [↓keeps_mk] | (with_reducible refine keeps_of_eq (by with_reducible assumption) ?_)
    | (with_reducible apply keeps_ite) | split)

theorem keeps_audCalEnd {q : Fix} {r : State} {x1 : Nat} {s : State} (h : Keeps q r s) : Keeps q r (audCalEnd x1 s) := by
  unfold audCalEnd
  try dsimp only
  repeat' (first
    | (with_reducible assumption) | (with_reducible apply keeps_calRamp) | simp only [↓keeps_mk]
    | (with_reducible refine keeps_of_eq (by with_reducible assumption) ?_) | (with_reducible apply keeps_ite) | split)

theorem keeps_audCalDone {q : Fix} {r s : State} (h : Keeps q r s) : Keeps q r (audCalDone s) := by
  unfold audCalDone
  try dsimp only
  repeat' (first
    | (with_reducible assumption) | (with_reducible apply keeps_audCalEnd) | (with_reducible apply keeps_giveLeave) | simp only [↓keeps_mk]
    | (with_reducible refine keeps_of_eq (by with_reducible assumption) ?_) | (with_reducible apply keeps_ite) | split)

theorem keeps_outFault {q : Fix} {r : State} {x1 : Nat} {x2 : Bool} {s : State} (h : Keeps q r s) : Keeps q r (outFault x1 x2 s) := by
  unfold outFault
  try dsimp only
  repeat' (first
    | (with_reducible assumption) | (with_reducible apply keeps_dropLeave) | (with_reducible apply keeps_raise) | (with_reducible apply keeps_setOut)
    | (with_reducible apply keeps_giveLeave) | simp only [↓keeps_mk] | (with_reducible refine keeps_of_eq (by with_reducible assumption) ?_)
    | (with_reducible apply keeps_ite) | split)

theorem keeps_causeCleared {q : Fix} {r : State} {x1 : Nat} {x2 : Bool} {s : State} (h : Keeps q r s) : Keeps q r (causeCleared x1 x2 s) := by
  unfold causeCleared
  try dsimp only
  repeat' (first
    | (with_reducible assumption) | (with_reducible apply keeps_setOut) | (with_reducible apply keeps_giveLeave) | simp only [↓keeps_mk]
    | (with_reducible apply keeps_ite))

theorem keeps_limiterBlock {q : Fix} {r s : State} (h : Keeps q r s) : Keeps q r (limiterBlock s) := by
  unfold limiterBlock
  try dsimp only
  repeat' (first
    | (with_reducible assumption) | (with_reducible apply keeps_raise) | simp only [↓keeps_mk] | (with_reducible apply keeps_ite))

theorem keeps_bandClose {q : Fix} {r : State} {x1 : Nat} {s : State} (h : Keeps q r s) : Keeps q r (bandClose x1 s) := by
  unfold bandClose
  try dsimp only
  repeat' (first
    | (with_reducible assumption) | simp only [↓keeps_mk] | (with_reducible apply keeps_ite))

theorem keeps_bandEffect {q : Fix} {r : State} {x1 : Nat} {x2 x3 : Bool} {s : State} (h : Keeps q r s) : Keeps q r (bandEffect x1 x2 x3 s) := by
  unfold bandEffect
  try dsimp only
  repeat' (first
    | (with_reducible assumption) | simp only [↓keeps_mk] | (with_reducible apply keeps_ite))

theorem keeps_bandSample {q : Fix} {r : State} {x1 x2 : Nat} {s : State} (h : Keeps q r s) : Keeps q r (bandSample x1 x2 s) := by
  unfold bandSample
  try dsimp only
  repeat' (first
    | (with_reducible assumption) | intro _ | (with_reducible apply keeps_bandClose) | (with_reducible apply keeps_bqRun) | simp only [↓keeps_mk]
    | (with_reducible apply keeps_foldl) | (with_reducible apply keeps_foldP) | (with_reducible refine keeps_of_eq (by with_reducible assumption) ?_)
    | (with_reducible apply keeps_ite))

theorem keeps_mixStep {q : Fix} {r : State} {x1 : Nat} {s : State} (h : Keeps q r s) : Keeps q r (mixStep x1 s) := by
  unfold mixStep
  try dsimp only
  repeat' (first
    | (with_reducible assumption) | intro _ | (with_reducible apply keeps_setWord) | simp only [↓keeps_mk] | (with_reducible apply keeps_foldl))

theorem keeps_chainStep {q : Fix} {r : State} {x1 : Nat} {s : State} (h : Keeps q r s) : Keeps q r (chainStep x1 s) := by
  unfold chainStep
  try dsimp only
  repeat' (first
    | (with_reducible assumption) | intro _ | (with_reducible apply keeps_bqRun) | (with_reducible apply keeps_setWord) | simp only [↓keeps_mk]
    | (with_reducible apply keeps_foldl))

theorem keeps_outStep {q : Fix} {r : State} {x1 x2 : Nat} {s : State} (h : Keeps q r s) : Keeps q r (outStep x1 x2 s) := by
  unfold outStep
  try dsimp only
  repeat' (first
    | (with_reducible assumption) | (with_reducible apply keeps_setOut) | simp only [↓keeps_mk]
    | (with_reducible refine keeps_of_eq (by with_reducible assumption) ?_) | (with_reducible apply keeps_ite))

theorem keeps_keepWord {q : Fix} {r : State} {x1 x2 : Nat} {x3 : Int} {s : State} (h : Keeps q r s) : Keeps q r (keepWord x1 x2 x3 s) := by
  unfold keepWord
  try dsimp only
  repeat' (first
    | (with_reducible assumption) | simp only [↓keeps_mk])

theorem keeps_sinkStep {q : Fix} {r : State} {x1 : Nat} {s : State} (h : Keeps q r s) : Keeps q r (sinkStep x1 s) := by
  unfold sinkStep
  try dsimp only
  repeat' (first
    | (with_reducible assumption) | intro _ | (with_reducible apply keeps_keepWord) | (with_reducible apply keeps_putTx) | simp only [↓keeps_mk]
    | (with_reducible apply keeps_foldl) | (with_reducible apply keeps_foldP) | (with_reducible refine keeps_of_eq (by with_reducible assumption) ?_)
    | (with_reducible apply keeps_ite) | (with_reducible apply keeps_ite1) | split)

theorem keeps_quietStep {q : Fix} {r : State} {x1 : Nat} {s : State} (h : Keeps q r s) : Keeps q r (quietStep x1 s) := by
  unfold quietStep
  try dsimp only
  repeat' (first
    | (with_reducible assumption) | intro _ | simp only [↓keeps_mk] | (with_reducible apply keeps_foldl) | (with_reducible apply keeps_foldP)
    | (with_reducible refine keeps_of_eq (by with_reducible assumption) ?_) | (with_reducible apply keeps_ite))

theorem keeps_graphSample {q : Fix} {r : State} {x1 : List Int} {s : State} (h : Keeps q r s) : Keeps q r (graphSample x1 s) := by
  unfold graphSample
  try dsimp only
  repeat' (first
    | (with_reducible assumption) | intro _ | (with_reducible apply keeps_limiterBlock) | (with_reducible apply keeps_inboundStep)
    | (with_reducible apply keeps_inputWords) | (with_reducible apply keeps_chainStep) | (with_reducible apply keeps_mixStep)
    | (with_reducible apply keeps_outStep) | (with_reducible apply keeps_sinkStep) | (with_reducible apply keeps_bandSample)
    | (with_reducible apply keeps_quietStep) | simp only [↓keeps_mk] | (with_reducible apply keeps_foldl))

theorem keeps_talkStep {q : Fix} {r s : State} (h : Keeps q r s) : Keeps q r (talkStep s) := by
  unfold talkStep
  try dsimp only
  repeat' (first
    | (with_reducible assumption) | intro _ | (with_reducible apply keeps_setEp) | simp only [↓keeps_mk] | (with_reducible apply keeps_foldl)
    | (with_reducible apply keeps_foldP) | (with_reducible refine keeps_of_eq (by with_reducible assumption) ?_) | (with_reducible apply keeps_ite))

theorem keeps_latchStep {q : Fix} {r s : State} (h : Keeps q r s) : Keeps q r (latchStep s) := by
  unfold latchStep
  try dsimp only
  repeat' (first
    | (with_reducible assumption) | intro _ | (with_reducible apply keeps_tdmLatch) | (with_reducible apply keeps_outboundFrame) | simp only [↓keeps_mk]
    | (with_reducible apply keeps_foldl) | (with_reducible apply keeps_foldP) | (with_reducible refine keeps_of_eq (by with_reducible assumption) ?_)
    | (with_reducible apply keeps_ite))

theorem keeps_audioTick {q : Fix} {r : State} {x1 : List Int} {s : State} (h : Keeps q r s) : Keeps q r (audioTick x1 s) := by
  unfold audioTick
  try dsimp only
  repeat' (first
    | (with_reducible assumption) | (with_reducible apply keeps_presentFrames) | (with_reducible apply keeps_graphSample)
    | (with_reducible apply keeps_latchStep) | (with_reducible apply keeps_talkStep) | simp only [↓keeps_mk] | (with_reducible apply keeps_ite))

theorem keeps_inputEffect {q : Fix} {r : State} {x1 : Nat} {x2 x3 : Bool} {s : State} (h : Keeps q r s) : Keeps q r (inputEffect x1 x2 x3 s) := by
  unfold inputEffect
  try dsimp only
  repeat' (first
    | (with_reducible assumption) | simp only [↓keeps_mk] | (with_reducible apply keeps_ite))

theorem keeps_inputSettled {q : Fix} {r : State} {x1 : Nat} {s : State} (h : Keeps q r s) : Keeps q r (inputSettled x1 s) := by
  unfold inputSettled
  try dsimp only
  repeat' (first
    | (with_reducible assumption) | simp only [↓keeps_mk] | (with_reducible refine keeps_of_eq (by with_reducible assumption) ?_)
    | (with_reducible apply keeps_ite) | split)

theorem keeps_detectStart {q : Fix} {r : State} {x1 : Nat} {s : State} (h : Keeps q r s) : Keeps q r (detectStart x1 s) := by
  unfold detectStart
  try dsimp only
  repeat' (first
    | (with_reducible assumption) | simp only [↓keeps_mk] | (with_reducible apply keeps_ite))

theorem keeps_detectDone {q : Fix} {r : State} {x1 x2 x3 : Nat} {s : State} (h : Keeps q r s) : Keeps q r (detectDone x1 x2 x3 s) := by
  unfold detectDone
  try dsimp only
  repeat' (first
    | (with_reducible assumption) | (with_reducible apply keeps_raise) | simp only [↓keeps_mk]
    | (with_reducible refine keeps_of_eq (by with_reducible assumption) ?_) | (with_reducible apply keeps_ite) | split)

theorem keeps_micSample {q : Fix} {r : State} {x1 x2 : Nat} {s : State} (h : Keeps q r s) : Keeps q r (micSample x1 x2 s) := by
  unfold micSample
  try dsimp only
  repeat' (first
    | (with_reducible assumption) | (with_reducible apply keeps_raise) | simp only [↓keeps_mk]
    | (with_reducible refine keeps_of_eq (by with_reducible assumption) ?_) | (with_reducible apply keeps_ite))

theorem keeps_audioStart {q : Fix} {r s : State} (h : Keeps q r s) : Keeps q r (audioStart s) := by
  unfold audioStart
  try dsimp only
  repeat' (first
    | (with_reducible assumption) | intro _ | (with_reducible apply keeps_setPort) | (with_reducible apply keeps_portEnable)
    | (with_reducible apply keeps_epctlEffect) | (with_reducible apply keeps_inputEffect) | (with_reducible apply keeps_outStart)
    | (with_reducible apply keeps_bandEffect) | simp only [↓keeps_mk] | (with_reducible apply keeps_foldl) | (with_reducible apply keeps_foldP)
    | (with_reducible refine keeps_of_eq (by with_reducible assumption) ?_) | (with_reducible apply keeps_ite))

theorem keeps_newChallenge {q : Fix} {r s : State} (h : Keeps q r s) : Keeps q r (newChallenge s) := by
  unfold newChallenge
  try dsimp only
  repeat' (first
    | (with_reducible assumption) | (with_reducible apply keeps_drbgDraw) | simp only [↓keeps_mk]
    | (with_reducible refine keeps_of_eq (by with_reducible assumption) ?_) | (with_reducible apply keeps_ite))

theorem keeps_endSession {q : Fix} {r s : State} (h : Keeps q r s) : Keeps q r (endSession s) := by
  unfold endSession
  try dsimp only
  repeat' (first
    | (with_reducible assumption) | (with_reducible apply keeps_newChallenge) | simp only [↓keeps_mk] | (with_reducible apply keeps_ite))

theorem keeps_dropFieldDebug {q : Fix} {r s : State} (h : Keeps q r s) : Keeps q r (dropFieldDebug s) := by
  unfold dropFieldDebug
  try dsimp only
  repeat' (first
    | (with_reducible assumption) | simp only [↓keeps_mk])

theorem keeps_counterChanged {q : Fix} {r : State} {x1 : Nat} {s : State} (h : Keeps q r s) : Keeps q r (counterChanged x1 s) := by
  unfold counterChanged
  try dsimp only
  repeat' (first
    | (with_reducible assumption) | (with_reducible apply keeps_endSession) | simp only [↓keeps_mk])

theorem keeps_tokenEnd {q : Fix} {r : State} {x1 : Nat} {s : State} (h : Keeps q r s) : Keeps q r (tokenEnd x1 s) := by
  unfold tokenEnd
  try dsimp only
  repeat' (first
    | (with_reducible assumption) | (with_reducible apply keeps_newChallenge) | (with_reducible apply keeps_bump) | simp only [↓keeps_mk]
    | (with_reducible refine keeps_of_eq (by with_reducible assumption) ?_) | (with_reducible apply keeps_ite) | split)

theorem keeps_tokenUpdate {q : Fix} {r : State} {x1 : Bytes} {s : State} (h : Keeps q r s) : Keeps q r (tokenUpdate x1 s) := by
  unfold tokenUpdate
  try dsimp only
  repeat' (first
    | (with_reducible assumption) | (with_reducible apply keeps_endSession) | (with_reducible apply keeps_placeJob) | simp only [↓keeps_mk]
    | (with_reducible apply keeps_ite))

theorem keeps_tokenComplete {q : Fix} {r s : State} (h : Keeps q r s) : Keeps q r (tokenComplete s) := by
  unfold tokenComplete
  try dsimp only
  repeat' (first
    | (with_reducible assumption) | (with_reducible apply keeps_tokenEnd) | (with_reducible apply keeps_endJob) | simp only [↓keeps_mk]
    | (with_reducible refine keeps_of_eq (by with_reducible assumption) ?_) | (with_reducible apply keeps_ite) | (with_reducible apply keeps_ite1) | split)

theorem keeps_tokenAbort {q : Fix} {r : State} {x1 : Nat} {s : State} (h : Keeps q r s) : Keeps q r (tokenAbort x1 s) := by
  unfold tokenAbort
  try dsimp only
  repeat' (first
    | (with_reducible assumption) | (with_reducible apply keeps_tokenEnd) | (with_reducible apply keeps_endJob) | simp only [↓keeps_mk]
    | (with_reducible refine keeps_of_eq (by with_reducible assumption) ?_) | split)

theorem keeps_blockEnds {q : Fix} {r s : State} (h : Keeps q r s) : Keeps q r (blockEnds s) := by
  unfold blockEnds
  try dsimp only
  repeat' (first
    | (with_reducible assumption) | simp only [↓keeps_mk] | (with_reducible refine keeps_of_eq (by with_reducible assumption) ?_)
    | (with_reducible apply keeps_ite) | split)

theorem keeps_sessionExpire {q : Fix} {r s : State} (h : Keeps q r s) : Keeps q r (sessionExpire s) := by
  unfold sessionExpire
  try dsimp only
  repeat' (first
    | (with_reducible assumption) | (with_reducible apply keeps_endSession) | simp only [↓keeps_mk] | (with_reducible apply keeps_ite))

theorem keeps_tapExtest {q : Fix} {r s : State} {x1 : Bytes} (h : Keeps q r s) : Keeps q r (tapExtest x1 s) := by
  unfold tapExtest
  exact keeps_ite (keeps_modePins (holds_upd h.holds rfl rfl rfl rfl)) (keeps_upd h rfl rfl rfl rfl rfl rfl rfl rfl rfl)

theorem keeps_tapLeave {q : Fix} {r s : State} {x1 : Nat} (h : Keeps q r s) : Keeps q r (tapLeave x1 s) := by
  unfold tapLeave
  split
  · rename_i he
    refine keeps_upd (keeps_dropFieldDebug ?_) rfl rfl rfl rfl rfl rfl rfl rfl rfl
    unfold hostReset
    split
    · rename_i c hc
      refine ⟨holds_upd h.holds rfl rfl rfl rfl, fun hr => ?_⟩
      have p := h.pins hr
      have hc' : s.sys.inReset = some c := hc
      unfold pinsShow at p ⊢
      simp only [hc', he, Option.isSome_some, reduceCtorEq, false_and, and_false, Bool.true_or] at p ⊢
      exact p
    · exact keeps_modePins (holds_upd (holds_reinitHost (holds_upd h.holds rfl rfl rfl rfl)) rfl rfl rfl rfl)
  · exact keeps_ite (keeps_upd h rfl rfl rfl rfl rfl rfl rfl rfl rfl) h

theorem keeps_tapLoad {q : Fix} {r : State} {x1 x2 : Nat} {s : State} (h : Keeps q r s) : Keeps q r (tapLoad x1 x2 s) := by
  unfold tapLoad
  try dsimp only
  repeat' (first
    | (with_reducible assumption) | (with_reducible apply keeps_tapLeave) | simp only [↓keeps_mk] | (with_reducible apply keeps_ite))

theorem keeps_setCmderr {q : Fix} {r : State} {x1 : Bool} {x2 : Nat} {s : State} (h : Keeps q r s) : Keeps q r (setCmderr x1 x2 s) := by
  unfold setCmderr
  try dsimp only
  repeat' (first
    | (with_reducible assumption) | simp only [↓keeps_mk] | (with_reducible apply keeps_ite))

theorem keeps_setSberror {q : Fix} {r : State} {x1 : Bool} {x2 : Nat} {s : State} (h : Keeps q r s) : Keeps q r (setSberror x1 x2 s) := by
  unfold setSberror
  try dsimp only
  repeat' (first
    | (with_reducible assumption) | simp only [↓keeps_mk] | (with_reducible apply keeps_ite))

theorem keeps_dmHalt {q : Fix} {r : State} {x1 : Bool} {s : State} (h : Keeps q r s) : Keeps q r (dmHalt x1 s) := by
  unfold dmHalt
  try dsimp only
  repeat' (first
    | (with_reducible assumption) | (with_reducible apply keeps_setCmderr) | simp only [↓keeps_mk] | (with_reducible apply keeps_ite))

theorem keeps_dmResume {q : Fix} {r : State} {x1 : Bool} {s : State} (h : Keeps q r s) : Keeps q r (dmResume x1 s) := by
  unfold dmResume
  try dsimp only
  repeat' (first
    | (with_reducible assumption) | (with_reducible apply keeps_setCmderr) | simp only [↓keeps_mk] | (with_reducible apply keeps_ite))

theorem keeps_hartStart {q : Fix} {r : State} {x1 : Bool} {s : State} (h : Keeps q r s) : Keeps q r (hartStart x1 s) := by
  unfold hartStart
  try dsimp only
  repeat' (first
    | (with_reducible assumption) | simp only [↓keeps_mk] | (with_reducible apply keeps_ite))

theorem keeps_dmNdmreset {q : Fix} {r : State} {x1 : Bool} {s : State} (h : Keeps q r s) : Keeps q r (dmNdmreset x1 s) := by
  unfold dmNdmreset
  try dsimp only
  repeat' (first
    | (with_reducible assumption) | (with_reducible apply keeps_setCmderr) | (with_reducible apply keeps_hartStart) | simp only [↓keeps_mk]
    | (with_reducible apply keeps_ite))

theorem keeps_retireOne {q : Fix} {r : State} {x1 : Bool} {s : State} (h : Keeps q r s) : Keeps q r (retireOne x1 s) := by
  unfold retireOne
  try dsimp only
  repeat' (first
    | (with_reducible assumption) | intro _ | simp only [↓keeps_mk] | (with_reducible refine keeps_of_eq (by with_reducible assumption) ?_)
    | (with_reducible apply keeps_ite))

theorem keeps_dmStep {q : Fix} {r : State} {x1 : Bool} {s : State} (h : Keeps q r s) : Keeps q r (dmStep x1 s) := by
  unfold dmStep
  try dsimp only
  repeat' (first
    | (with_reducible assumption) | (with_reducible apply keeps_setCmderr) | (with_reducible apply keeps_retireOne) | simp only [↓keeps_mk]
    | (with_reducible apply keeps_ite))

theorem keeps_popEffect {q : Fix} {r : State} {x1 : Nat} {s : State} (h : Keeps q r s) : Keeps q r (popEffect x1 s) := by
  unfold popEffect
  try dsimp only
  repeat' (first
    | (with_reducible assumption) | (with_reducible apply keeps_setReg) | (with_reducible apply keeps_setEth) | (with_reducible apply keeps_popBlock)
    | simp only [↓keeps_mk] | (with_reducible refine keeps_of_eq (by with_reducible assumption) ?_) | (with_reducible apply keeps_ite)
    | (with_reducible apply keeps_ite1) | split)

theorem keeps_clearRc {q : Fix} {r : State} {x1 : Bool} {x2 : RegDef} {x3 : Origin} {x4 : Nat} {s : State} (h : Keeps q r s) : Keeps q r (clearRc x1 x2 x3 x4 s) := by
  unfold clearRc
  try dsimp only
  repeat' (first
    | (with_reducible assumption) | intro _ | (with_reducible apply keeps_setReg) | simp only [↓keeps_mk] | (with_reducible apply keeps_foldl)
    | (with_reducible apply keeps_foldP) | (with_reducible refine keeps_of_eq (by with_reducible assumption) ?_) | (with_reducible apply keeps_ite))

theorem keeps_readReg {q : Fix} {r : State} {x1 : Bool} {x2 : Origin} {x3 : Nat} {s : State} (h : Keeps q r s) : Keeps q r (readReg x1 x2 x3 s).1 := by
  unfold readReg
  try dsimp only
  repeat' (first
    | (with_reducible assumption) | (with_reducible apply keeps_clearRc) | (with_reducible apply keeps_popEffect) | simp only [↓keeps_mk]
    | (with_reducible refine keeps_of_eq (by with_reducible assumption) ?_) | split)

theorem keeps_readWords {q : Fix} {r : State} {x1 : Bool} {x2 : Origin} {x3 : List Nat} {s : State} (h : Keeps q r s) : Keeps q r (readWords x1 x2 x3 s).1 := by
  induction x3 generalizing x1 x2 s h with
  | nil =>
    unfold readWords
    try dsimp only
    repeat' (first
      | (with_reducible assumption))
  | cons p l ih =>
    unfold readWords
    try dsimp only
    repeat' (first
      | (with_reducible assumption) | intro _ | (with_reducible apply ih) | (with_reducible apply keeps_readReg))

theorem keeps_emitAt {q : Fix} {r : State} {x1 : Nat} {x2 x3 : Stamp} {x4 : Nat} {x5 : Bytes} {x6 : Bool} {s : State} (h : Keeps q r s) : Keeps q r (emitAt x1 x2 x3 x4 x5 x6 s) := by
  unfold emitAt
  try dsimp only
  repeat' (first
    | (with_reducible assumption) | (with_reducible apply keeps_submitAt))

theorem keeps_emitContainer {q : Fix} {r : State} {x1 : Nat} {x2 x3 : Stamp} {s : State} (h : Keeps q r s) : Keeps q r (emitContainer x1 x2 x3 s) := by
  unfold emitContainer
  try dsimp only
  repeat' (first
    | (with_reducible assumption) | (with_reducible apply keeps_emitAt) | simp only [↓keeps_mk]
    | (with_reducible refine keeps_of_eq (by with_reducible assumption) ?_) | (with_reducible apply keeps_ite) | split)

theorem keeps_applyUpdate {q : Fix} {r : State} {x1 : Bytes} {s : State} (h : Keeps q r s) : Keeps q r (applyUpdate x1 s).1 := by
  unfold applyUpdate
  try dsimp only
  repeat' (first
    | (with_reducible assumption) | simp only [↓keeps_mk] | (with_reducible refine keeps_of_eq (by with_reducible assumption) ?_)
    | (with_reducible apply keeps_ite) | (with_reducible apply keeps_ite1) | split)

theorem keeps_applyUpdates {q : Fix} {r : State} {x1 : Nat} {x2 : Bytes} {x3 : List Nat} {s : State} (h : Keeps q r s) : Keeps q r (applyUpdates x1 x2 x3 s).1 := by
  induction x1 generalizing x2 x3 s h with
  | zero =>
    unfold applyUpdates
    try dsimp only
    repeat' (first
      | (with_reducible assumption))
  | succ n ih =>
    unfold applyUpdates
    try dsimp only
    repeat' (first
      | (with_reducible assumption) | intro _ | (with_reducible apply ih) | (with_reducible apply keeps_applyUpdate) | simp only [↓keeps_mk]
      | (with_reducible refine keeps_of_eq (by with_reducible assumption) ?_) | (with_reducible apply keeps_ite) | (with_reducible apply keeps_ite1))

theorem keeps_containerInput {q : Fix} {r : State} {x1 : Frame} {s : State} (h : Keeps q r s) : Keeps q r (containerInput x1 s) := by
  unfold containerInput
  try dsimp only
  repeat' (first
    | (with_reducible assumption) | intro _ | (with_reducible apply keeps_applyUpdates) | (with_reducible apply keeps_emitContainer) | simp only [↓keeps_mk]
    | (with_reducible apply keeps_foldl))

theorem keeps_resetContainer {q : Fix} {r : State} {x1 : Nat} {s : State} (h : Keeps q r s) : Keeps q r (resetContainer x1 s) := by
  unfold resetContainer
  try dsimp only
  repeat' (first
    | (with_reducible assumption) | simp only [↓keeps_mk] | (with_reducible refine keeps_of_eq (by with_reducible assumption) ?_) | split)

theorem keeps_periodicEmit {q : Fix} {r : State} {x1 : Nat} {s : State} (h : Keeps q r s) : Keeps q r (periodicEmit x1 s) := by
  unfold periodicEmit
  try dsimp only
  repeat' (first
    | (with_reducible assumption) | intro _ | (with_reducible apply keeps_emitContainer) | simp only [↓keeps_mk] | (with_reducible apply keeps_foldl)
    | (with_reducible apply keeps_foldP) | (with_reducible refine keeps_of_eq (by with_reducible assumption) ?_) | (with_reducible apply keeps_ite)
    | (with_reducible apply keeps_ite1) | split)

theorem keeps_setTunnel {q : Fix} {r : State} {x1 : Nat} {x2 : Tunnel} {s : State} (h : Keeps q r s) : Keeps q r (setTunnel x1 x2 s) := by
  unfold setTunnel
  try dsimp only
  repeat' (first
    | (with_reducible assumption) | simp only [↓keeps_mk])

theorem keeps_emitTunnel {q : Fix} {r : State} {x1 : Nat} {x2 : Stamp} {s : State} (h : Keeps q r s) : Keeps q r (emitTunnel x1 x2 s) := by
  unfold emitTunnel
  try dsimp only
  repeat' (first
    | (with_reducible assumption) | (with_reducible apply keeps_takeFree) | (with_reducible apply keeps_setTunnel) | (with_reducible apply keeps_emitAt)
    | (with_reducible apply keeps_bump) | simp only [↓keeps_mk] | (with_reducible refine keeps_of_eq (by with_reducible assumption) ?_)
    | (with_reducible apply keeps_ite) | (with_reducible apply keeps_ite1) | split)

theorem keeps_encapInput {q : Fix} {r : State} {x1 : Nat} {x2 : Frame} {s : State} (h : Keeps q r s) : Keeps q r (encapInput x1 x2 s) := by
  unfold encapInput
  try dsimp only
  repeat' (first
    | (with_reducible assumption) | (with_reducible apply keeps_emitTunnel) | (with_reducible apply keeps_setTunnel) | simp only [↓keeps_mk]
    | (with_reducible refine keeps_of_eq (by with_reducible assumption) ?_) | (with_reducible apply keeps_ite) | split)

theorem keeps_timedEmit {q : Fix} {r : State} {x1 : Nat} {s : State} (h : Keeps q r s) : Keeps q r (timedEmit x1 s) := by
  unfold timedEmit
  try dsimp only
  repeat' (first
    | (with_reducible assumption) | (with_reducible apply keeps_emitTunnel) | simp only [↓keeps_mk]
    | (with_reducible refine keeps_of_eq (by with_reducible assumption) ?_) | (with_reducible apply keeps_ite) | split)

theorem keeps_decapMessage {q : Fix} {r : State} {x1 : Nat} {x2 : Frame} {x3 : Bytes} {s : State} (h : Keeps q r s) : Keeps q r (decapMessage x1 x2 x3 s) := by
  unfold decapMessage
  try dsimp only
  repeat' (first
    | (with_reducible assumption) | intro _ | (with_reducible apply keeps_countDrop) | (with_reducible apply keeps_emitAt)
    | (with_reducible apply keeps_takeFree) | (with_reducible apply keeps_bump) | simp only [↓keeps_mk]
    | (with_reducible refine keeps_of_eq (by with_reducible assumption) ?_) | (with_reducible apply keeps_ite))

theorem keeps_decapMessages {q : Fix} {r : State} {x1 : Nat} {x2 : Frame} {x3 : Nat} {x4 : Bytes} {s : State} (h : Keeps q r s) : Keeps q r (decapMessages x1 x2 x3 x4 s) := by
  induction x3 generalizing x1 x2 x4 s h with
  | zero =>
    unfold decapMessages
    try dsimp only
    repeat' (first
      | (with_reducible assumption))
  | succ n ih =>
    unfold decapMessages
    try dsimp only
    repeat' (first
      | (with_reducible assumption) | intro _ | (with_reducible apply ih) | (with_reducible apply keeps_countDrop) | (with_reducible apply keeps_decapMessage)
      | simp only [↓keeps_mk] | (with_reducible apply keeps_ite))

theorem keeps_decapInput {q : Fix} {r : State} {x1 : Nat} {x2 : Frame} {s : State} (h : Keeps q r s) : Keeps q r (decapInput x1 x2 s) := by
  unfold decapInput
  try dsimp only
  repeat' (first
    | (with_reducible assumption) | intro _ | (with_reducible apply keeps_countDrop) | (with_reducible apply keeps_bump)
    | (with_reducible apply keeps_setTunnel) | (with_reducible apply keeps_decapMessages) | simp only [↓keeps_mk]
    | (with_reducible refine keeps_of_eq (by with_reducible assumption) ?_) | (with_reducible apply keeps_ite) | (with_reducible apply keeps_ite1) | split)

theorem keeps_consumeNext {q : Fix} {r : State} {x1 : Nat} {s : State} (h : Keeps q r s) : Keeps q r (consumeNext x1 s) := by
  unfold consumeNext
  try dsimp only
  repeat' (first
    | (with_reducible assumption) | intro _ | (with_reducible apply keeps_setQueue) | (with_reducible apply keeps_emitAt)
    | (with_reducible apply keeps_containerInput) | (with_reducible apply keeps_encapInput) | (with_reducible apply keeps_decapInput)
    | simp only [↓keeps_mk] | (with_reducible refine keeps_of_eq (by with_reducible assumption) ?_) | (with_reducible apply keeps_ite)
    | (with_reducible apply keeps_ite1) | split)

theorem keeps_emitTraces {q : Fix} {r s : State} (h : Keeps q r s) : Keeps q r (emitTraces s) := by
  unfold emitTraces
  try dsimp only
  repeat' (first
    | (with_reducible assumption) | intro _ | (with_reducible apply keeps_submitAt) | (with_reducible apply keeps_bump) | simp only [↓keeps_mk]
    | (with_reducible apply keeps_foldl) | (with_reducible apply keeps_foldP) | (with_reducible refine keeps_of_eq (by with_reducible assumption) ?_)
    | (with_reducible apply keeps_ite))

theorem keeps_liveChanged {q : Fix} {r : State} {x1 x2 : Nat} {s : State} (h : Keeps q r s) : Keeps q r (liveChanged x1 x2 s) := by
  unfold liveChanged
  try dsimp only
  repeat' (first
    | (with_reducible assumption) | (with_reducible apply keeps_resetContainer) | (with_reducible apply keeps_setLin) | simp only [↓keeps_mk]
    | (with_reducible refine keeps_of_eq (by with_reducible assumption) ?_) | (with_reducible apply keeps_ite) | split)

theorem keeps_setStaging {q : Fix} {r : State} {x1 : Origin} {x2 : List Staged} {s : State} (h : Keeps q r s) : Keeps q r (setStaging x1 x2 s) := by
  unfold setStaging
  try dsimp only
  repeat' (first
    | (with_reducible assumption) | simp only [↓keeps_mk])

theorem keeps_ltApply {q : Fix} {r : State} {x1 : Origin} {x2 : Staged} {s : State} (h : Keeps q r s) : Keeps q r (ltApply x1 x2 s) := by
  unfold ltApply
  try dsimp only
  repeat' (first
    | (with_reducible assumption) | (with_reducible apply keeps_emitTunnel) | (with_reducible apply keeps_liveChanged) | simp only [↓keeps_mk]
    | (with_reducible refine keeps_of_eq (by with_reducible assumption) ?_) | (with_reducible apply keeps_ite) | split)

theorem keeps_ltEffect {q : Fix} {r : State} {x1 : Origin} {x2 : Nat} {s : State} (h : Keeps q r s) : Keeps q r (ltEffect x1 x2 s) := by
  unfold ltEffect
  try dsimp only
  repeat' (first
    | (with_reducible assumption) | intro _ | (with_reducible apply keeps_setStaging) | (with_reducible apply keeps_ltApply)
    | (with_reducible apply keeps_setReg) | (with_reducible apply keeps_setField) | simp only [↓keeps_mk] | (with_reducible apply keeps_foldl)
    | (with_reducible apply keeps_foldP) | (with_reducible refine keeps_of_eq (by with_reducible assumption) ?_) | split)

theorem keeps_setWindow {q : Fix} {r : State} {x1 : Bool} {x2 : Origin} {x3 : Nat} {s : State} (h : Keeps q r s) : Keeps q r (setWindow x1 x2 x3 s) := by
  unfold setWindow
  try dsimp only
  repeat' (first
    | (with_reducible assumption) | intro _ | simp only [↓keeps_mk] | (with_reducible refine keeps_of_eq (by with_reducible assumption) ?_)
    | (with_reducible apply keeps_ite))

theorem keeps_windowAfter {q : Fix} {r s : State} {x2 : Origin} {x3 x4 : Nat} {s5 : State} (h : Keeps q r s) (h5 : Keeps q r s5) : Keeps q r (windowAfter s x2 x3 x4 s5) := by
  unfold windowAfter
  try dsimp only
  repeat' (first
    | (with_reducible assumption) | (with_reducible apply keeps_setWindow) | simp only [↓keeps_mk]
    | (with_reducible refine keeps_of_eq (by with_reducible assumption) ?_) | (with_reducible apply keeps_ite) | split)

theorem keeps_flashStart {q : Fix} {r : State} {x1 : Nat} {s : State} (h : Keeps q r s) : Keeps q r (flashStart x1 s) := by
  unfold flashStart
  try dsimp only
  repeat' (first
    | (with_reducible assumption) | (with_reducible apply keeps_setField) | simp only [↓keeps_mk]
    | (with_reducible refine keeps_of_eq (by with_reducible assumption) ?_) | (with_reducible apply keeps_ite))

theorem keeps_flashDone {q : Fix} {r s : State} {x1 : Bool} (h : Keeps q r s) (hflash : ¬ q.flash) : Keeps q r (flashDone x1 s) := by
  unfold flashDone
  split
  · exact h
  · rename_i cmd a e
    have k : Keeps q r { s with h.port.flash := none } := keeps_upd h rfl rfl rfl rfl rfl rfl rfl rfl rfl
    have kf : ∀ fl : Flash, (Flash.wf s.flash = true → Flash.wf fl = true) → Keeps q r { s with h.port.flash := none, flash := fl } :=
      fun fl hw => ⟨⟨h.holds.pending, h.holds.fuses, h.holds.regs, fun hr => hw (h.holds.cells hr), fun e => absurd e hflash, h.holds.otp,
        h.holds.now, h.holds.permit, h.holds.key, h.holds.enter⟩, h.pins⟩
    refine keeps_ite (keeps_setField k) ?_
    split
    · exact keeps_foldl _ (fun t i ht => keeps_setReg ht) _ _ k
    · exact kf _ (fun hw => flash_program_wf _ _ _ hw)
    · exact kf _ (fun hw => flash_erase_wf _ _ _ hw)
    · exact kf _ (fun hw => flash_erase_wf _ _ _ hw)

theorem keeps_planeEffect {q : Fix} {r : State} {x1 : Nat} {x2 x3 : Bool} {s : State} (h : Keeps q r s) : Keeps q r (planeEffect x1 x2 x3 s) := by
  unfold planeEffect
  try dsimp only
  repeat' (first
    | (with_reducible assumption) | intro _ | (with_reducible apply keeps_askLeave) | (with_reducible apply keeps_giveLeave)
    | (with_reducible apply keeps_dropLeave) | simp only [↓keeps_mk] | (with_reducible refine keeps_of_eq (by with_reducible assumption) ?_)
    | (with_reducible apply keeps_ite))

theorem keeps_gbaseEffect {q : Fix} {r : State} {x1 x2 : Nat} {s : State} (h : Keeps q r s) : Keeps q r (gbaseEffect x1 x2 s) := by
  unfold gbaseEffect
  try dsimp only
  repeat' (first
    | (with_reducible assumption) | (with_reducible apply keeps_setReg) | simp only [↓keeps_mk] | (with_reducible apply keeps_ite))

theorem keeps_injectFault {q : Fix} {r : State} {x1 x2 : Nat} {s : State} (h : Keeps q r s) : Keeps q r (injectFault x1 x2 s) := by
  unfold injectFault
  try dsimp only
  repeat' (first
    | (with_reducible assumption) | simp only [↓keeps_mk] | (with_reducible apply keeps_ite))

theorem keeps_shedRequest {q : Fix} {r : State} {x1 x2 : Nat} {s : State} (h : Keeps q r s) : Keeps q r (shedRequest x1 x2 s) := by
  unfold shedRequest
  try dsimp only
  repeat' (first
    | (with_reducible assumption) | (with_reducible apply keeps_setRep))

theorem keeps_mdioStart {q : Fix} {r : State} {x1 : Nat} {s : State} (h : Keeps q r s) : Keeps q r (mdioStart x1 s) := by
  unfold mdioStart
  try dsimp only
  repeat' (first
    | (with_reducible assumption) | (with_reducible apply keeps_setField) | simp only [↓keeps_mk] | (with_reducible apply keeps_ite))

theorem keeps_mdioDone {q : Fix} {r : State} {x1 : Nat} {s : State} (h : Keeps q r s) : Keeps q r (mdioDone x1 s) := by
  unfold mdioDone
  try dsimp only
  repeat' (first
    | (with_reducible assumption) | (with_reducible apply keeps_setField) | simp only [↓keeps_mk]
    | (with_reducible refine keeps_of_eq (by with_reducible assumption) ?_) | (with_reducible apply keeps_ite) | split)

theorem keeps_saPnEffect {q : Fix} {r : State} {x1 x2 : Nat} {s : State} (h : Keeps q r s) : Keeps q r (saPnEffect x1 x2 s) := by
  unfold saPnEffect
  try dsimp only
  repeat' (first
    | (with_reducible assumption) | (with_reducible apply keeps_setReg) | simp only [↓keeps_mk] | (with_reducible apply keeps_ite))

theorem keeps_fsSend {q : Fix} {r : State} {x1 : Nat} {s : State} (h : Keeps q r s) : Keeps q r (fsSend x1 s) := by
  unfold fsSend
  try dsimp only
  repeat' (first
    | (with_reducible assumption) | (with_reducible apply keeps_setField) | (with_reducible apply keeps_fieldSend) | simp only [↓keeps_mk]
    | (with_reducible refine keeps_of_eq (by with_reducible assumption) ?_) | (with_reducible apply keeps_ite) | split)

theorem keeps_permitWrite {q : Fix} {r : State} {x1 : Bool} {s : State} (h : Keeps q r s) : Keeps q r (permitWrite x1 s) := by
  unfold permitWrite
  try dsimp only
  repeat' (first
    | (with_reducible assumption) | (with_reducible apply keeps_permitUpdate) | (with_reducible apply keeps_withdraw) | simp only [↓keeps_mk]
    | (with_reducible apply keeps_ite))

theorem keeps_effectLow {q : Fix} {r : State} {x1 : Origin} {x2 x3 : Nat} {s : State} (h : Keeps q r s) : Keeps q r (effectLow x1 x2 x3 s) := by
  unfold effectLow
  try dsimp only
  repeat' (first
    | (with_reducible assumption) | intro _ | (with_reducible apply keeps_endSession) | (with_reducible apply keeps_enterStandby)
    | (with_reducible apply keeps_setField) | (with_reducible apply keeps_flashStart) | (with_reducible apply keeps_clearLatch)
    | (with_reducible apply keeps_injectFault) | (with_reducible apply keeps_shedRequest) | (with_reducible apply keeps_returnStart) | simp only [↓keeps_mk]
    | (with_reducible refine keeps_of_eq (by with_reducible assumption) ?_) | (with_reducible apply keeps_ite))

theorem keeps_effectNet {q : Fix} {r : State} {x1 : Bool} {x2 : Origin} {x3 x4 x5 : Nat} {s : State} (h : Keeps q r s) : Keeps q r (effectNet x1 x2 x3 x4 x5 s) := by
  unfold effectNet
  try dsimp only
  repeat' (first
    | (with_reducible assumption) | (with_reducible apply keeps_planeEffect) | (with_reducible apply keeps_gbaseEffect)
    | (with_reducible apply keeps_ltEffect) | (with_reducible apply keeps_canInitEffect) | (with_reducible apply keeps_canRecoverEffect)
    | (with_reducible apply keeps_canAbortEffect) | (with_reducible apply keeps_linCtlEffect) | simp only [↓keeps_mk] | (with_reducible apply keeps_ite))

theorem keeps_effectEth {q : Fix} {r : State} {x1 x2 : Nat} {s : State} (h : Keeps q r s) : Keeps q r (effectEth x1 x2 s) := by
  unfold effectEth
  try dsimp only
  repeat' (first
    | (with_reducible assumption) | intro _ | (with_reducible apply keeps_mdioStart) | (with_reducible apply keeps_ethPortState)
    | (with_reducible apply keeps_t1ctlEffect) | (with_reducible apply keeps_plcaEffect) | (with_reducible apply keeps_saPnEffect) | simp only [↓keeps_mk]
    | (with_reducible refine keeps_of_eq (by with_reducible assumption) ?_) | (with_reducible apply keeps_ite))

theorem keeps_effectAud {q : Fix} {r : State} {x1 x2 x3 : Nat} {s : State} (h : Keeps q r s) : Keeps q r (effectAud x1 x2 x3 s) := by
  unfold effectAud
  try dsimp only
  repeat' (first
    | (with_reducible assumption) | (with_reducible apply keeps_portEnable) | (with_reducible apply keeps_bptCommit)
    | (with_reducible apply keeps_epctlEffect) | (with_reducible apply keeps_inputEffect) | (with_reducible apply keeps_outWrite)
    | (with_reducible apply keeps_detectStart) | (with_reducible apply keeps_audCalRequest) | (with_reducible apply keeps_bqCommit)
    | (with_reducible apply keeps_bandEffect) | simp only [↓keeps_mk] | (with_reducible apply keeps_ite))

theorem keeps_beforeWrite {q : Fix} {r : State} {x1 x2 x3 : Nat} {s : State} (h : Keeps q r s) : Keeps q r (beforeWrite x1 x2 x3 s) := by
  unfold beforeWrite
  try dsimp only
  repeat' (first
    | (with_reducible assumption) | (with_reducible apply keeps_setGain) | (with_reducible apply keeps_bqHold) | simp only [↓keeps_mk]
    | (with_reducible apply keeps_ite))

theorem keeps_effectHigh {q : Fix} {r : State} {x1 x2 x3 : Nat} {s : State} (h : Keeps q r s) : Keeps q r (effectHigh x1 x2 x3 s) := by
  unfold effectHigh
  try dsimp only
  repeat' (first
    | (with_reducible assumption) | (with_reducible apply keeps_hsnsCalRequest) | (with_reducible apply keeps_chctlEffect)
    | (with_reducible apply keeps_sendPermit) | (with_reducible apply keeps_calRequest) | (with_reducible apply keeps_clearLatch)
    | (with_reducible apply keeps_injectFault) | (with_reducible apply keeps_permitWrite) | (with_reducible apply keeps_wdRefresh)
    | (with_reducible apply keeps_fsSend) | (with_reducible apply keeps_endSession) | simp only [↓keeps_mk] | (with_reducible apply keeps_ite))

theorem keeps_regEffect {q : Fix} {r : State} {x1 : Bool} {x2 : Origin} {x3 x4 x5 : Nat} {s : State} (h : Keeps q r s) : Keeps q r (regEffect x1 x2 x3 x4 x5 s) := by
  unfold regEffect
  try dsimp only
  repeat' (first
    | (with_reducible assumption) | (with_reducible apply keeps_effectLow) | (with_reducible apply keeps_effectNet) | (with_reducible apply keeps_effectEth)
    | (with_reducible apply keeps_effectAud) | (with_reducible apply keeps_effectHigh) | simp only [↓keeps_mk] | (with_reducible apply keeps_ite))

theorem keeps_placeHold {q : Fix} {r : State} {x1 : Bool} {x2 : Origin} {x3 : RegDef} {x4 : Nat} {s : State} (h : Keeps q r s) : Keeps q r (placeHold x1 x2 x3 x4 s) := by
  unfold placeHold
  try dsimp only
  repeat' (first
    | (with_reducible assumption) | simp only [↓keeps_mk] | (with_reducible apply keeps_ite))

theorem keeps_applyWrite {q : Fix} {r : State} {x1 : Bool} {x2 : Origin} {x3 x4 : Nat} {s : State} (h : Keeps q r s) : Keeps q r (applyWrite x1 x2 x3 x4 s) := by
  unfold applyWrite
  try dsimp only
  repeat' (first
    | (with_reducible assumption) | (with_reducible apply keeps_beforeWrite) | (with_reducible apply keeps_setReg) | (with_reducible apply keeps_placeHold)
    | (with_reducible apply keeps_windowAfter) | (with_reducible apply keeps_regEffect) | simp only [↓keeps_mk]
    | (with_reducible refine keeps_of_eq (by with_reducible assumption) ?_) | (with_reducible apply keeps_ite) | split)

theorem keeps_recordRefusal {q : Fix} {r : State} {x1 : Bool} {x2 : Origin} {x3 x4 : Nat} {s : State} (h : Keeps q r s) : Keeps q r (recordRefusal x1 x2 x3 x4 s) := by
  unfold recordRefusal
  try dsimp only
  repeat' (first
    | (with_reducible assumption) | (with_reducible apply keeps_setReg) | (with_reducible apply keeps_bump) | simp only [↓keeps_mk]
    | (with_reducible apply keeps_ite))

theorem keeps_closeRefused {q : Fix} {r : State} {x1 : Origin} {x2 : Nat} {s : State} (h : Keeps q r s) : Keeps q r (closeRefused x1 x2 s) := by
  unfold closeRefused
  try dsimp only
  repeat' (first
    | (with_reducible assumption) | (with_reducible apply keeps_windowAfter) | simp only [↓keeps_mk] | (with_reducible apply keeps_ite))

theorem keeps_hostWrites {q : Fix} {r : State} {x1 : Origin} {x2 : List (Nat × Nat)} {s : State} (h : Keeps q r s) : Keeps q r (hostWrites x1 x2 s).1 := by
  unfold hostWrites
  try dsimp only
  repeat' (first
    | (with_reducible assumption) | intro _ | (with_reducible apply keeps_recordRefusal) | (with_reducible apply keeps_closeRefused)
    | (with_reducible apply keeps_jChange) | (with_reducible apply keeps_applyWrite) | simp only [↓keeps_mk] | (with_reducible apply keeps_foldl)
    | (with_reducible apply keeps_foldP) | (with_reducible refine keeps_of_eq (by with_reducible assumption) ?_) | split)

theorem keeps_checkRemoteWrites' {q : Fix} {r t : State} {o : Origin} (ws : List (Nat × Nat)) :
    ∀ s : State, checkRemoteWrites o ws s = .ok t → Keeps q r s → Keeps q r t := by
  induction ws with
  | nil =>
    intro s e h
    simp only [checkRemoteWrites, Except.ok.injEq] at e
    exact e ▸ h
  | cons p l ih =>
    intro s e h
    unfold checkRemoteWrites at e
    split at e
    · simp at e
    · exact ih _ e (keeps_windowAfter h h)

theorem keeps_remoteWrites {q : Fix} {r : State} {x1 : Origin} {x2 : List (Nat × Nat)} {x3 : Nat} {s : State} (h : Keeps q r s) : Keeps q r (remoteWrites x1 x2 x3 s).1 := by
  unfold remoteWrites
  try dsimp only
  repeat' (first
    | (with_reducible assumption) | intro _ | (with_reducible apply keeps_recordRefusal) | (with_reducible apply keeps_closeRefused)
    | (with_reducible apply keeps_remoteSend) | simp only [↓keeps_mk] | (with_reducible refine keeps_of_eq (by with_reducible assumption) ?_)
    | (with_reducible apply keeps_ite) | (with_reducible apply keeps_ite1)
    | (with_reducible refine keeps_checkRemoteWrites' _ _ (by with_reducible assumption) ?_) | split)

theorem keeps_fieldApply {q : Fix} {r : State} {x1 : Origin} {x2 x3 : Nat} {s : State} (h : Keeps q r s) : Keeps q r (fieldApply x1 x2 x3 s) := by
  unfold fieldApply
  try dsimp only
  repeat' (first
    | (with_reducible assumption) | (with_reducible apply keeps_applyWrite) | (with_reducible apply keeps_fieldJournal) | simp only [↓keeps_mk]
    | (with_reducible refine keeps_of_eq (by with_reducible assumption) ?_) | (with_reducible apply keeps_ite) | split)

theorem keeps_fsWrite {q : Fix} {r : State} {x1 x2 : Nat} {s : State} (h : Keeps q r s) : Keeps q r (fsWrite x1 x2 s).1 := by
  unfold fsWrite
  try dsimp only
  repeat' (first
    | (with_reducible assumption) | (with_reducible apply keeps_recordRefusal) | (with_reducible apply keeps_closeRefused)
    | (with_reducible apply keeps_fieldApply) | simp only [↓keeps_mk] | (with_reducible refine keeps_of_eq (by with_reducible assumption) ?_)
    | (with_reducible apply keeps_ite) | (with_reducible apply keeps_ite1) | split)

theorem keeps_busWrite {q : Fix} {r : State} {x1 : Origin} {x2 : Nat} {x3 : Word} {s : State} (h : Keeps q r s) : Keeps q r (busWrite x1 x2 x3 s).1 := by
  unfold busWrite
  try dsimp only
  repeat' (first
    | (with_reducible assumption) | (with_reducible apply keeps_fsWrite) | (with_reducible apply keeps_remoteWrites)
    | (with_reducible apply keeps_hostWrites) | simp only [↓keeps_mk] | (with_reducible refine keeps_of_eq (by with_reducible assumption) ?_)
    | (with_reducible apply keeps_ite) | (with_reducible apply keeps_ite1))

end Sys2Proof.Laws
end

