-- ==== Sys2Proof/Laws/KeepsRuns.lean ====
section
/-! SUPPORT. What the meanings of image load, updates, the host port and the tick keep: one lemma for each, as Laws/Keeps.lean tells it. -/

namespace Sys2Proof.Laws

open Sys2Proof Sys2Proof.Machine

theorem loadRegInit_wf (rs : List Bytes) (m : KMap Word) (h : RegFile.wf m = true) : RegFile.wf (loadRegInit rs m) = true := by
  unfold loadRegInit
  induction rs generalizing m with
  | nil => exact h
  | cons p l ih => exact ih _ (regFile_set_wf _ _ _ h)

theorem setBits_wf (m : KMap Word) (a lo w x : Nat) (h : RegFile.wf m = true) : RegFile.wf (RegFile.setBits m a lo w x) = true :=
  regFile_set_wf _ _ _ h

theorem foldl_wf {α : Type} (f : KMap Word → α → KMap Word) (hf : ∀ m x, RegFile.wf m = true → RegFile.wf (f m x) = true) (l : List α) :
    ∀ m, RegFile.wf m = true → RegFile.wf (l.foldl f m) = true := by
  induction l with
  | nil => exact fun m h => h
  | cons x l ih => exact fun m h => ih _ (hf m x h)

theorem sectionRegs_wf (im : Image) (m : KMap Word) (h : RegFile.wf m = true) : RegFile.wf (sectionRegs im m) = true := by
  unfold sectionRegs
  refine foldl_wf _ (fun m x hm => setBits_wf _ _ _ _ _ hm) _ _ ?_
  refine foldl_wf _ (fun m x hm => setBits_wf _ _ _ _ _ (setBits_wf _ _ _ _ _ hm)) _ _ ?_
  refine foldl_wf _ (fun m x hm => setBits_wf _ _ _ _ _ (setBits_wf _ _ _ _ _ hm)) _ _ ?_
  refine foldl_wf _ (fun m x hm => setBits_wf _ _ _ _ _ (setBits_wf _ _ _ _ _ hm)) _ _ ?_
  refine foldl_wf _ (fun m x hm => ?_) _ _ ?_
  · split
    · exact setBits_wf _ _ _ _ _ (setBits_wf _ _ _ _ _ (setBits_wf _ _ _ _ _ hm))
    · exact hm
  · split
    · exact setBits_wf _ _ _ _ _ h
    · exact h

theorem fieldRegs_wf (a b : List Bytes) (m : KMap Word) (h : RegFile.wf m = true) : RegFile.wf (fieldRegs a b m) = true := by
  unfold fieldRegs
  exact foldl_wf _ (fun m x hm => setBits_wf _ _ _ _ _ (setBits_wf _ _ _ _ _ hm)) _ _ (loadRegInit_wf _ _ h)

theorem keeps_stageHost {q : Fix} {r s : State} {x1 : Image} (h : Keeps q r s) : Keeps q r (stageHost x1 s) := by
  unfold stageHost
  exact keeps_upd (keeps_regs h (fun hw => sectionRegs_wf _ _ (loadRegInit_wf _ _ hw))) rfl rfl rfl rfl rfl rfl rfl rfl rfl

theorem keeps_stageField {q : Fix} {r s : State} {x1 : List Sect} (h : Keeps q r s) : Keeps q r (stageField x1 s) := by
  unfold stageField
  exact keeps_upd (keeps_regs h (fun hw => fieldRegs_wf _ _ _ hw)) rfl rfl rfl rfl rfl rfl rfl rfl rfl

theorem keeps_setCode {q : Fix} {r : State} {x1 x2 : Nat} {s : State} (h : Keeps q r s) : Keeps q r (setCode x1 x2 s) := by
  unfold setCode
  try dsimp only
  repeat' (first
    | (with_reducible assumption) | simp only [↓keeps_mk] | (with_reducible apply keeps_ite))

theorem keeps_loadChainHead {q : Fix} {r s : State} (h : Keeps q r s) : Keeps q r (loadChainHead s) := by
  unfold loadChainHead
  try dsimp only
  repeat' (first
    | (with_reducible assumption) | simp only [↓keeps_mk])

theorem keeps_buildHold {q : Fix} {r s : State} (h : Keeps q r s) : Keeps q r (buildHold s) := by
  unfold buildHold
  try dsimp only
  repeat' (first
    | (with_reducible assumption) | (with_reducible apply keeps_enterHold) | (with_reducible apply keeps_loadChainHead) | simp only [↓keeps_mk])

theorem keeps_sendSlot {q : Fix} {r : State} {x1 : Nat} {s : State} (h : Keeps q r s) : Keeps q r (sendSlot x1 s) := by
  unfold sendSlot
  try dsimp only
  repeat' (first
    | (with_reducible assumption) | (with_reducible apply keeps_sendStart) | (with_reducible apply keeps_sendFieldSections) | simp only [↓keeps_mk]
    | (with_reducible apply keeps_ite))

theorem keeps_trySlot {q : Fix} {r : State} {x1 : Nat} {x2 : List Nat} {s : State} (h : Keeps q r s) : Keeps q r (trySlot x1 x2 s) := by
  unfold trySlot
  try dsimp only
  repeat' (first
    | (with_reducible assumption) | (with_reducible apply keeps_sendSlot) | simp only [↓keeps_mk])

theorem keeps_tryNext {q : Fix} {r s : State} (h : Keeps q r s) : Keeps q r (tryNext s) := by
  unfold tryNext
  try dsimp only
  repeat' (first
    | (with_reducible assumption) | (with_reducible apply keeps_trySlot) | (with_reducible apply keeps_buildHold) | simp only [↓keeps_mk]
    | (with_reducible refine keeps_of_eq (by with_reducible assumption) ?_) | split)

theorem keeps_buildStart {q : Fix} {r s : State} (h : Keeps q r s) : Keeps q r (buildStart s) := by
  unfold buildStart
  try dsimp only
  repeat' (first
    | (with_reducible assumption) | intro _ | (with_reducible apply keeps_tryNext) | simp only [↓keeps_mk]
    | (with_reducible refine keeps_of_eq (by with_reducible assumption) ?_) | (with_reducible apply keeps_ite))

theorem keeps_slotFail {q : Fix} {r s : State} (h : Keeps q r s) : Keeps q r (slotFail s) := by
  unfold slotFail
  try dsimp only
  repeat' (first
    | (with_reducible assumption) | (with_reducible apply keeps_tryNext) | (with_reducible apply keeps_setCode) | simp only [↓keeps_mk]
    | (with_reducible refine keeps_of_eq (by with_reducible assumption) ?_) | (with_reducible apply keeps_ite) | split)

theorem keeps_dropImage {q : Fix} {r s : State} (h : Keeps q r s) : Keeps q r (dropImage s) := by
  unfold dropImage
  exact keeps_modePins (holds_upd (holds_reinitHost h.holds) rfl rfl rfl rfl)

theorem keeps_buildTimeout {q : Fix} {r s : State} (h : Keeps q r s) : Keeps q r (buildTimeout s) := by
  unfold buildTimeout
  try dsimp only
  repeat' (first
    | (with_reducible assumption) | (with_reducible apply keeps_buildHold) | (with_reducible apply keeps_setCode) | (with_reducible apply keeps_dropImage)
    | simp only [↓keeps_mk] | (with_reducible refine keeps_of_eq (by with_reducible assumption) ?_) | (with_reducible apply keeps_ite) | split)

theorem keeps_deriveResident {q : Fix} {r s : State} (h : Keeps q r s) : Keeps q r (deriveResident s) := by
  unfold deriveResident
  try dsimp only
  repeat' (first
    | (with_reducible assumption) | intro _ | simp only [↓keeps_mk] | (with_reducible apply keeps_foldl) | (with_reducible apply keeps_foldP)
    | (with_reducible refine keeps_of_eq (by with_reducible assumption) ?_) | (with_reducible apply keeps_ite) | (with_reducible apply keeps_ite1) | split)

theorem keeps_startPlanes {q : Fix} {r s : State} (h : Keeps q r s) : Keeps q r (startPlanes s) := by
  unfold startPlanes
  try dsimp only
  repeat' (first
    | (with_reducible assumption) | intro _ | (with_reducible apply keeps_notePeak) | simp only [↓keeps_mk])

theorem keeps_startLive {q : Fix} {r s : State} (h : Keeps q r s) : Keeps q r (startLive s) := by
  unfold startLive
  try dsimp only
  repeat' (first
    | (with_reducible assumption) | intro _ | (with_reducible apply keeps_liveChanged) | simp only [↓keeps_mk] | (with_reducible apply keeps_foldl)
    | (with_reducible apply keeps_foldP) | (with_reducible refine keeps_of_eq (by with_reducible assumption) ?_) | split)

theorem keeps_startPorts {q : Fix} {r s : State} (h : Keeps q r s) : Keeps q r (startPorts s) := by
  unfold startPorts
  try dsimp only
  repeat' (first
    | (with_reducible assumption) | intro _ | (with_reducible apply keeps_canInitEffect) | (with_reducible apply keeps_setLin)
    | (with_reducible apply keeps_ethPortState) | simp only [↓keeps_mk] | (with_reducible apply keeps_foldl) | (with_reducible apply keeps_foldP)
    | (with_reducible refine keeps_of_eq (by with_reducible assumption) ?_) | (with_reducible apply keeps_ite))

theorem keeps_commitHost {q : Fix} {r : State} {x1 : Image} {s : State} (h : Keeps q r s) : Keeps q r (commitHost x1 s) := by
  unfold commitHost
  try dsimp only
  repeat' (first
    | (with_reducible assumption) | (with_reducible apply keeps_stageHost) | (with_reducible apply keeps_startPorts)
    | (with_reducible apply keeps_startLive) | (with_reducible apply keeps_deriveResident) | (with_reducible apply keeps_startPlanes)
    | (with_reducible apply keeps_loadChainHead) | (with_reducible apply keeps_startAll) | (with_reducible apply keeps_touchStart)
    | (with_reducible apply keeps_audioStart) | (with_reducible apply keeps_refreshOut) | simp only [↓keeps_mk])

theorem keeps_buildCommit {q : Fix} {r s : State} (h : Keeps q r s) : Keeps q r (buildCommit s) := by
  unfold buildCommit
  try dsimp only
  repeat' (first
    | (with_reducible assumption) | (with_reducible apply keeps_setCode) | (with_reducible apply keeps_commitHost) | (with_reducible apply keeps_setInt)
    | (with_reducible apply keeps_sendImage) | simp only [↓keeps_mk] | (with_reducible refine keeps_of_eq (by with_reducible assumption) ?_)
    | (with_reducible apply keeps_ite) | split)

theorem keeps_rootEntries {q : Fix} {r s : State} (h : Keeps q r s) : Keeps q r (rootEntries s) := by
  unfold rootEntries
  try dsimp only
  repeat' (first
    | (with_reducible assumption) | (with_reducible apply keeps_jChange) | (with_reducible apply keeps_jEvent) | simp only [↓keeps_mk]
    | (with_reducible apply keeps_ite))

theorem keeps_wantFuses {q : Fix} {r : State} {x1 : Image} {s : State} (h : Keeps q r s) : Keeps q r (wantFuses x1 s) := by
  unfold wantFuses
  try dsimp only
  repeat' (first
    | (with_reducible assumption) | (with_reducible apply keeps_askLeave) | simp only [↓keeps_mk] | (with_reducible apply keeps_ite))

theorem keeps_journalImage {q : Fix} {r : State} {x1 : Image} {s : State} (h : Keeps q r s) : Keeps q r (journalImage x1 s) := by
  unfold journalImage
  try dsimp only
  repeat' (first
    | (with_reducible assumption) | (with_reducible apply keeps_jPut) | simp only [↓keeps_mk])

theorem keeps_startRun {q : Fix} {r s : State} (h : Keeps q r s) : Keeps q r (startRun s) := by
  unfold startRun
  try dsimp only
  repeat' (first
    | (with_reducible assumption) | (with_reducible apply keeps_hartStart) | (with_reducible apply keeps_wakeStop) | (with_reducible apply keeps_setMode)
    | simp only [↓keeps_mk])

theorem keeps_runEntry {q : Fix} {r s : State} (h : Keeps q r s) : Keeps q r (runEntry s) := by
  unfold runEntry
  try dsimp only
  repeat' (first
    | (with_reducible assumption) | intro _ | (with_reducible apply keeps_startRun) | (with_reducible apply keeps_rootEntries)
    | (with_reducible apply keeps_journalImage) | (with_reducible apply keeps_notePorts) | (with_reducible apply keeps_setT1)
    | (with_reducible apply keeps_wantFuses) | simp only [↓keeps_mk] | (with_reducible apply keeps_foldl) | (with_reducible apply keeps_foldP)
    | (with_reducible refine keeps_of_eq (by with_reducible assumption) ?_) | (with_reducible apply keeps_ite) | (with_reducible apply keeps_ite1) | split)

theorem keeps_otpAsk {q : Fix} {r s : State} (h : Keeps q r s) : Keeps q r (otpAsk s) := by
  unfold otpAsk
  try dsimp only
  repeat' (first
    | (with_reducible assumption) | (with_reducible apply keeps_askLeave) | simp only [↓keeps_mk] | (with_reducible apply keeps_ite))

/-- A change of the fuses that only moves one way keeps it. -/
theorem keeps_otp {q : Fix} {r x : State} (h : Keeps q r x) (hotp : ¬ q.otp) {o : Otp} (ho : otpForward x.otp o) {hd : HostDie}
    (he : hd.dbg.extest = x.h.dbg.extest) : Keeps q r ⟨x.pending, x.free, x.sys, x.time, x.keeper, o, x.flash, x.regs, hd, x.f⟩ :=
  ⟨⟨h.holds.pending, otpForward_trans h.holds.fuses ho, h.holds.regs, h.holds.cells, h.holds.flash, fun e => absurd e hotp, h.holds.now,
    h.holds.permit, h.holds.key, h.holds.enter⟩, fun hr => pinsShow_of_eq (x := x) rfl rfl rfl rfl he (h.pins hr)⟩

theorem otpForward_floor (a : Otp) : otpForward a { a with floor := min 64 (a.floor + 1) } := by
  refine ⟨⟨rfl, rfl, rfl, rfl, rfl, rfl⟩, fun h => ?_, fun h => ⟨Nat.le_refl _, h⟩, id, id⟩
  show a.floor ≤ min 64 (a.floor + 1) ∧ min 64 (a.floor + 1) ≤ 64
  omega

theorem otpForward_epoch (a : Otp) : otpForward a { a with epoch := min 32 (a.epoch + 1) } := by
  refine ⟨⟨rfl, rfl, rfl, rfl, rfl, rfl⟩, fun h => ⟨Nat.le_refl _, h⟩, fun h => ?_, id, id⟩
  show a.epoch ≤ min 32 (a.epoch + 1) ∧ min 32 (a.epoch + 1) ≤ 32
  omega

theorem otpForward_revoked0 (a : Otp) : otpForward a { a with revoked0 := true } :=
  ⟨⟨rfl, rfl, rfl, rfl, rfl, rfl⟩, fun h => ⟨Nat.le_refl _, h⟩, fun h => ⟨Nat.le_refl _, h⟩, fun _ => rfl, id⟩

theorem otpForward_revoked1 (a : Otp) : otpForward a { a with revoked1 := true } :=
  ⟨⟨rfl, rfl, rfl, rfl, rfl, rfl⟩, fun h => ⟨Nat.le_refl _, h⟩, fun h => ⟨Nat.le_refl _, h⟩, id, fun _ => rfl⟩

theorem keeps_imageFuse {q : Fix} {r s : State} (h : Keeps q r s) (hotp : ¬ q.otp) : Keeps q r (imageFuse s) := by
  unfold imageFuse
  split
  · exact h
  · refine keeps_ite h ?_
    have k : Keeps q r (giveLeave false 7 0 s) := keeps_giveLeave h
    revert k
    generalize giveLeave false 7 0 s = t
    intro k
    dsimp only
    split
    · exact keeps_otp k hotp (otpForward_floor _) rfl
    · split
      · split
        · exact keeps_otp k hotp (otpForward_revoked1 _) rfl
        · exact keeps_otp k hotp (otpForward_revoked0 _) rfl
      · exact k

theorem keeps_reloadField {q : Fix} {r s : State} (h : Keeps q r s) : Keeps q r (reloadField s) := by
  unfold reloadField
  try dsimp only
  repeat' (first
    | (with_reducible assumption) | (with_reducible apply keeps_sendSlot) | (with_reducible apply keeps_raise) | simp only [↓keeps_mk]
    | (with_reducible refine keeps_of_eq (by with_reducible assumption) ?_) | (with_reducible apply keeps_ite) | split)

theorem keeps_heartbeatAtHost {q : Fix} {r : State} {x1 : XMsg} {s : State} (h : Keeps q r s) : Keeps q r (heartbeatAtHost x1 s) := by
  unfold heartbeatAtHost
  try dsimp only
  repeat' (first
    | (with_reducible assumption) | intro _ | (with_reducible apply keeps_hostHeartbeat) | (with_reducible apply keeps_sendSlot)
    | (with_reducible apply keeps_reloadField) | simp only [↓keeps_mk] | (with_reducible refine keeps_of_eq (by with_reducible assumption) ?_)
    | (with_reducible apply keeps_ite) | (with_reducible apply keeps_ite1) | split)

theorem keeps_imageResult {q : Fix} {r : State} {x1 : XMsg} {s : State} (h : Keeps q r s) : Keeps q r (imageResult x1 s) := by
  unfold imageResult
  try dsimp only
  repeat' (first
    | (with_reducible assumption) | intro _ | (with_reducible apply keeps_sendImage) | (with_reducible apply keeps_raise) | simp only [↓keeps_mk]
    | (with_reducible refine keeps_of_eq (by with_reducible assumption) ?_) | (with_reducible apply keeps_ite))

theorem keeps_imageCommit {q : Fix} {r s : State} (h : Keeps q r s) : Keeps q r (imageCommit s) := by
  unfold imageCommit
  try dsimp only
  repeat' (first
    | (with_reducible assumption) | intro _ | (with_reducible apply keeps_stageField) | simp only [↓keeps_mk]
    | (with_reducible refine keeps_of_eq (by with_reducible assumption) ?_) | (with_reducible apply keeps_ite))

theorem keeps_frunEntry {q : Fix} {r s : State} (h : Keeps q r s) : Keeps q r (frunEntry s) := by
  unfold frunEntry
  try dsimp only
  repeat' (first
    | (with_reducible assumption) | intro _ | (with_reducible apply keeps_canInitEffect) | (with_reducible apply keeps_permitUpdate)
    | (with_reducible apply keeps_hartStart) | (with_reducible apply keeps_releaseHeld) | (with_reducible apply keeps_startAll) | simp only [↓keeps_mk]
    | (with_reducible apply keeps_foldl) | (with_reducible apply keeps_foldP) | (with_reducible refine keeps_of_eq (by with_reducible assumption) ?_)
    | (with_reducible apply keeps_ite))

theorem keeps_takeIf' {q : Fix} {r s : State} {x2 : Nat} {x3 : Frame → Bool} {t : State} {v} (e : takeIf s x2 x3 = some (v, t)) (h : Keeps q r s) : Keeps q r t := by
  unfold takeIf at e
  try dsimp only at e
  repeat' (split at e)
  all_goals (try (simp only [Option.some.injEq, Prod.mk.injEq, reduceCtorEq] at e))
  all_goals (try (obtain ⟨_, rfl⟩ := e))
  all_goals repeat' (first
    | (with_reducible assumption) | (with_reducible refine keeps_takeHead' (by with_reducible assumption) ?_))

theorem keeps_jDrain {q : Fix} {r s : State} (h : Keeps q r s) : Keeps q r (jDrain s) := by
  unfold jDrain
  try dsimp only
  repeat' (first
    | (with_reducible assumption) | intro _ | (with_reducible apply keeps_submitMsg) | simp only [↓keeps_mk]
    | (with_reducible refine keeps_of_eq (by with_reducible assumption) ?_) | (with_reducible apply keeps_ite))

theorem keeps_jAccept {q : Fix} {r : State} {x1 : Bytes} {s : State} (h : Keeps q r s) : Keeps q r (jAccept x1 s) := by
  unfold jAccept
  try dsimp only
  repeat' (first
    | (with_reducible assumption) | intro _ | (with_reducible apply keeps_jGap) | (with_reducible apply keeps_jKeep) | simp only [↓keeps_mk])

theorem keeps_jRewind {q : Fix} {r s : State} (h : Keeps q r s) : Keeps q r (jRewind s) := by
  unfold jRewind
  try dsimp only
  repeat' (first
    | (with_reducible assumption) | intro _ | simp only [↓keeps_mk])

theorem keeps_jAcknowledge {q : Fix} {r : State} {x1 : Bytes} {s : State} (h : Keeps q r s) : Keeps q r (jAcknowledge x1 s) := by
  unfold jAcknowledge
  try dsimp only
  repeat' (first
    | (with_reducible assumption) | (with_reducible apply keeps_jAccept) | (with_reducible apply keeps_jRewind) | (with_reducible apply keeps_bump)
    | simp only [↓keeps_mk] | (with_reducible apply keeps_ite))

theorem keeps_jTakeAck {q : Fix} {r : State} {x1 : Bool} {s : State} (h : Keeps q r s) : Keeps q r (jTakeAck x1 s) := by
  unfold jTakeAck
  try dsimp only
  repeat' (first
    | (with_reducible assumption) | intro _ | (with_reducible refine keeps_takeIf' (by with_reducible assumption) ?_)
    | (with_reducible apply keeps_jAcknowledge) | simp only [↓keeps_mk] | (with_reducible refine keeps_of_eq (by with_reducible assumption) ?_) | split)

theorem keeps_gateAt {q : Fix} {r : State} {x1 : Nat} {x2 : Stamp} {x3 : List Bytes} {s : State} (h : Keeps q r s) : Keeps q r (gateAt x1 x2 x3 s) := by
  unfold gateAt
  try dsimp only
  repeat' (first
    | (with_reducible assumption) | intro _ | simp only [↓keeps_mk] | (with_reducible apply keeps_foldl) | (with_reducible apply keeps_foldP)
    | (with_reducible refine keeps_of_eq (by with_reducible assumption) ?_) | (with_reducible apply keeps_ite))

theorem keeps_takeBase {q : Fix} {r : State} {x1 : Nat} {s : State} (h : Keeps q r s) : Keeps q r (takeBase x1 s) := by
  unfold takeBase
  try dsimp only
  repeat' (first
    | (with_reducible assumption) | (with_reducible apply keeps_setReg) | simp only [↓keeps_mk]
    | (with_reducible refine keeps_of_eq (by with_reducible assumption) ?_) | split)

theorem keeps_gateEnd {q : Fix} {r : State} {x1 : Nat} {s : State} (h : Keeps q r s) : Keeps q r (gateEnd x1 s) := by
  unfold gateEnd
  try dsimp only
  repeat' (first
    | (with_reducible assumption) | (with_reducible apply keeps_gateAt) | (with_reducible apply keeps_takeBase) | simp only [↓keeps_mk]
    | (with_reducible refine keeps_of_eq (by with_reducible assumption) ?_) | (with_reducible apply keeps_ite) | split)

theorem keeps_catalogueSend {q : Fix} {r s : State} (h : Keeps q r s) : Keeps q r (catalogueSend s) := by
  unfold catalogueSend
  try dsimp only
  repeat' (first
    | (with_reducible assumption) | (with_reducible refine keeps_takeHead' (by with_reducible assumption) ?_) | (with_reducible apply keeps_bump)
    | (with_reducible apply keeps_sendMsg) | simp only [↓keeps_mk] | (with_reducible refine keeps_of_eq (by with_reducible assumption) ?_)
    | (with_reducible apply keeps_ite) | (with_reducible apply keeps_ite1) | split)

theorem keeps_setTampCond {q : Fix} {r : State} {x1 : Nat} {x2 : Bool} {s : State} (h : Keeps q r s) : Keeps q r (setTampCond x1 x2 s) := by
  unfold setTampCond
  try dsimp only
  repeat' (first
    | (with_reducible assumption) | simp only [↓keeps_mk] | (with_reducible refine keeps_of_eq (by with_reducible assumption) ?_) | split)

theorem keeps_tampErase {q : Fix} {r s : State} {x1 : Nat} (h : Keeps q r s) (hkey : ¬ q.key)
    (htam : ∀ a, a = 0 ∨ q.enter a 0 → q.enter a 1) : Keeps q r (tampErase x1 s) := by
  have k := keeps_zeroKeys (keeps_setTampCond (x1 := x1) (x2 := true) h) hkey
  unfold tampErase
  revert k
  dsimp only
  generalize zeroKeys (setTampCond x1 true s) = t
  intro k
  refine ⟨⟨k.holds.pending, k.holds.fuses, k.holds.regs, k.holds.cells, k.holds.flash, k.holds.otp, k.holds.now, k.holds.permit,
    k.holds.key, ?_⟩, k.pins⟩
  have e := k.holds.enter
  show tamperedState t.keeper.rootState = _ ∨ q.enter _ (tamperedState t.keeper.rootState)
  unfold tamperedState
  split
  · rename_i hz
    rw [hz] at e
    refine Or.inr (htam _ ?_)
    rcases e with e | e
    · exact Or.inl e.symm
    · exact Or.inr e
  · exact e

theorem keeps_tampNote {q : Fix} {r : State} {x1 : Nat} {s : State} (h : Keeps q r s) : Keeps q r (tampNote x1 s) := by
  unfold tampNote
  try dsimp only
  repeat' (first
    | (with_reducible assumption) | (with_reducible apply keeps_raise) | (with_reducible apply keeps_jEvent) | (with_reducible apply keeps_setInt)
    | simp only [↓keeps_mk] | (with_reducible apply keeps_ite))

theorem keeps_updInject {q : Fix} {r : State} {x1 x2 x3 : Nat} {x4 : Bytes} {x5 : Nat} {s : State} (h : Keeps q r s) : Keeps q r (updInject x1 x2 x3 x4 x5 s) := by
  unfold updInject
  try dsimp only
  repeat' (first
    | (with_reducible assumption) | intro _ | (with_reducible apply keeps_endGrace) | (with_reducible apply keeps_dropSlots)
    | (with_reducible apply keeps_touchSlot) | (with_reducible apply keeps_setRole) | (with_reducible apply keeps_keyEvent) | simp only [↓keeps_mk]
    | (with_reducible refine keeps_of_eq (by with_reducible assumption) ?_) | (with_reducible apply keeps_ite) | (with_reducible apply keeps_ite1) | split)

theorem keeps_updDelete {q : Fix} {r : State} {x1 x2 : Nat} {s : State} (h : Keeps q r s) : Keeps q r (updDelete x1 x2 s) := by
  unfold updDelete
  try dsimp only
  repeat' (first
    | (with_reducible assumption) | intro _ | (with_reducible apply keeps_setRole) | (with_reducible apply keeps_dropSlots)
    | (with_reducible apply keeps_keyEvent) | simp only [↓keeps_mk])

theorem keeps_updRoot {q : Fix} {r s : State} {x1 : Bytes} (h : Keeps q r s) (hkey : ¬ q.key) (hroot : ∀ a, q.enter a 0) :
    Keeps q r (updRoot x1 s) := by
  unfold updRoot
  refine keeps_jEvent (keeps_setInt (keeps_deriveResident ?_))
  exact ⟨⟨h.holds.pending, h.holds.fuses, h.holds.regs, h.holds.cells, h.holds.flash, h.holds.otp, h.holds.now, h.holds.permit,
    fun e => absurd e hkey, Or.inr (hroot _)⟩, h.pins⟩

theorem error_ok {α β : Type} {P : Prop} {x : α} {y : β} (e : (Except.error x : Except α β) = Except.ok y) : P := nomatch e

theorem keeps_updOp' {q : Fix} {r s t : State} {x1 : Bytes} {x2 : Nat} {x3 : Bytes} (e : updOp x1 x2 x3 s = .ok t) (h : Keeps q r s) (hkey : ¬ q.key) (hroot : ∀ a, q.enter a 0) : Keeps q r t := by
  unfold updOp at e
  dsimp only at e
  split at e
  · split at e
    · exact error_ok e
    · obtain rfl := Except.ok.inj e
      exact keeps_updInject h
  · split at e
    · exact error_ok e
    · split at e
      · exact error_ok e
      · split at e
        · exact error_ok e
        · obtain rfl := Except.ok.inj e
          exact keeps_updDelete h
  · split at e
    · exact error_ok e
    · split at e
      · exact error_ok e
      · obtain rfl := Except.ok.inj e
        exact keeps_updRoot h hkey hroot
  · split at e
    · exact error_ok e
    · split at e
      · exact error_ok e
      · split at e
        · exact error_ok e
        · split at e
          · split at e
            · obtain rfl := Except.ok.inj e
              exact h
            · exact error_ok e
          · obtain rfl := Except.ok.inj e
            exact keeps_hostWrites h

theorem keeps_updRun' {q : Fix} {r t : State} {x1 : Bytes} {x2 : Nat} (hkey : ¬ q.key) (hroot : ∀ a, q.enter a 0) (l : List Bytes) :
    ∀ (i : Nat) (s : State), updRun x1 x2 i l s = .ok t → Keeps q r s → Keeps q r t := by
  induction l with
  | nil =>
    intro i s e h
    simp only [updRun, Except.ok.injEq] at e
    exact e ▸ h
  | cons p l ih =>
    intro i s e h
    unfold updRun at e
    split at e
    · simp at e
    · rename_i u hu
      exact ih _ _ e (keeps_updOp' hu h hkey hroot)

theorem keeps_updAnswer {q : Fix} {r : State} {x1 : Bytes} {x2 x3 : Nat} {s : State} (h : Keeps q r s) : Keeps q r (updAnswer x1 x2 x3 s) := by
  unfold updAnswer
  try dsimp only
  repeat' (first
    | (with_reducible assumption) | (with_reducible apply keeps_setField) | (with_reducible apply keeps_submitMsg) | (with_reducible apply keeps_bump)
    | simp only [↓keeps_mk] | (with_reducible refine keeps_of_eq (by with_reducible assumption) ?_) | (with_reducible apply keeps_ite))

theorem keeps_updCommit {q : Fix} {r : State} {x1 : Bytes} {x2 : Nat} {x3 : List Bytes} {s : State} (h : Keeps q r s) (hkey : ¬ q.key) (hroot : ∀ a, q.enter a 0) : Keeps q r (updCommit x1 x2 x3 s) := by
  unfold updCommit
  try dsimp only
  repeat' (first
    | (with_reducible assumption) | intro _ | (with_reducible apply keeps_updAnswer) | (with_reducible apply keeps_markDead)
    | (with_reducible apply keeps_counterChanged) | simp only [↓keeps_mk] | (with_reducible refine keeps_of_eq (by with_reducible assumption) ?_)
    | (with_reducible refine keeps_updRun' hkey hroot _ _ _ (by with_reducible assumption) ?_) | split)

theorem keeps_updReject {q : Fix} {r : State} {x1 : Nat} {s : State} (h : Keeps q r s) : Keeps q r (updReject x1 s) := by
  unfold updReject
  try dsimp only
  repeat' (first
    | (with_reducible assumption) | (with_reducible apply keeps_bump) | (with_reducible apply keeps_setField))

theorem keeps_updTake {q : Fix} {r : State} {x1 : Bytes} {s : State} (h : Keeps q r s) (hkey : ¬ q.key) (hroot : ∀ a, q.enter a 0) : Keeps q r (updTake x1 s) := by
  unfold updTake
  try dsimp only
  repeat' (first
    | (with_reducible assumption) | (with_reducible apply keeps_updReject) | (with_reducible apply keeps_updAnswer) | (with_reducible apply keeps_askLeave)
    | (with_reducible apply keeps_updCommit) | simp only [↓keeps_mk] | (with_reducible refine keeps_of_eq (by with_reducible assumption) ?_)
    | (with_reducible apply keeps_ite) | split)

theorem keeps_updFromQueue {q : Fix} {r : State} {x1 : Nat → Bool} {s : State} (h : Keeps q r s) (hkey : ¬ q.key) (hroot : ∀ a, q.enter a 0) : Keeps q r (updFromQueue x1 s) := by
  unfold updFromQueue
  try dsimp only
  repeat' (first
    | (with_reducible assumption) | intro _ | (with_reducible refine keeps_takeIf' (by with_reducible assumption) ?_) | (with_reducible apply keeps_updTake)
    | simp only [↓keeps_mk] | (with_reducible refine keeps_of_eq (by with_reducible assumption) ?_) | (with_reducible apply keeps_ite)
    | (with_reducible apply keeps_ite1) | split)

theorem keeps_rootFuse {q : Fix} {r s : State} (h : Keeps q r s) (hotp : ¬ q.otp) (hkey : ¬ q.key) (hroot : ∀ a, q.enter a 0) : Keeps q r (rootFuse s) := by
  unfold rootFuse
  refine keeps_ite h ?_
  have k : Keeps q r { s with otp.epoch := min 32 (s.otp.epoch + 1) } := keeps_otp h hotp (otpForward_epoch _) rfl
  have k2 := keeps_giveLeave (x1 := false) (x2 := 7) (x3 := 1) k
  revert k2
  dsimp only
  generalize giveLeave false 7 1 _ = t
  intro k2
  split
  · exact k2
  · have k3 : Keeps q r { t with h.keys.rootMsg := none } := keeps_upd k2 rfl rfl rfl rfl rfl rfl rfl rfl rfl
    revert k3
    dsimp only
    generalize State.mk _ _ _ _ _ _ _ _ _ _ = u
    intro k3
    split
    · exact k3
    · exact keeps_updCommit k3 hkey hroot

theorem keeps_rootRefused {q : Fix} {r s : State} (h : Keeps q r s) : Keeps q r (rootRefused s) := by
  unfold rootRefused
  try dsimp only
  repeat' (first
    | (with_reducible assumption) | (with_reducible apply keeps_updAnswer) | simp only [↓keeps_mk]
    | (with_reducible refine keeps_of_eq (by with_reducible assumption) ?_) | split)

theorem keeps_tamper {q : Fix} {r : State} {x1 : Nat} {s : State} (h : Keeps q r s) (hkey : ¬ q.key) (htam : ∀ a, a = 0 ∨ q.enter a 0 → q.enter a 1) : Keeps q r (tamper x1 s) := by
  unfold tamper
  try dsimp only
  repeat' (first
    | (with_reducible assumption) | (with_reducible apply keeps_dropLeave) | (with_reducible apply keeps_updAnswer)
    | (with_reducible apply keeps_endSession) | (with_reducible apply keeps_tokenAbort) | (with_reducible apply keeps_markDead)
    | (with_reducible apply keeps_tampNote) | (with_reducible apply keeps_tampErase) | simp only [↓keeps_mk]
    | (with_reducible refine keeps_of_eq (by with_reducible assumption) ?_) | (with_reducible apply keeps_ite) | split)

theorem keeps_nmReads {q : Fix} {r : State} {x1 : List (Nat × Nat × Nat)} {s : State} (h : Keeps q r s) : Keeps q r (nmReads x1 s).1 := by
  induction x1 generalizing s h with
  | nil =>
    unfold nmReads
    try dsimp only
    repeat' (first
      | (with_reducible assumption))
  | cons p l ih =>
    unfold nmReads
    try dsimp only
    repeat' (first
      | (with_reducible assumption) | intro _ | (with_reducible apply ih) | (with_reducible apply keeps_readReg) | (with_reducible apply keeps_netMgmt)
      | simp only [↓keeps_mk] | (with_reducible refine keeps_of_eq (by with_reducible assumption) ?_) | (with_reducible apply keeps_ite)
      | (with_reducible apply keeps_ite1))

theorem keeps_nmRespond {q : Fix} {r : State} {x1 : Bytes} {x2 x3 : Nat} {x4 : List Nat} {s : State} (h : Keeps q r s) : Keeps q r (nmRespond x1 x2 x3 x4 s) := by
  unfold nmRespond
  try dsimp only
  repeat' (first
    | (with_reducible assumption) | (with_reducible apply keeps_submitMsg))

theorem keeps_nmReject {q : Fix} {r : State} {x1 : Nat} {s : State} (h : Keeps q r s) : Keeps q r (nmReject x1 s) := by
  unfold nmReject
  try dsimp only
  repeat' (first
    | (with_reducible assumption) | (with_reducible apply keeps_bump) | (with_reducible apply keeps_setField))

theorem keeps_nmRun {q : Fix} {r : State} {x1 : Bytes} {s : State} (h : Keeps q r s) : Keeps q r (nmRun x1 s) := by
  unfold nmRun
  try dsimp only
  repeat' (first
    | (with_reducible assumption) | intro _ | (with_reducible apply keeps_bump) | (with_reducible apply keeps_nmRespond)
    | (with_reducible apply keeps_nmReads) | (with_reducible apply keeps_hostWrites) | simp only [↓keeps_mk]
    | (with_reducible refine keeps_of_eq (by with_reducible assumption) ?_) | split)

theorem keeps_nmTake {q : Fix} {r : State} {x1 : Bytes} {s : State} (h : Keeps q r s) : Keeps q r (nmTake x1 s) := by
  unfold nmTake
  try dsimp only
  repeat' (first
    | (with_reducible assumption) | intro _ | (with_reducible apply keeps_nmReject) | (with_reducible apply keeps_nmRun) | simp only [↓keeps_mk]
    | (with_reducible refine keeps_of_eq (by with_reducible assumption) ?_) | (with_reducible apply keeps_ite)
    | (with_reducible refine keeps_verifyRoles' (by with_reducible assumption) ?_) | split)

theorem keeps_discardTxn {q : Fix} {r : State} {x1 : Nat} {x2 : Txn} {s : State} (h : Keeps q r s) : Keeps q r (discardTxn x1 x2 s) := by
  unfold discardTxn
  try dsimp only
  repeat' (first
    | (with_reducible assumption) | (with_reducible apply keeps_setInt) | (with_reducible apply keeps_bump) | simp only [↓keeps_mk])

theorem keeps_hostTxn {q : Fix} {r : State} {x1 : Nat} {x2 : Txn} {x3 : State → State} {s : State} (h : Keeps q r s) (k3 : ∀ y0, Keeps q r y0 → Keeps q r (x3 y0)) : Keeps q r (hostTxn x1 x2 x3 s) := by
  unfold hostTxn
  try dsimp only
  repeat' (first
    | (with_reducible assumption) | intro _ | (with_reducible apply keeps_discardTxn) | (with_reducible apply keeps_hostStatus) | simp only [↓keeps_mk]
    | (with_reducible refine keeps_of_eq (by with_reducible assumption) ?_) | (with_reducible apply keeps_ite) | (with_reducible apply k3) | split)

theorem keeps_defer {q : Fix} {r : State} {x1 : Txn} {x2 x3 : Nat} {x4 : List Word} {x5 : Bool} {s : State} (h : Keeps q r s) : Keeps q r (defer x1 x2 x3 x4 x5 s) := by
  unfold defer
  try dsimp only
  repeat' (first
    | (with_reducible assumption) | simp only [↓keeps_mk])

theorem keeps_deferredComplete {q : Fix} {r s : State} (h : Keeps q r s) : Keeps q r (deferredComplete s) := by
  unfold deferredComplete
  try dsimp only
  repeat' (first
    | (with_reducible assumption) | (with_reducible apply keeps_setInt) | (with_reducible apply keeps_bump) | simp only [↓keeps_mk]
    | (with_reducible refine keeps_of_eq (by with_reducible assumption) ?_) | (with_reducible apply keeps_ite) | split)

theorem keeps_runWrites {q : Fix} {r : State} {x1 : Nat} {x2 : Txn} {s : State} (h : Keeps q r s) : Keeps q r (runWrites x1 x2 s) := by
  unfold runWrites
  try dsimp only
  repeat' (first
    | (with_reducible assumption) | intro _ | (with_reducible apply keeps_setWindow) | (with_reducible apply keeps_hostStatus)
    | (with_reducible apply keeps_recordRefusal) | (with_reducible apply keeps_hostWrites) | (with_reducible apply keeps_remoteWrites)
    | (with_reducible apply keeps_defer) | simp only [↓keeps_mk] | (with_reducible refine keeps_of_eq (by with_reducible assumption) ?_)
    | (with_reducible apply keeps_ite) | (with_reducible apply keeps_ite1) | split)

theorem keeps_runRead {q : Fix} {r : State} {x1 : Txn} {s : State} (h : Keeps q r s) : Keeps q r (runRead x1 s) := by
  unfold runRead
  try dsimp only
  repeat' (first
    | (with_reducible assumption) | intro _ | (with_reducible apply keeps_hostStatus) | (with_reducible apply keeps_defer)
    | (with_reducible apply keeps_remoteSend) | (with_reducible apply keeps_readWords) | simp only [↓keeps_mk]
    | (with_reducible refine keeps_of_eq (by with_reducible assumption) ?_) | (with_reducible apply keeps_ite))

theorem keeps_runSend {q : Fix} {r : State} {x1 : Txn} {s : State} (h : Keeps q r s) : Keeps q r (runSend x1 s) := by
  unfold runSend
  try dsimp only
  repeat' (first
    | (with_reducible assumption) | (with_reducible apply keeps_hostStatus) | (with_reducible apply keeps_submitMsg) | simp only [↓keeps_mk]
    | (with_reducible apply keeps_ite))

theorem keeps_runRecv {q : Fix} {r : State} {x1 : Txn} {s : State} (h : Keeps q r s) : Keeps q r (runRecv x1 s) := by
  unfold runRecv
  try dsimp only
  repeat' (first
    | (with_reducible assumption) | (with_reducible apply keeps_hostStatus) | (with_reducible refine keeps_takeHead' (by with_reducible assumption) ?_)
    | (with_reducible apply keeps_defer) | simp only [↓keeps_mk] | (with_reducible refine keeps_of_eq (by with_reducible assumption) ?_)
    | (with_reducible apply keeps_ite) | (with_reducible apply keeps_ite1) | split)

theorem keeps_runService {q : Fix} {r : State} {x1 : SvcReq → State → State × SvcOut} {x2 : SvcReq} {s : State} (h : Keeps q r s) (k1 : ∀ y0 y1, Keeps q r y1 → Keeps q r (x1 y0 y1).1) : Keeps q r (runService x1 x2 s).1 := by
  unfold runService
  try dsimp only
  repeat' (first
    | (with_reducible assumption) | intro _ | simp only [↓keeps_mk] | (with_reducible refine keeps_of_eq (by with_reducible assumption) ?_)
    | (with_reducible apply keeps_ite) | (with_reducible apply keeps_ite1) | (with_reducible apply k1))

theorem keeps_fabricService {q : Fix} {r : State} {x1 : Nat} {x2 : SvcReq → State → State × SvcOut} {s : State} (h : Keeps q r s) (k2 : ∀ y0 y1, Keeps q r y1 → Keeps q r (x2 y0 y1).1) : Keeps q r (fabricService x1 x2 s) := by
  unfold fabricService
  try dsimp only
  repeat' (first
    | (with_reducible assumption) | intro _ | (with_reducible refine keeps_takeIf' (by with_reducible assumption) ?_)
    | (with_reducible apply keeps_takeRequest) | (with_reducible apply keeps_runService) | simp only [↓keeps_mk]
    | (with_reducible refine keeps_of_eq (by with_reducible assumption) ?_) | (with_reducible apply k2) | split)

theorem keeps_runServiceTxn {q : Fix} {r : State} {x1 : Nat} {x2 : SvcReq → State → State × SvcOut} {x3 : Txn} {s : State} (h : Keeps q r s) (k2 : ∀ y0 y1, Keeps q r y1 → Keeps q r (x2 y0 y1).1) : Keeps q r (runServiceTxn x1 x2 x3 s) := by
  unfold runServiceTxn
  try dsimp only
  repeat' (first
    | (with_reducible assumption) | intro _ | (with_reducible apply keeps_hostStatus) | (with_reducible apply keeps_takeRequest)
    | (with_reducible apply keeps_runService) | (with_reducible apply keeps_defer) | simp only [↓keeps_mk]
    | (with_reducible refine keeps_of_eq (by with_reducible assumption) ?_) | (with_reducible apply keeps_ite) | (with_reducible apply keeps_ite1)
    | (with_reducible apply k2) | split)

theorem keeps_serve {q : Fix} {r : State} {x1 : SvcPath} {x2 : Nat} {x3 : SvcReq → State → State × SvcOut} {s : State} (h : Keeps q r s) (k3 : ∀ y0 y1, Keeps q r y1 → Keeps q r (x3 y0 y1).1) : Keeps q r (serve x1 x2 x3 s) := by
  unfold serve
  try dsimp only
  repeat' (first
    | (with_reducible assumption) | intro _ | (with_reducible apply keeps_fabricService) | (with_reducible apply keeps_hostTxn)
    | (with_reducible apply keeps_runServiceTxn) | simp only [↓keeps_mk] | (with_reducible refine keeps_of_eq (by with_reducible assumption) ?_)
    | (with_reducible apply keeps_ite) | (with_reducible apply k3) | split)

theorem keeps_badService {q : Fix} {r s : State} (h : Keeps q r s) : Keeps q r (badService s) := by
  unfold badService
  try dsimp only
  repeat' (first
    | (with_reducible assumption) | intro _ | (with_reducible refine keeps_takeIf' (by with_reducible assumption) ?_)
    | (with_reducible apply keeps_takeFree) | (with_reducible apply keeps_takeRequest) | (with_reducible apply keeps_bump) | simp only [↓keeps_mk]
    | (with_reducible refine keeps_of_eq (by with_reducible assumption) ?_) | (with_reducible apply keeps_ite) | (with_reducible apply keeps_ite1) | split)

theorem keeps_deliverAnswer {q : Fix} {r : State} {x1 : SpJob} {x2 : Bytes} {s : State} (h : Keeps q r s) : Keeps q r (deliverAnswer x1 x2 s) := by
  unfold deliverAnswer
  try dsimp only
  repeat' (first
    | (with_reducible assumption) | (with_reducible apply keeps_submitMsg) | simp only [↓keeps_mk]
    | (with_reducible refine keeps_of_eq (by with_reducible assumption) ?_) | (with_reducible apply keeps_ite) | split)

theorem keeps_finishJob {q : Fix} {r : State} {x1 : SpJob} {x2 : Nat} {s : State} (h : Keeps q r s) : Keeps q r (finishJob x1 x2 s) := by
  unfold finishJob
  try dsimp only
  repeat' (first
    | (with_reducible assumption) | (with_reducible apply keeps_endJob) | (with_reducible apply keeps_deliverAnswer))

theorem keeps_remoteResult {q : Fix} {r : State} {x1 x2 : Nat} {x3 : List Word} {s : State} (h : Keeps q r s) : Keeps q r (remoteResult x1 x2 x3 s) := by
  unfold remoteResult
  try dsimp only
  repeat' (first
    | (with_reducible assumption) | simp only [↓keeps_mk] | (with_reducible refine keeps_of_eq (by with_reducible assumption) ?_) | split)

theorem keeps_debugResult {q : Fix} {r : State} {x1 : Bool} {x2 x3 x4 : Nat} {s : State} (h : Keeps q r s) : Keeps q r (debugResult x1 x2 x3 x4 s) := by
  unfold debugResult
  try dsimp only
  repeat' (first
    | (with_reducible assumption) | (with_reducible apply keeps_setSberror) | simp only [↓keeps_mk] | (with_reducible apply keeps_ite))

theorem keeps_remoteAnswer {q : Fix} {r : State} {x1 : XMsg} {s : State} (h : Keeps q r s) : Keeps q r (remoteAnswer x1 s) := by
  unfold remoteAnswer
  try dsimp only
  repeat' (first
    | (with_reducible assumption) | intro _ | (with_reducible apply keeps_remoteResult) | (with_reducible apply keeps_debugResult) | simp only [↓keeps_mk]
    | (with_reducible apply keeps_foldl) | (with_reducible apply keeps_foldP) | (with_reducible refine keeps_of_eq (by with_reducible assumption) ?_)
    | (with_reducible apply keeps_ite) | (with_reducible apply keeps_ite1) | split)

theorem keeps_remoteDown {q : Fix} {r s : State} (h : Keeps q r s) : Keeps q r (remoteDown s) := by
  unfold remoteDown
  try dsimp only
  repeat' (first
    | (with_reducible assumption) | intro _ | (with_reducible apply keeps_setSberror) | (with_reducible apply keeps_remoteResult) | simp only [↓keeps_mk]
    | (with_reducible apply keeps_foldl) | (with_reducible apply keeps_foldP) | (with_reducible refine keeps_of_eq (by with_reducible assumption) ?_)
    | (with_reducible apply keeps_ite))

theorem keeps_takeAnswers {q : Fix} {r s : State} (h : Keeps q r s) : Keeps q r (takeAnswers s) := by
  unfold takeAnswers
  try dsimp only
  repeat' (first
    | (with_reducible assumption) | intro _ | (with_reducible apply keeps_remoteAnswer) | simp only [↓keeps_mk] | (with_reducible apply keeps_foldl))

theorem keeps_advanceTime {q : Fix} {r s : State} (h : Keeps q r s) (hnow : ¬ q.now) : Keeps q r (advanceTime s) := by
  have k : ∀ ti : Time, ∀ c : Nat, Keeps q r { s with time := ti, keeper.ctr := c } := fun ti c =>
    ⟨⟨h.holds.pending, h.holds.fuses, h.holds.regs, h.holds.cells, h.holds.flash, h.holds.otp, fun e => absurd e hnow,
      h.holds.permit, h.holds.key, h.holds.enter⟩, h.pins⟩
  unfold advanceTime
  refine keeps_ite ?_ (k _ _)
  split
  · exact k _ _
  · exact k _ _

theorem keeps_horizonStep {q : Fix} {r : State} {x1 : Nat} {s : State} (h : Keeps q r s) : Keeps q r (horizonStep x1 s) := by
  unfold horizonStep
  try dsimp only
  repeat' (first
    | (with_reducible assumption) | (with_reducible apply keeps_bump) | simp only [↓keeps_mk] | (with_reducible apply keeps_ite))

theorem keeps_presentFcan {q : Fix} {r : State} {x1 : XMsg} {s : State} (h : Keeps q r s) : Keeps q r (presentFcan x1 s) := by
  unfold presentFcan
  try dsimp only
  repeat' (first
    | (with_reducible assumption) | (with_reducible apply keeps_takeCredit) | (with_reducible apply keeps_takeStatus)
    | (with_reducible apply keeps_submitAt) | simp only [↓keeps_mk] | (with_reducible apply keeps_ite))

theorem keeps_presentOpaque {q : Fix} {r : State} {x1 : XMsg} {s : State} (h : Keeps q r s) : Keeps q r (presentOpaque x1 s) := by
  unfold presentOpaque
  try dsimp only
  repeat' (first
    | (with_reducible assumption) | (with_reducible apply keeps_submitAt))

theorem keeps_presentField {q : Fix} {r : State} {x1 : XMsg} {s : State} (h : Keeps q r s) : Keeps q r (presentField x1 s) := by
  unfold presentField
  try dsimp only
  repeat' (first
    | (with_reducible assumption) | (with_reducible apply keeps_bump) | simp only [↓keeps_mk] | (with_reducible apply keeps_ite))

theorem keeps_takeReady {q : Fix} {r s : State} {x1 : Bool} {x2 : Nat → Bool} (h : Keeps q r s) : Keeps q r (takeReady x1 x2 s).2 := by
  unfold takeReady
  exact keeps_setEnd h

theorem keeps_presentAll {q : Fix} {r s : State} (h : Keeps q r s) : Keeps q r (presentAll s).1 := by
  unfold presentAll
  try dsimp only
  repeat' (first
    | (with_reducible assumption) | intro _ | (with_reducible apply keeps_presentFcan) | (with_reducible apply keeps_presentOpaque)
    | (with_reducible apply keeps_presentField) | (with_reducible apply keeps_presentFcan) | (with_reducible apply keeps_presentOpaque)
    | (with_reducible apply keeps_presentField) | simp only [↓keeps_mk] | (with_reducible apply keeps_foldl) | (with_reducible apply keeps_foldP)
    | (with_reducible refine keeps_of_eq (by with_reducible assumption) ?_) | (with_reducible apply keeps_ite) | (with_reducible apply keeps_ite1)
    | (with_reducible refine keeps_of_eq2 (by with_reducible assumption) ?_) | (with_reducible apply keeps_takeReady))

theorem keeps_hostEvent {q : Fix} {r : State} {x1 : State × List Ask} {x2 : FEvent} (h1 : Keeps q r x1.1) : Keeps q r (hostEvent x1 x2).1 := by
  unfold hostEvent
  try dsimp only
  repeat' (first
    | (with_reducible assumption) | (with_reducible apply keeps_classifyFault) | (with_reducible apply keeps_reportFault) | simp only [↓keeps_mk]
    | (with_reducible refine keeps_of_eq (by with_reducible assumption) ?_) | split)

theorem keeps_fieldEvent {q : Fix} {r : State} {x1 : State × List Ask} {x2 : FEvent} (h1 : Keeps q r x1.1) : Keeps q r (fieldEvent x1 x2).1 := by
  unfold fieldEvent
  try dsimp only
  repeat' (first
    | (with_reducible assumption) | (with_reducible apply keeps_classifyFault) | (with_reducible apply keeps_fieldReport) | simp only [↓keeps_mk]
    | (with_reducible refine keeps_of_eq (by with_reducible assumption) ?_) | split)

theorem keeps_moveUnits {q : Fix} {r : State} {x1 : List Ask} {s : State} (h : Keeps q r s) : Keeps q r (moveUnits x1 s) := by
  unfold moveUnits
  try dsimp only
  repeat' (first
    | (with_reducible assumption) | intro _ | (with_reducible apply keeps_isolateDuty) | (with_reducible apply keeps_repairDuty) | simp only [↓keeps_mk]
    | (with_reducible apply keeps_foldl) | (with_reducible apply keeps_foldP) | (with_reducible refine keeps_of_eq (by with_reducible assumption) ?_)
    | (with_reducible apply keeps_ite))

theorem keeps_hostReact {q : Fix} {r : State} {x1 : List Ask} {s : State} (h : Keeps q r s) : Keeps q r (hostReact x1 s) := by
  unfold hostReact
  try dsimp only
  repeat' (first
    | (with_reducible assumption) | intro _ | (with_reducible apply keeps_moveUnits) | (with_reducible apply keeps_enterHold)
    | (with_reducible apply keeps_degrade) | simp only [↓keeps_mk] | (with_reducible refine keeps_of_eq (by with_reducible assumption) ?_)
    | (with_reducible apply keeps_ite))

theorem keeps_fieldHold {q : Fix} {r s : State} (h : Keeps q r s) : Keeps q r (fieldHold s) := by
  unfold fieldHold
  try dsimp only
  repeat' (first
    | (with_reducible assumption) | (with_reducible apply keeps_withdraw) | simp only [↓keeps_mk] | (with_reducible apply keeps_ite))

theorem keeps_fieldReact {q : Fix} {r : State} {x1 : List Ask} {s : State} (h : Keeps q r s) : Keeps q r (fieldReact x1 s) := by
  unfold fieldReact
  try dsimp only
  repeat' (first
    | (with_reducible assumption) | intro _ | (with_reducible apply keeps_moveUnits) | (with_reducible apply keeps_fieldHold) | simp only [↓keeps_mk]
    | (with_reducible refine keeps_of_eq (by with_reducible assumption) ?_) | (with_reducible apply keeps_ite))

theorem keeps_hostFaults {q : Fix} {r : State} {x1 : Nat} {s : State} (h : Keeps q r s) : Keeps q r (hostFaults x1 s) := by
  unfold hostFaults
  try dsimp only
  repeat' (first
    | (with_reducible assumption) | intro _ | (with_reducible apply keeps_hostEvent) | (with_reducible apply keeps_settleLatch)
    | (with_reducible apply keeps_hostReact) | simp only [↓keeps_mk] | (with_reducible apply keeps_foldl) | (with_reducible apply keeps_foldP)
    | (with_reducible refine keeps_of_eq (by with_reducible assumption) ?_) | (with_reducible apply keeps_ite))

theorem keeps_fieldFaults {q : Fix} {r s : State} (h : Keeps q r s) : Keeps q r (fieldFaults s) := by
  unfold fieldFaults
  try dsimp only
  repeat' (first
    | (with_reducible assumption) | intro _ | (with_reducible apply keeps_fieldEvent) | (with_reducible apply keeps_fieldReact) | simp only [↓keeps_mk]
    | (with_reducible apply keeps_foldl) | (with_reducible apply keeps_foldP) | (with_reducible refine keeps_of_eq (by with_reducible assumption) ?_)
    | split)

theorem keeps_handleReport {q : Fix} {r : State} {x1 : XMsg} {s : State} (h : Keeps q r s) : Keeps q r (handleReport x1 s) := by
  unfold handleReport
  try dsimp only
  repeat' (first
    | (with_reducible assumption) | (with_reducible apply keeps_reportFault) | (with_reducible apply keeps_degrade) | simp only [↓keeps_mk]
    | (with_reducible apply keeps_ite))

theorem keeps_fieldTick {q : Fix} {r s : State} (h : Keeps q r s) : Keeps q r (fieldTick s) := by
  unfold fieldTick
  try dsimp only
  repeat' (first
    | (with_reducible assumption) | (with_reducible apply keeps_sendJournal) | (with_reducible apply keeps_budStep1)
    | (with_reducible apply keeps_settleLatch) | (with_reducible apply keeps_fieldFaults) | simp only [↓keeps_mk] | (with_reducible apply keeps_ite))

theorem keeps_commitTick {q : Fix} {r : State} {x1 : Nat} {s : State} (h : Keeps q r s) : Keeps q r (commitTick x1 s) := by
  unfold commitTick
  try dsimp only
  repeat' (first
    | (with_reducible assumption) | (with_reducible apply keeps_presentAll) | (with_reducible apply keeps_horizonStep)
    | (with_reducible apply keeps_hostFaults) | (with_reducible apply keeps_ledgerCommit) | (with_reducible apply keeps_publishTick)
    | (with_reducible apply keeps_emitTraces) | (with_reducible apply keeps_fieldTick) | (with_reducible apply keeps_budStep1)
    | (with_reducible apply keeps_notePorts) | (with_reducible apply keeps_otpAsk) | (with_reducible apply keeps_modeTick)
    | (with_reducible apply keeps_cbsTick))

theorem keeps_tickCommit {q : Fix} {r : State} {x1 : List Int} {s : State} (h : Keeps q r s) (hnow : ¬ q.now) : Keeps q r (tickCommit x1 s) := by
  unfold tickCommit
  try dsimp only
  repeat' (first
    | (with_reducible assumption) | (with_reducible apply keeps_commitTick) | (with_reducible apply keeps_intPins) | (with_reducible apply keeps_audioTick)
    | (with_reducible apply keeps_advanceTime) | simp only [↓keeps_mk] | (with_reducible apply keeps_ite))

end Sys2Proof.Laws
end

