-- ==== Sys2Proof/Laws/KeepsRows.lean ====
section
/-! SUPPORT. What the meanings of each command keep: one lemma for each, as Laws/Keeps.lean tells it. -/

namespace Sys2Proof.Laws

open Sys2Proof Sys2Proof.Machine

theorem keeps_poweredReset {q : Fix} {r : State} {x1 : Nat} {s : State} (h : Keeps q r s) : Keeps q r (poweredReset x1 s) := by
  unfold poweredReset
  try dsimp only
  repeat' (first
    | (with_reducible assumption) | (with_reducible apply keeps_dropFieldDebug) | (with_reducible apply keeps_hostReset) | simp only [↓keeps_mk]
    | (with_reducible apply keeps_ite))

theorem keeps_execPowerOnReset {q : Fix} {r : State} {x1 : Bool} {s t : State} (e : execPowerOnReset x1 s = .next t) (h : Keeps q r s) : Keeps q r t := by
  unfold execPowerOnReset at e
  obtain rfl := Host.Outcome.next.inj e
  try dsimp only
  repeat' (first
    | (with_reducible assumption) | (with_reducible apply keeps_dropFieldDebug) | (with_reducible apply keeps_hostReset) | simp only [↓keeps_mk]
    | (with_reducible apply keeps_ite))

theorem keeps_execPinReset {q : Fix} {r s t : State} (e : execPinReset s = .next t) (h : Keeps q r s) : Keeps q r t := by
  unfold execPinReset at e
  obtain rfl := Host.Outcome.next.inj e
  try dsimp only
  repeat' (first
    | (with_reducible assumption) | (with_reducible apply keeps_poweredReset))

theorem keeps_execReset {q : Fix} {r : State} {x1 : Txn} {s t : State} (e : execReset x1 s = .next t) (h : Keeps q r s) : Keeps q r t := by
  unfold execReset at e
  obtain rfl := Host.Outcome.next.inj e
  try dsimp only
  repeat' (first
    | (with_reducible assumption) | intro _ | (with_reducible apply keeps_hostTxn) | (with_reducible apply keeps_poweredReset))

theorem keeps_execSupplyMonitorReset {q : Fix} {r s t : State} (e : execSupplyMonitorReset s = .next t) (h : Keeps q r s) : Keeps q r t := by
  unfold execSupplyMonitorReset at e
  obtain rfl := Host.Outcome.next.inj e
  try dsimp only
  repeat' (first
    | (with_reducible assumption) | (with_reducible apply keeps_poweredReset))

theorem keeps_execClockMonitorReset {q : Fix} {r s t : State} (e : execClockMonitorReset s = .next t) (h : Keeps q r s) : Keeps q r t := by
  unfold execClockMonitorReset at e
  obtain rfl := Host.Outcome.next.inj e
  try dsimp only
  repeat' (first
    | (with_reducible assumption) | (with_reducible apply keeps_poweredReset) | simp only [↓keeps_mk] | (with_reducible apply keeps_ite))

theorem keeps_execTemperatureMonitorReset {q : Fix} {r s t : State} (e : execTemperatureMonitorReset s = .next t) (h : Keeps q r s) : Keeps q r t := by
  unfold execTemperatureMonitorReset at e
  obtain rfl := Host.Outcome.next.inj e
  try dsimp only
  repeat' (first
    | (with_reducible assumption) | (with_reducible apply keeps_poweredReset))

theorem keeps_execResetEnd {q : Fix} {r s t : State} (e : execResetEnd s = .next t) (h : Keeps q r s) (hnow : ¬ q.now) : Keeps q r t := by
  unfold execResetEnd at e
  obtain rfl := Host.Outcome.next.inj e
  try dsimp only
  repeat' (first
    | (with_reducible assumption) | (with_reducible apply keeps_newChallenge) | (with_reducible apply keeps_resetEnd) | simp only [↓keeps_mk]
    | (with_reducible apply keeps_ite))

theorem keeps_execVsupHLoss {q : Fix} {r s t : State} (e : execVsupHLoss s = .next t) (h : Keeps q r s) (hkey : ¬ q.key) (hlose : ∀ a b, b ≠ 3 → b = a ∨ q.enter a b → q.enter a 2) : Keeps q r t := by
  unfold execVsupHLoss at e
  obtain rfl := Host.Outcome.next.inj e
  try dsimp only
  repeat' (first
    | (with_reducible assumption) | (with_reducible apply keeps_dropFieldDebug) | (with_reducible apply keeps_supplyLoss))

theorem keeps_execKeeperLoss {q : Fix} {r s t : State} (e : execKeeperLoss s = .next t) (h : Keeps q r s) (hkey : ¬ q.key)
    (hlose : ∀ a b, b ≠ 3 → b = a ∨ q.enter a b → q.enter a 2) : Keeps q r t := by
  unfold execKeeperLoss at e
  obtain rfl := Host.Outcome.next.inj e
  exact keeps_ite h (keeps_modePins (holds_loseKeeper (holds_upd h.holds rfl rfl rfl rfl) hkey hlose))

theorem keeps_execKeeperSupplyValid {q : Fix} {r s t : State} (e : execKeeperSupplyValid s = .next t) (h : Keeps q r s) : Keeps q r t := by
  unfold execKeeperSupplyValid at e
  obtain rfl := Host.Outcome.next.inj e
  exact keeps_ite h (keeps_modePins (holds_upd h.holds rfl rfl rfl rfl))

theorem keeps_execKeeperOscillatorTick {q : Fix} {r s t : State} (e : execKeeperOscillatorTick s = .next t) (h : Keeps q r s) : Keeps q r t := by
  unfold execKeeperOscillatorTick at e
  obtain rfl := Host.Outcome.next.inj e
  try dsimp only
  repeat' (first
    | (with_reducible assumption) | simp only [↓keeps_mk] | (with_reducible apply keeps_ite))

theorem keeps_execFieldPowerOn {q : Fix} {r s t : State} (e : execFieldPowerOn s = .next t) (h : Keeps q r s) : Keeps q r t := by
  unfold execFieldPowerOn at e
  obtain rfl := Host.Outcome.next.inj e
  try dsimp only
  repeat' (first
    | (with_reducible assumption) | (with_reducible apply keeps_fieldReset) | simp only [↓keeps_mk] | (with_reducible apply keeps_ite))

theorem keeps_execFieldMonitorReset {q : Fix} {r s t : State} (e : execFieldMonitorReset s = .next t) (h : Keeps q r s) : Keeps q r t := by
  unfold execFieldMonitorReset at e
  obtain rfl := Host.Outcome.next.inj e
  try dsimp only
  repeat' (first
    | (with_reducible assumption) | (with_reducible apply keeps_fieldReset) | simp only [↓keeps_mk] | (with_reducible apply keeps_ite))

theorem keeps_execFieldResetEnd {q : Fix} {r s t : State} (e : execFieldResetEnd s = .next t) (h : Keeps q r s) : Keeps q r t := by
  unfold execFieldResetEnd at e
  obtain rfl := Host.Outcome.next.inj e
  try dsimp only
  repeat' (first
    | (with_reducible assumption) | simp only [↓keeps_mk] | (with_reducible apply keeps_ite))

theorem keeps_execFieldSupplyLoss {q : Fix} {r s t : State} (e : execFieldSupplyLoss s = .next t) (h : Keeps q r s) : Keeps q r t := by
  unfold execFieldSupplyLoss at e
  obtain rfl := Host.Outcome.next.inj e
  try dsimp only
  repeat' (first
    | (with_reducible assumption) | (with_reducible apply keeps_fieldReset) | simp only [↓keeps_mk] | (with_reducible apply keeps_ite))

theorem keeps_execBuildStart {q : Fix} {r s t : State} (e : execBuildStart s = .next t) (h : Keeps q r s) : Keeps q r t := by
  unfold execBuildStart at e
  obtain rfl := Host.Outcome.next.inj e
  try dsimp only
  repeat' (first
    | (with_reducible assumption) | (with_reducible apply keeps_buildStart) | simp only [↓keeps_mk] | (with_reducible apply keeps_ite))

theorem keeps_execBuildSlotFail {q : Fix} {r s t : State} (e : execBuildSlotFail s = .next t) (h : Keeps q r s) : Keeps q r t := by
  unfold execBuildSlotFail at e
  obtain rfl := Host.Outcome.next.inj e
  try dsimp only
  repeat' (first
    | (with_reducible assumption) | (with_reducible apply keeps_slotFail))

theorem keeps_execBuildTimeout {q : Fix} {r s t : State} (e : execBuildTimeout s = .next t) (h : Keeps q r s) : Keeps q r t := by
  unfold execBuildTimeout at e
  obtain rfl := Host.Outcome.next.inj e
  try dsimp only
  repeat' (first
    | (with_reducible assumption) | (with_reducible apply keeps_buildTimeout))

theorem keeps_execBuildCommit {q : Fix} {r s t : State} (e : execBuildCommit s = .next t) (h : Keeps q r s) : Keeps q r t := by
  unfold execBuildCommit at e
  obtain rfl := Host.Outcome.next.inj e
  try dsimp only
  repeat' (first
    | (with_reducible assumption) | (with_reducible apply keeps_buildCommit))

theorem keeps_execRunEntry {q : Fix} {r s t : State} (e : execRunEntry s = .next t) (h : Keeps q r s) : Keeps q r t := by
  unfold execRunEntry at e
  obtain rfl := Host.Outcome.next.inj e
  try dsimp only
  repeat' (first
    | (with_reducible assumption) | (with_reducible apply keeps_runEntry))

theorem keeps_execOtpFuseProgrammed {q : Fix} {r : State} {x1 : Bool} {s t : State} (e : execOtpFuseProgrammed x1 s = .next t) (h : Keeps q r s) (hotp : ¬ q.otp) (hkey : ¬ q.key) (hroot : ∀ a, q.enter a 0) : Keeps q r t := by
  unfold execOtpFuseProgrammed at e
  obtain rfl := Host.Outcome.next.inj e
  try dsimp only
  repeat' (first
    | (with_reducible assumption) | (with_reducible apply keeps_rootFuse) | (with_reducible apply keeps_imageFuse) | simp only [↓keeps_mk]
    | (with_reducible apply keeps_ite))

theorem keeps_closeHost {q : Fix} {r : State} {x1 : Origin} {s : State} (h : Keeps q r s) : Keeps q r (closeHost x1 s) := by
  unfold closeHost
  try dsimp only
  repeat' (first
    | (with_reducible assumption) | (with_reducible apply keeps_setWindow) | simp only [↓keeps_mk] | (with_reducible apply keeps_ite))

theorem keeps_masterWrite {q : Fix} {r : State} {x1 : Origin} {x2 x3 : Nat} {s : State} (h : Keeps q r s) : Keeps q r (masterWrite x1 x2 x3 s) := by
  unfold masterWrite
  try dsimp only
  repeat' (first
    | (with_reducible assumption) | (with_reducible apply keeps_closeHost) | (with_reducible apply keeps_busWrite) | simp only [↓keeps_mk]
    | (with_reducible refine keeps_of_eq (by with_reducible assumption) ?_) | (with_reducible apply keeps_ite))

theorem keeps_masterRead {q : Fix} {r : State} {x1 : Origin} {x2 : Nat} {s : State} (h : Keeps q r s) : Keeps q r (masterRead x1 x2 s) := by
  unfold masterRead
  try dsimp only
  repeat' (first
    | (with_reducible assumption) | (with_reducible apply keeps_readReg) | simp only [↓keeps_mk]
    | (with_reducible refine keeps_of_eq (by with_reducible assumption) ?_) | (with_reducible apply keeps_ite))

theorem keeps_execSysCtrlSleep {q : Fix} {r : State} {x1 : Origin} {s t : State} (e : execSysCtrlSleep x1 s = .next t) (h : Keeps q r s) : Keeps q r t := by
  unfold execSysCtrlSleep at e
  obtain rfl := Host.Outcome.next.inj e
  try dsimp only
  repeat' (first
    | (with_reducible assumption) | (with_reducible apply keeps_masterWrite))

theorem keeps_runSleep {q : Fix} {r s : State} (h : Keeps q r s) : Keeps q r (runSleep s) := by
  unfold runSleep
  try dsimp only
  repeat' (first
    | (with_reducible assumption) | (with_reducible apply keeps_hostWrites) | (with_reducible apply keeps_hostStatus))

theorem keeps_execSleep {q : Fix} {r : State} {x1 : Txn} {s t : State} (e : execSleep x1 s = .next t) (h : Keeps q r s) : Keeps q r t := by
  unfold execSleep at e
  obtain rfl := Host.Outcome.next.inj e
  try dsimp only
  repeat' (first
    | (with_reducible assumption) | intro _ | (with_reducible apply keeps_hostTxn) | (with_reducible apply keeps_runSleep))

theorem keeps_execStandbyDrainEnd {q : Fix} {r s t : State} (e : execStandbyDrainEnd s = .next t) (h : Keeps q r s) : Keeps q r t := by
  unfold execStandbyDrainEnd at e
  obtain rfl := Host.Outcome.next.inj e
  try dsimp only
  repeat' (first
    | (with_reducible assumption) | (with_reducible apply keeps_finishStandby) | simp only [↓keeps_mk] | (with_reducible apply keeps_ite))

theorem keeps_execWakeEvent {q : Fix} {r : State} {x1 x2 : Nat} {s t : State} (e : execWakeEvent x1 x2 s = .next t) (h : Keeps q r s) : Keeps q r t := by
  unfold execWakeEvent at e
  obtain rfl := Host.Outcome.next.inj e
  try dsimp only
  repeat' (first
    | (with_reducible assumption) | (with_reducible apply keeps_wakeEvent))

theorem keeps_execWakeDecision {q : Fix} {r s t : State} (e : execWakeDecision s = .next t) (h : Keeps q r s) : Keeps q r t := by
  unfold execWakeDecision at e
  obtain rfl := Host.Outcome.next.inj e
  try dsimp only
  repeat' (first
    | (with_reducible assumption) | (with_reducible apply keeps_wakeDecide) | (with_reducible apply keeps_newChallenge) | simp only [↓keeps_mk]
    | (with_reducible apply keeps_ite))

theorem keeps_execWakeOutPulseEnd {q : Fix} {r s t : State} (e : execWakeOutPulseEnd s = .next t) (h : Keeps q r s) : Keeps q r t := by
  unfold execWakeOutPulseEnd at e
  obtain rfl := Host.Outcome.next.inj e
  try dsimp only
  repeat' (first
    | (with_reducible assumption) | (with_reducible apply keeps_pulseEnd))

theorem keeps_runResume {q : Fix} {r s : State} (h : Keeps q r s) : Keeps q r (runResume s) := by
  unfold runResume
  try dsimp only
  repeat' (first
    | (with_reducible assumption) | (with_reducible apply keeps_hostStatus) | (with_reducible apply keeps_wakeEvent))

theorem keeps_execResume {q : Fix} {r : State} {x1 : Txn} {s t : State} (e : execResume x1 s = .next t) (h : Keeps q r s) : Keeps q r t := by
  unfold execResume at e
  obtain rfl := Host.Outcome.next.inj e
  try dsimp only
  repeat' (first
    | (with_reducible assumption) | intro _ | (with_reducible apply keeps_hostTxn) | (with_reducible apply keeps_runResume))

theorem keeps_execSysDegcauseClear {q : Fix} {r : State} {x1 : Origin} {s t : State} (e : execSysDegcauseClear x1 s = .next t) (h : Keeps q r s) : Keeps q r t := by
  unfold execSysDegcauseClear at e
  obtain rfl := Host.Outcome.next.inj e
  try dsimp only
  repeat' (first
    | (with_reducible assumption) | (with_reducible apply keeps_masterWrite))

theorem keeps_execTickCommit {q : Fix} {r : State} {x1 : List Int} {s t : State} (e : execTickCommit x1 s = .next t) (h : Keeps q r s) (hnow : ¬ q.now) : Keeps q r t := by
  unfold execTickCommit at e
  obtain rfl := Host.Outcome.next.inj e
  try dsimp only
  repeat' (first
    | (with_reducible assumption) | (with_reducible apply keeps_tickCommit))

theorem keeps_execTimRateWrite {q : Fix} {r : State} {x1 : Origin} {x2 : Word} {s t : State} (e : execTimRateWrite x1 x2 s = .next t) (h : Keeps q r s) : Keeps q r t := by
  unfold execTimRateWrite at e
  obtain rfl := Host.Outcome.next.inj e
  try dsimp only
  repeat' (first
    | (with_reducible assumption) | (with_reducible apply keeps_masterWrite))

theorem keeps_execTimPtpofslWrite {q : Fix} {r : State} {x1 : Origin} {x2 : Word} {s t : State} (e : execTimPtpofslWrite x1 x2 s = .next t) (h : Keeps q r s) : Keeps q r t := by
  unfold execTimPtpofslWrite at e
  obtain rfl := Host.Outcome.next.inj e
  try dsimp only
  repeat' (first
    | (with_reducible assumption) | (with_reducible apply keeps_masterWrite))

theorem keeps_execTimPtpofshWrite {q : Fix} {r : State} {x1 : Origin} {x2 : Word} {s t : State} (e : execTimPtpofshWrite x1 x2 s = .next t) (h : Keeps q r s) : Keeps q r t := by
  unfold execTimPtpofshWrite at e
  obtain rfl := Host.Outcome.next.inj e
  try dsimp only
  repeat' (first
    | (with_reducible assumption) | (with_reducible apply keeps_masterWrite))

theorem keeps_execTimNowlRead {q : Fix} {r : State} {x1 : Origin} {s t : State} (e : execTimNowlRead x1 s = .next t) (h : Keeps q r s) : Keeps q r t := by
  unfold execTimNowlRead at e
  obtain rfl := Host.Outcome.next.inj e
  try dsimp only
  repeat' (first
    | (with_reducible assumption) | (with_reducible apply keeps_masterRead))

theorem keeps_execLockstepMismatch {q : Fix} {r : State} {x1 : Bool} {s t : State} (e : execLockstepMismatch x1 s = .next t) (h : Keeps q r s) : Keeps q r t := by
  unfold execLockstepMismatch at e
  obtain rfl := Host.Outcome.next.inj e
  try dsimp only
  repeat' (first
    | (with_reducible assumption) | (with_reducible apply keeps_raise))

theorem keeps_execPairMismatch {q : Fix} {r : State} {x1 : Pair} {s t : State} (e : execPairMismatch x1 s = .next t) (h : Keeps q r s) : Keeps q r t := by
  unfold execPairMismatch at e
  obtain rfl := Host.Outcome.next.inj e
  try dsimp only
  repeat' (first
    | (with_reducible assumption) | (with_reducible apply keeps_raise))

theorem keeps_execNop {q : Fix} {r : State} {x1 : Txn} {s t : State} (e : execNop x1 s = .next t) (h : Keeps q r s) : Keeps q r t := by
  unfold execNop at e
  obtain rfl := Host.Outcome.next.inj e
  try dsimp only
  repeat' (first
    | (with_reducible assumption) | intro _ | (with_reducible apply keeps_hostTxn) | (with_reducible apply keeps_hostStatus))

theorem keeps_execWrite {q : Fix} {r : State} {x1 : Txn} {s t : State} (e : execWrite x1 s = .next t) (h : Keeps q r s) : Keeps q r t := by
  unfold execWrite at e
  obtain rfl := Host.Outcome.next.inj e
  try dsimp only
  repeat' (first
    | (with_reducible assumption) | intro _ | (with_reducible apply keeps_hostTxn) | (with_reducible apply keeps_runWrites))

theorem keeps_execWritel {q : Fix} {r : State} {x1 : Txn} {s t : State} (e : execWritel x1 s = .next t) (h : Keeps q r s) : Keeps q r t := by
  unfold execWritel at e
  obtain rfl := Host.Outcome.next.inj e
  try dsimp only
  repeat' (first
    | (with_reducible assumption) | intro _ | (with_reducible apply keeps_hostTxn) | (with_reducible apply keeps_runWrites))

theorem keeps_execRead {q : Fix} {r : State} {x1 : Txn} {s t : State} (e : execRead x1 s = .next t) (h : Keeps q r s) : Keeps q r t := by
  unfold execRead at e
  obtain rfl := Host.Outcome.next.inj e
  try dsimp only
  repeat' (first
    | (with_reducible assumption) | intro _ | (with_reducible apply keeps_hostTxn) | (with_reducible apply keeps_runRead))

theorem keeps_execFetch {q : Fix} {r : State} {x1 : Txn} {s t : State} (e : execFetch x1 s = .next t) (h : Keeps q r s) : Keeps q r t := by
  unfold execFetch at e
  obtain rfl := Host.Outcome.next.inj e
  try dsimp only
  repeat' (first
    | (with_reducible assumption) | intro _ | (with_reducible apply keeps_hostTxn) | (with_reducible apply keeps_hostStatus))

theorem keeps_execSend {q : Fix} {r : State} {x1 : Txn} {s t : State} (e : execSend x1 s = .next t) (h : Keeps q r s) : Keeps q r t := by
  unfold execSend at e
  obtain rfl := Host.Outcome.next.inj e
  try dsimp only
  repeat' (first
    | (with_reducible assumption) | intro _ | (with_reducible apply keeps_hostTxn) | (with_reducible apply keeps_runSend))

theorem keeps_execRecv {q : Fix} {r : State} {x1 : Txn} {s t : State} (e : execRecv x1 s = .next t) (h : Keeps q r s) : Keeps q r t := by
  unfold execRecv at e
  obtain rfl := Host.Outcome.next.inj e
  try dsimp only
  repeat' (first
    | (with_reducible assumption) | intro _ | (with_reducible apply keeps_hostTxn) | (with_reducible apply keeps_runRecv))

theorem keeps_execBadop {q : Fix} {r : State} {x1 : Nat} {x2 : Txn} {s t : State} (e : execBadop x1 x2 s = .next t) (h : Keeps q r s) : Keeps q r t := by
  unfold execBadop at e
  obtain rfl := Host.Outcome.next.inj e
  try dsimp only
  repeat' (first
    | (with_reducible assumption) | intro _ | (with_reducible apply keeps_hostTxn) | (with_reducible apply keeps_hostStatus) | simp only [↓keeps_mk]
    | (with_reducible apply keeps_ite))

theorem keeps_execDeferredComplete {q : Fix} {r s t : State} (e : execDeferredComplete s = .next t) (h : Keeps q r s) : Keeps q r t := by
  unfold execDeferredComplete at e
  obtain rfl := Host.Outcome.next.inj e
  try dsimp only
  repeat' (first
    | (with_reducible assumption) | (with_reducible apply keeps_deferredComplete))

theorem keeps_execSysUnlockWrite {q : Fix} {r : State} {x1 : Origin} {x2 : Word} {s t : State} (e : execSysUnlockWrite x1 x2 s = .next t) (h : Keeps q r s) : Keeps q r t := by
  unfold execSysUnlockWrite at e
  obtain rfl := Host.Outcome.next.inj e
  try dsimp only
  repeat' (first
    | (with_reducible assumption) | (with_reducible apply keeps_masterWrite))

theorem keeps_execUnlockWindowExpire {q : Fix} {r : State} {x1 : Origin} {x2 : Bool} {s t : State} (e : execUnlockWindowExpire x1 x2 s = .next t) (h : Keeps q r s) : Keeps q r t := by
  unfold execUnlockWindowExpire at e
  obtain rfl := Host.Outcome.next.inj e
  try dsimp only
  repeat' (first
    | (with_reducible assumption) | (with_reducible apply keeps_setWindow))

theorem keeps_execRegisterWrite {q : Fix} {r : State} {x1 : Origin} {x2 : Nat} {x3 : Word} {s t : State} (e : execRegisterWrite x1 x2 x3 s = .next t) (h : Keeps q r s) : Keeps q r t := by
  unfold execRegisterWrite at e
  obtain rfl := Host.Outcome.next.inj e
  try dsimp only
  repeat' (first
    | (with_reducible assumption) | (with_reducible apply keeps_masterWrite))

theorem keeps_execFlashReadPage {q : Fix} {r : State} {x1 : Origin} {s t : State} (e : execFlashReadPage x1 s = .next t) (h : Keeps q r s) : Keeps q r t := by
  unfold execFlashReadPage at e
  obtain rfl := Host.Outcome.next.inj e
  try dsimp only
  repeat' (first
    | (with_reducible assumption) | (with_reducible apply keeps_masterWrite))

theorem keeps_execFlashProgramPage {q : Fix} {r : State} {x1 : Origin} {s t : State} (e : execFlashProgramPage x1 s = .next t) (h : Keeps q r s) : Keeps q r t := by
  unfold execFlashProgramPage at e
  obtain rfl := Host.Outcome.next.inj e
  try dsimp only
  repeat' (first
    | (with_reducible assumption) | (with_reducible apply keeps_masterWrite))

theorem keeps_execFlashErase4k {q : Fix} {r : State} {x1 : Origin} {s t : State} (e : execFlashErase4k x1 s = .next t) (h : Keeps q r s) : Keeps q r t := by
  unfold execFlashErase4k at e
  obtain rfl := Host.Outcome.next.inj e
  try dsimp only
  repeat' (first
    | (with_reducible assumption) | (with_reducible apply keeps_masterWrite))

theorem keeps_execFlashErase64k {q : Fix} {r : State} {x1 : Origin} {s t : State} (e : execFlashErase64k x1 s = .next t) (h : Keeps q r s) : Keeps q r t := by
  unfold execFlashErase64k at e
  obtain rfl := Host.Outcome.next.inj e
  try dsimp only
  repeat' (first
    | (with_reducible assumption) | (with_reducible apply keeps_masterWrite))

theorem keeps_execFlashOpComplete {q : Fix} {r : State} {x1 : Bool} {s t : State} (e : execFlashOpComplete x1 s = .next t) (h : Keeps q r s) (hflash : ¬ q.flash) : Keeps q r t := by
  unfold execFlashOpComplete at e
  obtain rfl := Host.Outcome.next.inj e
  try dsimp only
  repeat' (first
    | (with_reducible assumption) | (with_reducible apply keeps_flashDone))

theorem keeps_execImgRelease {q : Fix} {r : State} {x1 : Origin} {x2 : Word} {s t : State} (e : execImgRelease x1 x2 s = .next t) (h : Keeps q r s) : Keeps q r t := by
  unfold execImgRelease at e
  obtain rfl := Host.Outcome.next.inj e
  try dsimp only
  repeat' (first
    | (with_reducible assumption) | (with_reducible apply keeps_masterWrite))

theorem keeps_execImgReleaserec {q : Fix} {r : State} {x1 : Origin} {x2 : Word} {s t : State} (e : execImgReleaserec x1 x2 s = .next t) (h : Keeps q r s) : Keeps q r t := by
  unfold execImgReleaserec at e
  obtain rfl := Host.Outcome.next.inj e
  try dsimp only
  repeat' (first
    | (with_reducible assumption) | (with_reducible apply keeps_masterWrite))

theorem keeps_execLtWrite {q : Fix} {r : State} {x1 : Origin} {s t : State} (e : execLtWrite x1 s = .next t) (h : Keeps q r s) : Keeps q r t := by
  unfold execLtWrite at e
  obtain rfl := Host.Outcome.next.inj e
  try dsimp only
  repeat' (first
    | (with_reducible assumption) | (with_reducible apply keeps_masterWrite))

theorem keeps_execLtDelete {q : Fix} {r : State} {x1 : Origin} {s t : State} (e : execLtDelete x1 s = .next t) (h : Keeps q r s) : Keeps q r t := by
  unfold execLtDelete at e
  obtain rfl := Host.Outcome.next.inj e
  try dsimp only
  repeat' (first
    | (with_reducible assumption) | (with_reducible apply keeps_masterWrite))

theorem keeps_execLtStage {q : Fix} {r : State} {x1 : Origin} {s t : State} (e : execLtStage x1 s = .next t) (h : Keeps q r s) : Keeps q r t := by
  unfold execLtStage at e
  obtain rfl := Host.Outcome.next.inj e
  try dsimp only
  repeat' (first
    | (with_reducible assumption) | (with_reducible apply keeps_masterWrite))

theorem keeps_execLtStagedel {q : Fix} {r : State} {x1 : Origin} {s t : State} (e : execLtStagedel x1 s = .next t) (h : Keeps q r s) : Keeps q r t := by
  unfold execLtStagedel at e
  obtain rfl := Host.Outcome.next.inj e
  try dsimp only
  repeat' (first
    | (with_reducible assumption) | (with_reducible apply keeps_masterWrite))

theorem keeps_execLtCommit {q : Fix} {r : State} {x1 : Origin} {s t : State} (e : execLtCommit x1 s = .next t) (h : Keeps q r s) : Keeps q r t := by
  unfold execLtCommit at e
  obtain rfl := Host.Outcome.next.inj e
  try dsimp only
  repeat' (first
    | (with_reducible assumption) | (with_reducible apply keeps_masterWrite))

theorem keeps_execLtDiscard {q : Fix} {r : State} {x1 : Origin} {s t : State} (e : execLtDiscard x1 s = .next t) (h : Keeps q r s) : Keeps q r t := by
  unfold execLtDiscard at e
  obtain rfl := Host.Outcome.next.inj e
  try dsimp only
  repeat' (first
    | (with_reducible assumption) | (with_reducible apply keeps_masterWrite))

theorem keeps_execLtRead {q : Fix} {r : State} {x1 : Origin} {s t : State} (e : execLtRead x1 s = .next t) (h : Keeps q r s) : Keeps q r t := by
  unfold execLtRead at e
  obtain rfl := Host.Outcome.next.inj e
  try dsimp only
  repeat' (first
    | (with_reducible assumption) | (with_reducible apply keeps_masterWrite))

theorem keeps_execPlanectlWrite {q : Fix} {r : State} {x1 : Origin} {x2 : Word} {s t : State} (e : execPlanectlWrite x1 x2 s = .next t) (h : Keeps q r s) : Keeps q r t := by
  unfold execPlanectlWrite at e
  obtain rfl := Host.Outcome.next.inj e
  try dsimp only
  repeat' (first
    | (with_reducible assumption) | (with_reducible apply keeps_masterWrite))

theorem keeps_execFabGbaselWrite {q : Fix} {r : State} {x1 : Origin} {x2 : Nat} {x3 : Word} {s t : State} (e : execFabGbaselWrite x1 x2 x3 s = .next t) (h : Keeps q r s) : Keeps q r t := by
  unfold execFabGbaselWrite at e
  obtain rfl := Host.Outcome.next.inj e
  try dsimp only
  repeat' (first
    | (with_reducible assumption) | (with_reducible apply keeps_masterWrite))

theorem keeps_execFabGbasehWrite {q : Fix} {r : State} {x1 : Origin} {x2 : Nat} {x3 : Word} {s t : State} (e : execFabGbasehWrite x1 x2 x3 s = .next t) (h : Keeps q r s) : Keeps q r t := by
  unfold execFabGbasehWrite at e
  obtain rfl := Host.Outcome.next.inj e
  try dsimp only
  repeat' (first
    | (with_reducible assumption) | (with_reducible apply keeps_masterWrite))

theorem keeps_execCanCtlInitWrite {q : Fix} {r : State} {x1 : Origin} {x2 : Nat} {x3 : Word} {s t : State} (e : execCanCtlInitWrite x1 x2 x3 s = .next t) (h : Keeps q r s) : Keeps q r t := by
  unfold execCanCtlInitWrite at e
  obtain rfl := Host.Outcome.next.inj e
  try dsimp only
  repeat' (first
    | (with_reducible assumption) | (with_reducible apply keeps_masterWrite))

theorem keeps_execCanRecover {q : Fix} {r : State} {x1 : Origin} {x2 : Nat} {s t : State} (e : execCanRecover x1 x2 s = .next t) (h : Keeps q r s) : Keeps q r t := by
  unfold execCanRecover at e
  obtain rfl := Host.Outcome.next.inj e
  try dsimp only
  repeat' (first
    | (with_reducible assumption) | (with_reducible apply keeps_masterWrite))

theorem keeps_execCanTxabort {q : Fix} {r : State} {x1 : Origin} {x2 : Nat} {x3 : Word} {s t : State} (e : execCanTxabort x1 x2 x3 s = .next t) (h : Keeps q r s) : Keeps q r t := by
  unfold execCanTxabort at e
  obtain rfl := Host.Outcome.next.inj e
  try dsimp only
  repeat' (first
    | (with_reducible assumption) | (with_reducible apply keeps_masterWrite))

theorem keeps_execLinSchedWrite {q : Fix} {r : State} {x1 : Origin} {x2 : Nat} {x3 : Word} {s t : State} (e : execLinSchedWrite x1 x2 x3 s = .next t) (h : Keeps q r s) : Keeps q r t := by
  unfold execLinSchedWrite at e
  obtain rfl := Host.Outcome.next.inj e
  try dsimp only
  repeat' (first
    | (with_reducible assumption) | (with_reducible apply keeps_masterWrite))

theorem keeps_execLinSleep {q : Fix} {r : State} {x1 : Origin} {x2 : Nat} {s t : State} (e : execLinSleep x1 x2 s = .next t) (h : Keeps q r s) : Keeps q r t := by
  unfold execLinSleep at e
  obtain rfl := Host.Outcome.next.inj e
  try dsimp only
  repeat' (first
    | (with_reducible assumption) | (with_reducible apply keeps_masterWrite))

theorem keeps_execLinWake {q : Fix} {r : State} {x1 : Origin} {x2 : Nat} {s t : State} (e : execLinWake x1 x2 s = .next t) (h : Keeps q r s) : Keeps q r t := by
  unfold execLinWake at e
  obtain rfl := Host.Outcome.next.inj e
  try dsimp only
  repeat' (first
    | (with_reducible assumption) | (with_reducible apply keeps_masterWrite))

theorem keeps_execEthPlcaWrite {q : Fix} {r : State} {x1 : Origin} {x2 : Nat} {x3 : Bool} {x4 : Word} {s t : State} (e : execEthPlcaWrite x1 x2 x3 x4 s = .next t) (h : Keeps q r s) : Keeps q r t := by
  unfold execEthPlcaWrite at e
  obtain rfl := Host.Outcome.next.inj e
  try dsimp only
  repeat' (first
    | (with_reducible assumption) | (with_reducible apply keeps_masterWrite))

theorem keeps_execTc10Sleep {q : Fix} {r : State} {x1 : Origin} {x2 : Nat} {s t : State} (e : execTc10Sleep x1 x2 s = .next t) (h : Keeps q r s) : Keeps q r t := by
  unfold execTc10Sleep at e
  obtain rfl := Host.Outcome.next.inj e
  try dsimp only
  repeat' (first
    | (with_reducible assumption) | (with_reducible apply keeps_masterWrite))

theorem keeps_execTc10Wake {q : Fix} {r : State} {x1 : Origin} {x2 : Nat} {s t : State} (e : execTc10Wake x1 x2 s = .next t) (h : Keeps q r s) : Keeps q r t := by
  unfold execTc10Wake at e
  obtain rfl := Host.Outcome.next.inj e
  try dsimp only
  repeat' (first
    | (with_reducible assumption) | (with_reducible apply keeps_masterWrite))

theorem keeps_execEthTstx0Pop {q : Fix} {r : State} {x1 : Origin} {x2 : Nat} {s t : State} (e : execEthTstx0Pop x1 x2 s = .next t) (h : Keeps q r s) : Keeps q r t := by
  unfold execEthTstx0Pop at e
  obtain rfl := Host.Outcome.next.inj e
  try dsimp only
  repeat' (first
    | (with_reducible assumption) | (with_reducible apply keeps_masterRead))

theorem keeps_execEthSapnlWrite {q : Fix} {r : State} {x1 : Origin} {x2 : Nat} {x3 : Bool} {x4 : Nat} {x5 : Word} {s t : State} (e : execEthSapnlWrite x1 x2 x3 x4 x5 s = .next t) (h : Keeps q r s) : Keeps q r t := by
  unfold execEthSapnlWrite at e
  obtain rfl := Host.Outcome.next.inj e
  try dsimp only
  repeat' (first
    | (with_reducible assumption) | (with_reducible apply keeps_masterWrite))

theorem keeps_execEthSapnhWrite {q : Fix} {r : State} {x1 : Origin} {x2 : Nat} {x3 : Bool} {x4 : Nat} {x5 : Word} {s t : State} (e : execEthSapnhWrite x1 x2 x3 x4 x5 s = .next t) (h : Keeps q r s) : Keeps q r t := by
  unfold execEthSapnhWrite at e
  obtain rfl := Host.Outcome.next.inj e
  try dsimp only
  repeat' (first
    | (with_reducible assumption) | (with_reducible apply keeps_masterWrite))

theorem keeps_execMdioAddress {q : Fix} {r : State} {x1 : Origin} {x2 : Word} {s t : State} (e : execMdioAddress x1 x2 s = .next t) (h : Keeps q r s) : Keeps q r t := by
  unfold execMdioAddress at e
  obtain rfl := Host.Outcome.next.inj e
  try dsimp only
  repeat' (first
    | (with_reducible assumption) | (with_reducible apply keeps_masterWrite))

theorem keeps_execMdioWrite {q : Fix} {r : State} {x1 : Origin} {x2 : Word} {s t : State} (e : execMdioWrite x1 x2 s = .next t) (h : Keeps q r s) : Keeps q r t := by
  unfold execMdioWrite at e
  obtain rfl := Host.Outcome.next.inj e
  try dsimp only
  repeat' (first
    | (with_reducible assumption) | (with_reducible apply keeps_masterWrite))

theorem keeps_execMdioRead {q : Fix} {r : State} {x1 : Origin} {x2 : Word} {s t : State} (e : execMdioRead x1 x2 s = .next t) (h : Keeps q r s) : Keeps q r t := by
  unfold execMdioRead at e
  obtain rfl := Host.Outcome.next.inj e
  try dsimp only
  repeat' (first
    | (with_reducible assumption) | (with_reducible apply keeps_masterWrite))

theorem keeps_execMdioReadIncrement {q : Fix} {r : State} {x1 : Origin} {x2 : Word} {s t : State} (e : execMdioReadIncrement x1 x2 s = .next t) (h : Keeps q r s) : Keeps q r t := by
  unfold execMdioReadIncrement at e
  obtain rfl := Host.Outcome.next.inj e
  try dsimp only
  repeat' (first
    | (with_reducible assumption) | (with_reducible apply keeps_masterWrite))

theorem keeps_execMdioComplete {q : Fix} {r : State} {x1 : Nat} {s t : State} (e : execMdioComplete x1 s = .next t) (h : Keeps q r s) : Keeps q r t := by
  unfold execMdioComplete at e
  obtain rfl := Host.Outcome.next.inj e
  try dsimp only
  repeat' (first
    | (with_reducible assumption) | (with_reducible apply keeps_mdioDone))

theorem keeps_execTahrPermctlWrite {q : Fix} {r : State} {x1 : Origin} {x2 : Word} {s t : State} (e : execTahrPermctlWrite x1 x2 s = .next t) (h : Keeps q r s) : Keeps q r t := by
  unfold execTahrPermctlWrite at e
  obtain rfl := Host.Outcome.next.inj e
  try dsimp only
  repeat' (first
    | (with_reducible assumption) | (with_reducible apply keeps_masterWrite))

theorem keeps_execFsupTxctlSend {q : Fix} {r : State} {x1 : Word} {s t : State} (e : execFsupTxctlSend x1 s = .next t) (h : Keeps q r s) : Keeps q r t := by
  unfold execFsupTxctlSend at e
  obtain rfl := Host.Outcome.next.inj e
  try dsimp only
  repeat' (first
    | (with_reducible assumption) | (with_reducible apply keeps_masterWrite))

theorem keeps_execFsupRxpop {q : Fix} {r s t : State} (e : execFsupRxpop s = .next t) (h : Keeps q r s) : Keeps q r t := by
  unfold execFsupRxpop at e
  obtain rfl := Host.Outcome.next.inj e
  try dsimp only
  repeat' (first
    | (with_reducible assumption) | (with_reducible apply keeps_masterRead))

theorem keeps_execFsupPermitWrite {q : Fix} {r : State} {x1 : Word} {s t : State} (e : execFsupPermitWrite x1 s = .next t) (h : Keeps q r s) : Keeps q r t := by
  unfold execFsupPermitWrite at e
  obtain rfl := Host.Outcome.next.inj e
  try dsimp only
  repeat' (first
    | (with_reducible assumption) | (with_reducible apply keeps_masterWrite))

theorem keeps_execWatchdogRefresh {q : Fix} {r : State} {x1 : Word} {s t : State} (e : execWatchdogRefresh x1 s = .next t) (h : Keeps q r s) : Keeps q r t := by
  unfold execWatchdogRefresh at e
  obtain rfl := Host.Outcome.next.inj e
  try dsimp only
  repeat' (first
    | (with_reducible assumption) | (with_reducible apply keeps_masterWrite))

theorem keeps_execMeasChctlWrite {q : Fix} {r : State} {x1 : Origin} {x2 : Bool} {x3 : Nat} {x4 : Word} {s t : State} (e : execMeasChctlWrite x1 x2 x3 x4 s = .next t) (h : Keeps q r s) : Keeps q r t := by
  unfold execMeasChctlWrite at e
  obtain rfl := Host.Outcome.next.inj e
  try dsimp only
  repeat' (first
    | (with_reducible assumption) | (with_reducible apply keeps_masterWrite))

theorem keeps_execMeasChwinWrite {q : Fix} {r : State} {x1 : Origin} {x2 : Bool} {x3 : Nat} {x4 : Word} {s t : State} (e : execMeasChwinWrite x1 x2 x3 x4 s = .next t) (h : Keeps q r s) : Keeps q r t := by
  unfold execMeasChwinWrite at e
  obtain rfl := Host.Outcome.next.inj e
  try dsimp only
  repeat' (first
    | (with_reducible assumption) | (with_reducible apply keeps_masterWrite))

theorem keeps_execMeasCalctlReq {q : Fix} {r : State} {x1 : Origin} {x2 : Word} {s t : State} (e : execMeasCalctlReq x1 x2 s = .next t) (h : Keeps q r s) : Keeps q r t := by
  unfold execMeasCalctlReq at e
  obtain rfl := Host.Outcome.next.inj e
  try dsimp only
  repeat' (first
    | (with_reducible assumption) | (with_reducible apply keeps_masterWrite))

theorem keeps_execHsnsCalctlReq {q : Fix} {r : State} {x1 : Origin} {s t : State} (e : execHsnsCalctlReq x1 s = .next t) (h : Keeps q r s) : Keeps q r t := by
  unfold execHsnsCalctlReq at e
  obtain rfl := Host.Outcome.next.inj e
  try dsimp only
  repeat' (first
    | (with_reducible assumption) | (with_reducible apply keeps_masterWrite))

theorem keeps_execTdmTdmbst0Pop {q : Fix} {r : State} {x1 : Origin} {x2 : Nat} {s t : State} (e : execTdmTdmbst0Pop x1 x2 s = .next t) (h : Keeps q r s) : Keeps q r t := by
  unfold execTdmTdmbst0Pop at e
  obtain rfl := Host.Outcome.next.inj e
  try dsimp only
  repeat' (first
    | (with_reducible assumption) | (with_reducible apply keeps_masterRead))

theorem keeps_execTdmEnableWrite {q : Fix} {r : State} {x1 : Origin} {x2 : Nat} {x3 : Word} {s t : State} (e : execTdmEnableWrite x1 x2 x3 s = .next t) (h : Keeps q r s) : Keeps q r t := by
  unfold execTdmEnableWrite at e
  obtain rfl := Host.Outcome.next.inj e
  try dsimp only
  repeat' (first
    | (with_reducible assumption) | (with_reducible apply keeps_masterWrite))

theorem keeps_execBptCscommit {q : Fix} {r : State} {x1 : Origin} {x2 : Nat} {s t : State} (e : execBptCscommit x1 x2 s = .next t) (h : Keeps q r s) : Keeps q r t := by
  unfold execBptCscommit at e
  obtain rfl := Host.Outcome.next.inj e
  try dsimp only
  repeat' (first
    | (with_reducible assumption) | (with_reducible apply keeps_masterWrite))

theorem keeps_execBptUcommit {q : Fix} {r : State} {x1 : Origin} {x2 : Nat} {s t : State} (e : execBptUcommit x1 x2 s = .next t) (h : Keeps q r s) : Keeps q r t := by
  unfold execBptUcommit at e
  obtain rfl := Host.Outcome.next.inj e
  try dsimp only
  repeat' (first
    | (with_reducible assumption) | (with_reducible apply keeps_masterWrite))

theorem keeps_execAudRgainWrite {q : Fix} {r : State} {x1 : Origin} {x2 : Nat} {x3 : Word} {s t : State} (e : execAudRgainWrite x1 x2 x3 s = .next t) (h : Keeps q r s) : Keeps q r t := by
  unfold execAudRgainWrite at e
  obtain rfl := Host.Outcome.next.inj e
  try dsimp only
  repeat' (first
    | (with_reducible assumption) | (with_reducible apply keeps_masterWrite))

theorem keeps_execBiquadCommit {q : Fix} {r : State} {x1 : Origin} {x2 : Nat} {s t : State} (e : execBiquadCommit x1 x2 s = .next t) (h : Keeps q r s) : Keeps q r t := by
  unfold execBiquadCommit at e
  obtain rfl := Host.Outcome.next.inj e
  try dsimp only
  repeat' (first
    | (with_reducible assumption) | (with_reducible apply keeps_masterWrite))

theorem keeps_execSpkctlWrite {q : Fix} {r : State} {x1 : Origin} {x2 : Word} {s t : State} (e : execSpkctlWrite x1 x2 s = .next t) (h : Keeps q r s) : Keeps q r t := by
  unfold execSpkctlWrite at e
  obtain rfl := Host.Outcome.next.inj e
  try dsimp only
  repeat' (first
    | (with_reducible assumption) | (with_reducible apply keeps_masterWrite))

theorem keeps_execDacctlWrite {q : Fix} {r : State} {x1 : Origin} {x2 : Nat} {x3 : Word} {s t : State} (e : execDacctlWrite x1 x2 x3 s = .next t) (h : Keeps q r s) : Keeps q r t := by
  unfold execDacctlWrite at e
  obtain rfl := Host.Outcome.next.inj e
  try dsimp only
  repeat' (first
    | (with_reducible assumption) | (with_reducible apply keeps_masterWrite))

theorem keeps_execDetectSpeaker {q : Fix} {r : State} {x1 : Origin} {s t : State} (e : execDetectSpeaker x1 s = .next t) (h : Keeps q r s) : Keeps q r t := by
  unfold execDetectSpeaker at e
  obtain rfl := Host.Outcome.next.inj e
  try dsimp only
  repeat' (first
    | (with_reducible assumption) | (with_reducible apply keeps_masterWrite))

theorem keeps_execDetectLineOut {q : Fix} {r : State} {x1 : Origin} {x2 : Nat} {s t : State} (e : execDetectLineOut x1 x2 s = .next t) (h : Keeps q r s) : Keeps q r t := by
  unfold execDetectLineOut at e
  obtain rfl := Host.Outcome.next.inj e
  try dsimp only
  repeat' (first
    | (with_reducible assumption) | (with_reducible apply keeps_masterWrite))

theorem keeps_execAudioCalreq {q : Fix} {r : State} {x1 : Origin} {x2 : Word} {s t : State} (e : execAudioCalreq x1 x2 s = .next t) (h : Keeps q r s) : Keeps q r t := by
  unfold execAudioCalreq at e
  obtain rfl := Host.Outcome.next.inj e
  try dsimp only
  repeat' (first
    | (with_reducible assumption) | (with_reducible apply keeps_masterWrite))

theorem keeps_execFltInject {q : Fix} {r : State} {x1 : Origin} {x2 : Word} {s t : State} (e : execFltInject x1 x2 s = .next t) (h : Keeps q r s) : Keeps q r t := by
  unfold execFltInject at e
  obtain rfl := Host.Outcome.next.inj e
  try dsimp only
  repeat' (first
    | (with_reducible assumption) | (with_reducible apply keeps_masterWrite))

theorem keeps_execFfltInject {q : Fix} {r : State} {x1 : Origin} {x2 : Word} {s t : State} (e : execFfltInject x1 x2 s = .next t) (h : Keeps q r s) : Keeps q r t := by
  unfold execFfltInject at e
  obtain rfl := Host.Outcome.next.inj e
  try dsimp only
  repeat' (first
    | (with_reducible assumption) | (with_reducible apply keeps_masterWrite))

theorem keeps_execFltSevClear {q : Fix} {r : State} {x1 : Origin} {s t : State} (e : execFltSevClear x1 s = .next t) (h : Keeps q r s) : Keeps q r t := by
  unfold execFltSevClear at e
  obtain rfl := Host.Outcome.next.inj e
  try dsimp only
  repeat' (first
    | (with_reducible assumption) | (with_reducible apply keeps_masterWrite))

theorem keeps_execFfltSevClear {q : Fix} {r : State} {x1 : Origin} {s t : State} (e : execFfltSevClear x1 s = .next t) (h : Keeps q r s) : Keeps q r t := by
  unfold execFfltSevClear at e
  obtain rfl := Host.Outcome.next.inj e
  try dsimp only
  repeat' (first
    | (with_reducible assumption) | (with_reducible apply keeps_masterWrite))

theorem keeps_execShedreqGo {q : Fix} {r : State} {x1 : Origin} {x2 : Word} {s t : State} (e : execShedreqGo x1 x2 s = .next t) (h : Keeps q r s) : Keeps q r t := by
  unfold execShedreqGo at e
  obtain rfl := Host.Outcome.next.inj e
  try dsimp only
  repeat' (first
    | (with_reducible assumption) | (with_reducible apply keeps_masterWrite))

theorem keeps_execRetctlGo {q : Fix} {r : State} {x1 : Origin} {x2 : Word} {s t : State} (e : execRetctlGo x1 x2 s = .next t) (h : Keeps q r s) : Keeps q r t := by
  unfold execRetctlGo at e
  obtain rfl := Host.Outcome.next.inj e
  try dsimp only
  repeat' (first
    | (with_reducible assumption) | (with_reducible apply keeps_masterWrite))

theorem keeps_execAgeclr {q : Fix} {r : State} {x1 : Origin} {x2 : Word} {s t : State} (e : execAgeclr x1 x2 s = .next t) (h : Keeps q r s) : Keeps q r t := by
  unfold execAgeclr at e
  obtain rfl := Host.Outcome.next.inj e
  try dsimp only
  repeat' (first
    | (with_reducible assumption) | (with_reducible apply keeps_masterWrite))

theorem keeps_execJournalDrain {q : Fix} {r s t : State} (e : execJournalDrain s = .next t) (h : Keeps q r s) : Keeps q r t := by
  unfold execJournalDrain at e
  obtain rfl := Host.Outcome.next.inj e
  try dsimp only
  repeat' (first
    | (with_reducible assumption) | (with_reducible apply keeps_jDrain))

theorem keeps_execJournalAck {q : Fix} {r s t : State} (e : execJournalAck s = .next t) (h : Keeps q r s) : Keeps q r t := by
  unfold execJournalAck at e
  obtain rfl := Host.Outcome.next.inj e
  try dsimp only
  repeat' (first
    | (with_reducible assumption) | (with_reducible apply keeps_jTakeAck))

theorem keeps_execJournalRewind {q : Fix} {r s t : State} (e : execJournalRewind s = .next t) (h : Keeps q r s) : Keeps q r t := by
  unfold execJournalRewind at e
  obtain rfl := Host.Outcome.next.inj e
  try dsimp only
  repeat' (first
    | (with_reducible assumption) | (with_reducible apply keeps_jTakeAck))

theorem keeps_dropEvent {q : Fix} {r : State} {x1 : Event} {s : State} (h : Keeps q r s) : Keeps q r (dropEvent x1 s) := by
  unfold dropEvent
  try dsimp only
  repeat' (first
    | (with_reducible assumption) | intro _ | simp only [↓keeps_mk])

theorem keeps_drainOver {q : Fix} {r : State} {x1 : Event} {s : State} (h : Keeps q r s) : Keeps q r (drainOver x1 s) := by
  unfold drainOver
  try dsimp only
  repeat' (first
    | (with_reducible assumption) | intro _ | simp only [↓keeps_mk] | (with_reducible refine keeps_of_eq (by with_reducible assumption) ?_)
    | (with_reducible apply keeps_ite))

theorem keeps_classifyNext {q : Fix} {r : State} {x1 : Nat} {s : State} (h : Keeps q r s) : Keeps q r (classifyNext x1 s) := by
  unfold classifyNext
  try dsimp only
  repeat' (first
    | (with_reducible assumption) | (with_reducible apply keeps_drainOver) | (with_reducible apply keeps_bump) | (with_reducible apply keeps_dropEvent)
    | (with_reducible apply keeps_classifyEvent) | simp only [↓keeps_mk] | (with_reducible refine keeps_of_eq (by with_reducible assumption) ?_)
    | (with_reducible apply keeps_ite) | split)

theorem keeps_execGatewayClassify {q : Fix} {r : State} {x1 : Nat} {s t : State} (e : execGatewayClassify x1 s = .next t) (h : Keeps q r s) : Keeps q r t := by
  unfold execGatewayClassify at e
  obtain rfl := Host.Outcome.next.inj e
  try dsimp only
  repeat' (first
    | (with_reducible assumption) | (with_reducible apply keeps_classifyNext))

theorem keeps_execHeadRelease {q : Fix} {r : State} {x1 : Nat} {s t : State} (e : execHeadRelease x1 s = .next t) (h : Keeps q r s) : Keeps q r t := by
  unfold execHeadRelease at e
  obtain rfl := Host.Outcome.next.inj e
  try dsimp only
  repeat' (first
    | (with_reducible assumption) | (with_reducible apply keeps_releaseHeads))

theorem keeps_execExpressMatch {q : Fix} {r s t : State} (e : execExpressMatch s = .next t) (h : Keeps q r s) : Keeps q r t := by
  unfold execExpressMatch at e
  obtain rfl := Host.Outcome.next.inj e
  try dsimp only
  repeat' (first
    | (with_reducible assumption) | (with_reducible apply keeps_matchCell))

theorem keeps_scheduled' {q : Fix} {r s : State} {x2 : Nat} {t : State} {v} (e : scheduled s x2 = some (v, t)) (h : Keeps q r s) : Keeps q r t := by
  unfold scheduled at e
  try dsimp only at e
  repeat' (split at e)
  all_goals (try (simp only [Option.some.injEq, Prod.mk.injEq, reduceCtorEq] at e))
  all_goals (try (obtain ⟨_, rfl⟩ := e))
  all_goals repeat' (first
    | (with_reducible assumption) | (with_reducible refine keeps_chooseQueue' (by with_reducible assumption) ?_)
    | (with_reducible refine keeps_popQueue' (by with_reducible assumption) ?_))

theorem keeps_scheduleEth {q : Fix} {r : State} {x1 : Nat} {s : State} (h : Keeps q r s) : Keeps q r (scheduleEth x1 s) := by
  unfold scheduleEth
  try dsimp only
  repeat' (first
    | (with_reducible assumption) | (with_reducible apply keeps_ethTxDone) | (with_reducible refine keeps_scheduled' (by with_reducible assumption) ?_)
    | (with_reducible apply keeps_ethStart) | simp only [↓keeps_mk] | (with_reducible refine keeps_of_eq (by with_reducible assumption) ?_)
    | (with_reducible apply keeps_ite) | (with_reducible apply keeps_ite1) | split)

theorem keeps_scheduleCan {q : Fix} {r : State} {x1 : Nat} {s : State} (h : Keeps q r s) : Keeps q r (scheduleCan x1 s) := by
  unfold scheduleCan
  try dsimp only
  repeat' (first
    | (with_reducible assumption) | (with_reducible refine keeps_scheduled' (by with_reducible assumption) ?_) | (with_reducible apply keeps_placeFrame)
    | simp only [↓keeps_mk] | (with_reducible refine keeps_of_eq (by with_reducible assumption) ?_) | (with_reducible apply keeps_ite)
    | (with_reducible apply keeps_ite1) | split)

theorem keeps_scheduleFcan {q : Fix} {r : State} {x1 : Nat} {s : State} (h : Keeps q r s) : Keeps q r (scheduleFcan x1 s) := by
  unfold scheduleFcan
  try dsimp only
  repeat' (first
    | (with_reducible assumption) | (with_reducible apply keeps_placeFrame) | simp only [↓keeps_mk]
    | (with_reducible refine keeps_of_eq (by with_reducible assumption) ?_) | (with_reducible apply keeps_ite) | split)

theorem keeps_scheduleLin {q : Fix} {r : State} {x1 : Nat} {s : State} (h : Keeps q r s) : Keeps q r (scheduleLin x1 s) := by
  unfold scheduleLin
  try dsimp only
  repeat' (first
    | (with_reducible assumption) | (with_reducible refine keeps_scheduled' (by with_reducible assumption) ?_) | (with_reducible apply keeps_linMove)
    | simp only [↓keeps_mk] | (with_reducible refine keeps_of_eq (by with_reducible assumption) ?_) | split)

theorem keeps_scheduleInternal {q : Fix} {r : State} {x1 : Nat} {s : State} (h : Keeps q r s) : Keeps q r (scheduleInternal x1 s) := by
  unfold scheduleInternal
  try dsimp only
  repeat' (first
    | (with_reducible assumption) | (with_reducible refine keeps_takeHead' (by with_reducible assumption) ?_) | simp only [↓keeps_mk]
    | (with_reducible refine keeps_of_eq (by with_reducible assumption) ?_) | split)

theorem keeps_execEgressSchedule {q : Fix} {r : State} {x1 : Nat} {s t : State} (e : execEgressSchedule x1 s = .next t) (h : Keeps q r s) : Keeps q r t := by
  unfold execEgressSchedule at e
  obtain rfl := Host.Outcome.next.inj e
  try dsimp only
  repeat' (first
    | (with_reducible assumption) | (with_reducible apply keeps_scheduleEth) | (with_reducible apply keeps_scheduleCan)
    | (with_reducible apply keeps_scheduleFcan) | (with_reducible apply keeps_scheduleLin) | (with_reducible apply keeps_scheduleInternal)
    | simp only [↓keeps_mk] | (with_reducible apply keeps_ite))

theorem keeps_execModelDeparture {q : Fix} {r : State} {x1 : Nat} {s t : State} (e : execModelDeparture x1 s = .next t) (h : Keeps q r s) : Keeps q r t := by
  unfold execModelDeparture at e
  obtain rfl := Host.Outcome.next.inj e
  try dsimp only
  repeat' (first
    | (with_reducible assumption) | (with_reducible apply keeps_departPort))

theorem keeps_execHoldLimitPurge {q : Fix} {r : State} {x1 : Nat} {s t : State} (e : execHoldLimitPurge x1 s = .next t) (h : Keeps q r s) : Keeps q r t := by
  unfold execHoldLimitPurge at e
  obtain rfl := Host.Outcome.next.inj e
  try dsimp only
  repeat' (first
    | (with_reducible assumption) | (with_reducible apply keeps_purgePort) | simp only [↓keeps_mk] | (with_reducible apply keeps_ite))

theorem keeps_execLedgerDivergence {q : Fix} {r : State} {x1 : Nat} {s t : State} (e : execLedgerDivergence x1 s = .next t) (h : Keeps q r s) : Keeps q r t := by
  unfold execLedgerDivergence at e
  obtain rfl := Host.Outcome.next.inj e
  try dsimp only
  repeat' (first
    | (with_reducible assumption) | (with_reducible apply keeps_raise) | simp only [↓keeps_mk] | (with_reducible apply keeps_ite))

theorem keeps_execBufferPressure {q : Fix} {r s t : State} (e : execBufferPressure s = .next t) (h : Keeps q r s) : Keeps q r t := by
  unfold execBufferPressure at e
  obtain rfl := Host.Outcome.next.inj e
  try dsimp only
  repeat' (first
    | (with_reducible assumption) | (with_reducible apply keeps_raise) | simp only [↓keeps_mk])

theorem keeps_execBufferPressureEnd {q : Fix} {r s t : State} (e : execBufferPressureEnd s = .next t) (h : Keeps q r s) : Keeps q r t := by
  unfold execBufferPressureEnd at e
  obtain rfl := Host.Outcome.next.inj e
  try dsimp only
  repeat' (first
    | (with_reducible assumption) | simp only [↓keeps_mk])

theorem keeps_execGateIntervalEnd {q : Fix} {r : State} {x1 : Nat} {s t : State} (e : execGateIntervalEnd x1 s = .next t) (h : Keeps q r s) : Keeps q r t := by
  unfold execGateIntervalEnd at e
  obtain rfl := Host.Outcome.next.inj e
  try dsimp only
  repeat' (first
    | (with_reducible assumption) | (with_reducible apply keeps_gateEnd))

theorem keeps_execVirtualPortConsume {q : Fix} {r : State} {x1 : Nat} {s t : State} (e : execVirtualPortConsume x1 s = .next t) (h : Keeps q r s) : Keeps q r t := by
  unfold execVirtualPortConsume at e
  obtain rfl := Host.Outcome.next.inj e
  try dsimp only
  repeat' (first
    | (with_reducible assumption) | (with_reducible apply keeps_consumeNext))

theorem keeps_execContainerPeriodicEmit {q : Fix} {r : State} {x1 : Nat} {s t : State} (e : execContainerPeriodicEmit x1 s = .next t) (h : Keeps q r s) : Keeps q r t := by
  unfold execContainerPeriodicEmit at e
  obtain rfl := Host.Outcome.next.inj e
  try dsimp only
  repeat' (first
    | (with_reducible assumption) | (with_reducible apply keeps_periodicEmit))

theorem keeps_execAcfTimedEmit {q : Fix} {r : State} {x1 : Nat} {s t : State} (e : execAcfTimedEmit x1 s = .next t) (h : Keeps q r s) : Keeps q r t := by
  unfold execAcfTimedEmit at e
  obtain rfl := Host.Outcome.next.inj e
  try dsimp only
  repeat' (first
    | (with_reducible assumption) | (with_reducible apply keeps_timedEmit))

theorem keeps_useCredit {q : Fix} {r : State} {x1 : Nat} {s : State} (h : Keeps q r s) : Keeps q r (useCredit x1 s) := by
  unfold useCredit
  try dsimp only
  repeat' (first
    | (with_reducible assumption) | intro _ | simp only [↓keeps_mk])

theorem keeps_fcanToField {q : Fix} {r : State} {x1 : Nat} {s : State} (h : Keeps q r s) : Keeps q r (fcanToField x1 s) := by
  unfold fcanToField
  try dsimp only
  repeat' (first
    | (with_reducible assumption) | (with_reducible refine keeps_scheduled' (by with_reducible assumption) ?_) | (with_reducible apply keeps_sendMsg)
    | (with_reducible apply keeps_useCredit) | simp only [↓keeps_mk] | (with_reducible refine keeps_of_eq (by with_reducible assumption) ?_)
    | (with_reducible apply keeps_ite) | (with_reducible apply keeps_ite1) | split)

theorem keeps_execFcanFrameToField {q : Fix} {r : State} {x1 : Nat} {s t : State} (e : execFcanFrameToField x1 s = .next t) (h : Keeps q r s) : Keeps q r t := by
  unfold execFcanFrameToField at e
  obtain rfl := Host.Outcome.next.inj e
  try dsimp only
  repeat' (first
    | (with_reducible assumption) | (with_reducible apply keeps_fcanToField) | simp only [↓keeps_mk] | (with_reducible apply keeps_ite))

theorem keeps_execTahrCatalogueSend {q : Fix} {r s t : State} (e : execTahrCatalogueSend s = .next t) (h : Keeps q r s) : Keeps q r t := by
  unfold execTahrCatalogueSend at e
  obtain rfl := Host.Outcome.next.inj e
  try dsimp only
  repeat' (first
    | (with_reducible assumption) | (with_reducible apply keeps_catalogueSend))

theorem keeps_execCanBusIntegrate {q : Fix} {r : State} {x1 : Nat} {s t : State} (e : execCanBusIntegrate x1 s = .next t) (h : Keeps q r s) : Keeps q r t := by
  unfold execCanBusIntegrate at e
  obtain rfl := Host.Outcome.next.inj e
  try dsimp only
  repeat' (first
    | (with_reducible assumption) | (with_reducible apply keeps_canIntegrate))

theorem keeps_execBusOffRecoveryEnd {q : Fix} {r : State} {x1 : Nat} {s t : State} (e : execBusOffRecoveryEnd x1 s = .next t) (h : Keeps q r s) : Keeps q r t := by
  unfold execBusOffRecoveryEnd at e
  obtain rfl := Host.Outcome.next.inj e
  try dsimp only
  repeat' (first
    | (with_reducible assumption) | (with_reducible apply keeps_canRecovered))

theorem keeps_execCanTxAttempt {q : Fix} {r : State} {x1 x2 : Nat} {s t : State} (e : execCanTxAttempt x1 x2 s = .next t) (h : Keeps q r s) : Keeps q r t := by
  unfold execCanTxAttempt at e
  obtain rfl := Host.Outcome.next.inj e
  try dsimp only
  repeat' (first
    | (with_reducible assumption) | (with_reducible apply keeps_canAttempt))

theorem keeps_execCanTxComplete {q : Fix} {r : State} {x1 : Nat} {s t : State} (e : execCanTxComplete x1 s = .next t) (h : Keeps q r s) : Keeps q r t := by
  unfold execCanTxComplete at e
  obtain rfl := Host.Outcome.next.inj e
  try dsimp only
  repeat' (first
    | (with_reducible assumption) | (with_reducible apply keeps_canComplete))

theorem keeps_canTxError {q : Fix} {r : State} {x1 x2 : Nat} {x3 x4 x5 : Bool} {x6 : Nat} {s : State} (h : Keeps q r s) : Keeps q r (canTxError x1 x2 x3 x4 x5 x6 s) := by
  unfold canTxError
  try dsimp only
  repeat' (first
    | (with_reducible assumption) | (with_reducible apply keeps_canErrCode) | (with_reducible apply keeps_settleErrors))

theorem keeps_canFail {q : Fix} {r : State} {x1 x2 : Nat} {x3 x4 x5 : Bool} {x6 : Nat} {s : State} (h : Keeps q r s) : Keeps q r (canFail x1 x2 x3 x4 x5 x6 s) := by
  unfold canFail
  try dsimp only
  repeat' (first
    | (with_reducible assumption) | (with_reducible apply keeps_bump) | (with_reducible apply keeps_canTxError) | (with_reducible apply keeps_finishStop)
    | (with_reducible apply keeps_canAttemptOver) | simp only [↓keeps_mk] | (with_reducible apply keeps_ite))

theorem keeps_execCanTxAttemptFail {q : Fix} {r : State} {x1 x2 : Nat} {x3 x4 x5 : Bool} {x6 : Nat} {s t : State} (e : execCanTxAttemptFail x1 x2 x3 x4 x5 x6 s = .next t) (h : Keeps q r s) : Keeps q r t := by
  unfold execCanTxAttemptFail at e
  obtain rfl := Host.Outcome.next.inj e
  try dsimp only
  repeat' (first
    | (with_reducible assumption) | (with_reducible apply keeps_canFail))

theorem keeps_execCanTransmitStall {q : Fix} {r : State} {x1 : Nat} {s t : State} (e : execCanTransmitStall x1 s = .next t) (h : Keeps q r s) : Keeps q r t := by
  unfold execCanTransmitStall at e
  obtain rfl := Host.Outcome.next.inj e
  try dsimp only
  repeat' (first
    | (with_reducible assumption) | (with_reducible apply keeps_canPortState) | (with_reducible apply keeps_setCan) | simp only [↓keeps_mk]
    | (with_reducible apply keeps_ite))

theorem keeps_canRxCount {q : Fix} {r : State} {x1 : Nat} {s : State} (h : Keeps q r s) : Keeps q r (canRxCount x1 s) := by
  unfold canRxCount
  try dsimp only
  repeat' (first
    | (with_reducible assumption) | (with_reducible apply keeps_settleErrors) | (with_reducible apply keeps_takeFree) | simp only [↓keeps_mk]
    | (with_reducible refine keeps_of_eq (by with_reducible assumption) ?_) | (with_reducible apply keeps_ite))

theorem keeps_canHand {q : Fix} {r : State} {x1 : Nat} {x2 : Stamp} {x3 : Bytes} {s : State} (h : Keeps q r s) : Keeps q r (canHand x1 x2 x3 s) := by
  unfold canHand
  try dsimp only
  repeat' (first
    | (with_reducible assumption) | (with_reducible apply keeps_submitAt) | (with_reducible apply keeps_fieldSendAt) | simp only [↓keeps_mk]
    | (with_reducible apply keeps_ite))

theorem keeps_canReceive {q : Fix} {r : State} {x1 : Nat} {x2 : Stamp} {x3 : Bytes} {s : State} (h : Keeps q r s) : Keeps q r (canReceive x1 x2 x3 s) := by
  unfold canReceive
  try dsimp only
  repeat' (first
    | (with_reducible assumption) | (with_reducible apply keeps_dropLate) | (with_reducible apply keeps_canRxCount) | (with_reducible apply keeps_raise)
    | (with_reducible apply keeps_bump) | (with_reducible apply keeps_canHand) | simp only [↓keeps_mk] | (with_reducible apply keeps_ite))

theorem keeps_execCanRxFrame {q : Fix} {r : State} {x1 x2 : Nat} {x3 : List Byte} {s t : State} (e : execCanRxFrame x1 x2 x3 s = .next t) (h : Keeps q r s) : Keeps q r t := by
  unfold execCanRxFrame at e
  obtain rfl := Host.Outcome.next.inj e
  try dsimp only
  repeat' (first
    | (with_reducible assumption) | (with_reducible apply keeps_canReceive))

theorem keeps_execCanRxError {q : Fix} {r : State} {x1 x2 : Nat} {x3 x4 x5 : Bool} {x6 : Nat} {s t : State} (e : execCanRxError x1 x2 x3 x4 x5 x6 s = .next t) (h : Keeps q r s) : Keeps q r t := by
  unfold execCanRxError at e
  obtain rfl := Host.Outcome.next.inj e
  try dsimp only
  repeat' (first
    | (with_reducible assumption) | (with_reducible apply keeps_canErrCode) | (with_reducible apply keeps_settleErrors) | simp only [↓keeps_mk]
    | (with_reducible apply keeps_ite))

theorem keeps_execFcanStatusReport {q : Fix} {r s t : State} (e : execFcanStatusReport s = .next t) (h : Keeps q r s) : Keeps q r t := by
  unfold execFcanStatusReport at e
  obtain rfl := Host.Outcome.next.inj e
  try dsimp only
  repeat' (first
    | (with_reducible assumption) | (with_reducible apply keeps_fieldSend) | simp only [↓keeps_mk] | (with_reducible apply keeps_ite))

theorem keeps_setListener {q : Fix} {r : State} {x1 : Nat} {x2 : Listener} {s : State} (h : Keeps q r s) : Keeps q r (setListener x1 x2 s) := by
  unfold setListener
  try dsimp only
  repeat' (first
    | (with_reducible assumption) | simp only [↓keeps_mk])

theorem keeps_execListenerWakeFrame {q : Fix} {r : State} {x1 x2 : Nat} {x3 : Bool} {x4 x5 : Nat} {x6 : List Byte} {s t : State} (e : execListenerWakeFrame x1 x2 x3 x4 x5 x6 s = .next t) (h : Keeps q r s) : Keeps q r t := by
  unfold execListenerWakeFrame at e
  obtain rfl := Host.Outcome.next.inj e
  try dsimp only
  repeat' (first
    | (with_reducible assumption) | (with_reducible apply keeps_setListener) | (with_reducible apply keeps_wakeEvent) | simp only [↓keeps_mk]
    | (with_reducible apply keeps_ite))

theorem keeps_execListenerFrameError {q : Fix} {r : State} {x1 : Nat} {s t : State} (e : execListenerFrameError x1 s = .next t) (h : Keeps q r s) : Keeps q r t := by
  unfold execListenerFrameError at e
  obtain rfl := Host.Outcome.next.inj e
  try dsimp only
  repeat' (first
    | (with_reducible assumption) | (with_reducible apply keeps_setListener) | simp only [↓keeps_mk] | (with_reducible apply keeps_ite))

theorem keeps_execListenerFecOverflow {q : Fix} {r : State} {x1 x2 : Nat} {s t : State} (e : execListenerFecOverflow x1 x2 s = .next t) (h : Keeps q r s) : Keeps q r t := by
  unfold execListenerFecOverflow at e
  obtain rfl := Host.Outcome.next.inj e
  try dsimp only
  repeat' (first
    | (with_reducible assumption) | (with_reducible apply keeps_wakeEvent) | (with_reducible apply keeps_setListener) | simp only [↓keeps_mk]
    | (with_reducible apply keeps_ite))

theorem keeps_execLinSlotStart {q : Fix} {r : State} {x1 : Nat} {s t : State} (e : execLinSlotStart x1 s = .next t) (h : Keeps q r s) : Keeps q r t := by
  unfold execLinSlotStart at e
  obtain rfl := Host.Outcome.next.inj e
  try dsimp only
  repeat' (first
    | (with_reducible assumption) | (with_reducible apply keeps_linSlot))

theorem keeps_linHeader {q : Fix} {r : State} {x1 x2 : Nat} {x3 : Bool} {s : State} (h : Keeps q r s) : Keeps q r (linHeader x1 x2 x3 s) := by
  unfold linHeader
  try dsimp only
  repeat' (first
    | (with_reducible assumption) | (with_reducible apply keeps_linSleepNow) | (with_reducible apply keeps_startHeader) | simp only [↓keeps_mk]
    | (with_reducible apply keeps_ite))

theorem keeps_execLinHeaderRx {q : Fix} {r : State} {x1 x2 : Nat} {x3 : Bool} {s t : State} (e : execLinHeaderRx x1 x2 x3 s = .next t) (h : Keeps q r s) : Keeps q r t := by
  unfold execLinHeaderRx at e
  obtain rfl := Host.Outcome.next.inj e
  try dsimp only
  repeat' (first
    | (with_reducible assumption) | (with_reducible apply keeps_linHeader))

theorem keeps_execLinResponseRx {q : Fix} {r : State} {x1 x2 x3 x4 : Nat} {x5 : List Byte} {x6 : Bool} {s t : State} (e : execLinResponseRx x1 x2 x3 x4 x5 x6 s = .next t) (h : Keeps q r s) : Keeps q r t := by
  unfold execLinResponseRx at e
  obtain rfl := Host.Outcome.next.inj e
  try dsimp only
  repeat' (first
    | (with_reducible assumption) | (with_reducible apply keeps_linResponse) | simp only [↓keeps_mk] | (with_reducible apply keeps_ite))

theorem keeps_linMissing {q : Fix} {r : State} {x1 : Nat} {s : State} (h : Keeps q r s) : Keeps q r (linMissing x1 s) := by
  unfold linMissing
  try dsimp only
  repeat' (first
    | (with_reducible assumption) | (with_reducible apply keeps_bump) | (with_reducible apply keeps_setLin) | simp only [↓keeps_mk]
    | (with_reducible refine keeps_of_eq (by with_reducible assumption) ?_) | (with_reducible apply keeps_ite) | split)

theorem keeps_execLinNoResponse {q : Fix} {r : State} {x1 : Nat} {s t : State} (e : execLinNoResponse x1 s = .next t) (h : Keeps q r s) : Keeps q r t := by
  unfold execLinNoResponse at e
  obtain rfl := Host.Outcome.next.inj e
  try dsimp only
  repeat' (first
    | (with_reducible assumption) | (with_reducible apply keeps_linMissing))

theorem keeps_execLinWakePulse {q : Fix} {r : State} {x1 : Nat} {s t : State} (e : execLinWakePulse x1 s = .next t) (h : Keeps q r s) : Keeps q r t := by
  unfold execLinWakePulse at e
  obtain rfl := Host.Outcome.next.inj e
  try dsimp only
  repeat' (first
    | (with_reducible assumption) | (with_reducible apply keeps_linWoken))

theorem keeps_execLinIdleSleep {q : Fix} {r : State} {x1 : Nat} {s t : State} (e : execLinIdleSleep x1 s = .next t) (h : Keeps q r s) : Keeps q r t := by
  unfold execLinIdleSleep at e
  obtain rfl := Host.Outcome.next.inj e
  try dsimp only
  repeat' (first
    | (with_reducible assumption) | (with_reducible apply keeps_linSleepNow) | simp only [↓keeps_mk] | (with_reducible apply keeps_ite))

theorem keeps_execLinScheduleResume {q : Fix} {r : State} {x1 : Nat} {s t : State} (e : execLinScheduleResume x1 s = .next t) (h : Keeps q r s) : Keeps q r t := by
  unfold execLinScheduleResume at e
  obtain rfl := Host.Outcome.next.inj e
  try dsimp only
  repeat' (first
    | (with_reducible assumption) | (with_reducible apply keeps_setLin) | simp only [↓keeps_mk]
    | (with_reducible refine keeps_of_eq (by with_reducible assumption) ?_) | (with_reducible apply keeps_ite) | split)

theorem keeps_execLinBusFault {q : Fix} {r : State} {x1 : Nat} {s t : State} (e : execLinBusFault x1 s = .next t) (h : Keeps q r s) : Keeps q r t := by
  unfold execLinBusFault at e
  obtain rfl := Host.Outcome.next.inj e
  try dsimp only
  repeat' (first
    | (with_reducible assumption) | (with_reducible apply keeps_raise) | (with_reducible apply keeps_linPortState) | (with_reducible apply keeps_setLin)
    | simp only [↓keeps_mk] | (with_reducible apply keeps_ite))

theorem keeps_execLinBusFaultEnd {q : Fix} {r : State} {x1 : Nat} {s t : State} (e : execLinBusFaultEnd x1 s = .next t) (h : Keeps q r s) : Keeps q r t := by
  unfold execLinBusFaultEnd at e
  obtain rfl := Host.Outcome.next.inj e
  try dsimp only
  repeat' (first
    | (with_reducible assumption) | (with_reducible apply keeps_linPortState) | (with_reducible apply keeps_setLin) | simp only [↓keeps_mk]
    | (with_reducible apply keeps_ite))

theorem keeps_execEthRxFrame {q : Fix} {r : State} {x1 x2 : Nat} {x3 : List Byte} {x4 : Bool} {s t : State} (e : execEthRxFrame x1 x2 x3 x4 s = .next t) (h : Keeps q r s) : Keeps q r t := by
  unfold execEthRxFrame at e
  obtain rfl := Host.Outcome.next.inj e
  try dsimp only
  repeat' (first
    | (with_reducible assumption) | (with_reducible apply keeps_dropLate) | (with_reducible apply keeps_ethReceive) | simp only [↓keeps_mk]
    | (with_reducible apply keeps_ite))

theorem keeps_execEthLinkChange {q : Fix} {r : State} {x1 : Nat} {x2 : Bool} {x3 : Nat} {x4 : Bool} {s t : State} (e : execEthLinkChange x1 x2 x3 x4 s = .next t) (h : Keeps q r s) : Keeps q r t := by
  unfold execEthLinkChange at e
  obtain rfl := Host.Outcome.next.inj e
  try dsimp only
  repeat' (first
    | (with_reducible assumption) | (with_reducible apply keeps_ethLink) | simp only [↓keeps_mk] | (with_reducible apply keeps_ite))

theorem keeps_execEthCollision {q : Fix} {r : State} {x1 : Nat} {s t : State} (e : execEthCollision x1 s = .next t) (h : Keeps q r s) : Keeps q r t := by
  unfold execEthCollision at e
  obtain rfl := Host.Outcome.next.inj e
  try dsimp only
  repeat' (first
    | (with_reducible assumption) | (with_reducible apply keeps_ethCollide))

theorem keeps_sleepRejected {q : Fix} {r : State} {x1 : Nat} {s : State} (h : Keeps q r s) : Keeps q r (sleepRejected x1 s) := by
  unfold sleepRejected
  try dsimp only
  repeat' (first
    | (with_reducible assumption) | (with_reducible apply keeps_setT1) | (with_reducible apply keeps_bump))

theorem keeps_execTc10SleepAck {q : Fix} {r : State} {x1 : Nat} {s t : State} (e : execTc10SleepAck x1 s = .next t) (h : Keeps q r s) : Keeps q r t := by
  unfold execTc10SleepAck at e
  obtain rfl := Host.Outcome.next.inj e
  try dsimp only
  repeat' (first
    | (with_reducible assumption) | (with_reducible apply keeps_setT1) | simp only [↓keeps_mk] | (with_reducible apply keeps_ite))

theorem keeps_execTc10SleepreqTimeout {q : Fix} {r : State} {x1 : Nat} {s t : State} (e : execTc10SleepreqTimeout x1 s = .next t) (h : Keeps q r s) : Keeps q r t := by
  unfold execTc10SleepreqTimeout at e
  obtain rfl := Host.Outcome.next.inj e
  try dsimp only
  repeat' (first
    | (with_reducible assumption) | (with_reducible apply keeps_sleepRejected) | simp only [↓keeps_mk] | (with_reducible apply keeps_ite))

theorem keeps_partnerSleep {q : Fix} {r : State} {x1 : Nat} {s : State} (h : Keeps q r s) : Keeps q r (partnerSleep x1 s) := by
  unfold partnerSleep
  try dsimp only
  repeat' (first
    | (with_reducible assumption) | (with_reducible apply keeps_setT1) | simp only [↓keeps_mk] | (with_reducible apply keeps_ite))

theorem keeps_execTc10PartnerSleep {q : Fix} {r : State} {x1 : Nat} {s t : State} (e : execTc10PartnerSleep x1 s = .next t) (h : Keeps q r s) : Keeps q r t := by
  unfold execTc10PartnerSleep at e
  obtain rfl := Host.Outcome.next.inj e
  try dsimp only
  repeat' (first
    | (with_reducible assumption) | (with_reducible apply keeps_partnerSleep))

theorem keeps_tc10Wake {q : Fix} {r : State} {x1 : Nat} {x2 : Stamp} {s : State} (h : Keeps q r s) : Keeps q r (tc10Wake x1 x2 s) := by
  unfold tc10Wake
  try dsimp only
  repeat' (first
    | (with_reducible assumption) | (with_reducible apply keeps_wakeEvent) | (with_reducible apply keeps_setT1) | (with_reducible apply keeps_sleepRejected)
    | simp only [↓keeps_mk] | (with_reducible apply keeps_ite))

theorem keeps_execTc10WakeDetect {q : Fix} {r : State} {x1 x2 : Nat} {s t : State} (e : execTc10WakeDetect x1 x2 s = .next t) (h : Keeps q r s) : Keeps q r t := by
  unfold execTc10WakeDetect at e
  obtain rfl := Host.Outcome.next.inj e
  try dsimp only
  repeat' (first
    | (with_reducible assumption) | (with_reducible apply keeps_tc10Wake))

theorem keeps_netMgmt {q : Fix} {r s : State} (h : Keeps q r s) : Keeps q r (netMgmt s) := by
  unfold netMgmt
  try dsimp only
  repeat' (first
    | (with_reducible assumption) | intro _ | (with_reducible refine keeps_takeIf' (by with_reducible assumption) ?_) | (with_reducible apply keeps_nmTake)
    | simp only [↓keeps_mk] | (with_reducible refine keeps_of_eq (by with_reducible assumption) ?_) | split)

theorem keeps_execNetMgmtRequest {q : Fix} {r s t : State} (e : execNetMgmtRequest s = .next t) (h : Keeps q r s) : Keeps q r t := by
  unfold execNetMgmtRequest at e
  obtain rfl := Host.Outcome.next.inj e
  try dsimp only
  repeat' (first
    | (with_reducible assumption) | (with_reducible apply keeps_netMgmt))

theorem keeps_execUpdateInject {q : Fix} {r s t : State} (e : execUpdateInject s = .next t) (h : Keeps q r s) (hkey : ¬ q.key) (hroot : ∀ a, q.enter a 0) : Keeps q r t := by
  unfold execUpdateInject at e
  obtain rfl := Host.Outcome.next.inj e
  try dsimp only
  repeat' (first
    | (with_reducible assumption) | intro _ | (with_reducible apply keeps_updFromQueue))

theorem keeps_execUpdateDelete {q : Fix} {r s t : State} (e : execUpdateDelete s = .next t) (h : Keeps q r s) (hkey : ¬ q.key) (hroot : ∀ a, q.enter a 0) : Keeps q r t := by
  unfold execUpdateDelete at e
  obtain rfl := Host.Outcome.next.inj e
  try dsimp only
  repeat' (first
    | (with_reducible assumption) | intro _ | (with_reducible apply keeps_updFromQueue))

theorem keeps_execUpdateRoot {q : Fix} {r s t : State} (e : execUpdateRoot s = .next t) (h : Keeps q r s) (hkey : ¬ q.key) (hroot : ∀ a, q.enter a 0) : Keeps q r t := by
  unfold execUpdateRoot at e
  obtain rfl := Host.Outcome.next.inj e
  try dsimp only
  repeat' (first
    | (with_reducible assumption) | intro _ | (with_reducible apply keeps_updFromQueue))

theorem keeps_execUpdateRegwrite {q : Fix} {r s t : State} (e : execUpdateRegwrite s = .next t) (h : Keeps q r s) (hkey : ¬ q.key) (hroot : ∀ a, q.enter a 0) : Keeps q r t := by
  unfold execUpdateRegwrite at e
  obtain rfl := Host.Outcome.next.inj e
  try dsimp only
  repeat' (first
    | (with_reducible assumption) | intro _ | (with_reducible apply keeps_updFromQueue))

theorem keeps_execTamperDetect {q : Fix} {r : State} {x1 : Nat} {s t : State} (e : execTamperDetect x1 s = .next t) (h : Keeps q r s) (hkey : ¬ q.key) (htam : ∀ a, a = 0 ∨ q.enter a 0 → q.enter a 1) : Keeps q r t := by
  unfold execTamperDetect at e
  obtain rfl := Host.Outcome.next.inj e
  try dsimp only
  repeat' (first
    | (with_reducible assumption) | (with_reducible apply keeps_tamper))

theorem keeps_execTamperConditionEnd {q : Fix} {r : State} {x1 : Nat} {s t : State} (e : execTamperConditionEnd x1 s = .next t) (h : Keeps q r s) : Keeps q r t := by
  unfold execTamperConditionEnd at e
  obtain rfl := Host.Outcome.next.inj e
  try dsimp only
  repeat' (first
    | (with_reducible assumption) | (with_reducible apply keeps_setTampCond))

theorem keeps_execGraceExpiry {q : Fix} {r : State} {x1 : Nat} {s t : State} (e : execGraceExpiry x1 s = .next t) (h : Keeps q r s) : Keeps q r t := by
  unfold execGraceExpiry at e
  obtain rfl := Host.Outcome.next.inj e
  try dsimp only
  repeat' (first
    | (with_reducible assumption) | (with_reducible apply keeps_endGrace) | simp only [↓keeps_mk]
    | (with_reducible refine keeps_of_eq (by with_reducible assumption) ?_) | (with_reducible apply keeps_ite) | split)

theorem keeps_execRandom {q : Fix} {r : State} {x1 : SvcPath} {s t : State} (e : execRandom x1 s = .next t) (h : Keeps q r s) : Keeps q r t := by
  unfold execRandom at e
  obtain rfl := Host.Outcome.next.inj e
  try dsimp only
  repeat' (first
    | (with_reducible assumption) | intro _ | (with_reducible apply keeps_serve) | (with_reducible apply keeps_svcRandom))

theorem keeps_execMacgen {q : Fix} {r : State} {x1 : SvcPath} {s t : State} (e : execMacgen x1 s = .next t) (h : Keeps q r s) : Keeps q r t := by
  unfold execMacgen at e
  obtain rfl := Host.Outcome.next.inj e
  try dsimp only
  repeat' (first
    | (with_reducible assumption) | intro _ | (with_reducible apply keeps_serve) | (with_reducible apply keeps_svcMacgen))

theorem keeps_execMacver {q : Fix} {r : State} {x1 : SvcPath} {s t : State} (e : execMacver x1 s = .next t) (h : Keeps q r s) : Keeps q r t := by
  unfold execMacver at e
  obtain rfl := Host.Outcome.next.inj e
  try dsimp only
  repeat' (first
    | (with_reducible assumption) | intro _ | (with_reducible apply keeps_serve) | (with_reducible apply keeps_svcMacver))

theorem keeps_execGcmenc {q : Fix} {r : State} {x1 : SvcPath} {s t : State} (e : execGcmenc x1 s = .next t) (h : Keeps q r s) : Keeps q r t := by
  unfold execGcmenc at e
  obtain rfl := Host.Outcome.next.inj e
  try dsimp only
  repeat' (first
    | (with_reducible assumption) | intro _ | (with_reducible apply keeps_serve) | (with_reducible apply keeps_svcGcmenc))

theorem keeps_execGcmdec {q : Fix} {r : State} {x1 : SvcPath} {s t : State} (e : execGcmdec x1 s = .next t) (h : Keeps q r s) : Keeps q r t := by
  unfold execGcmdec at e
  obtain rfl := Host.Outcome.next.inj e
  try dsimp only
  repeat' (first
    | (with_reducible assumption) | intro _ | (with_reducible apply keeps_serve) | (with_reducible apply keeps_svcGcmdec))

theorem keeps_execCtrenc {q : Fix} {r : State} {x1 : SvcPath} {s t : State} (e : execCtrenc x1 s = .next t) (h : Keeps q r s) : Keeps q r t := by
  unfold execCtrenc at e
  obtain rfl := Host.Outcome.next.inj e
  try dsimp only
  repeat' (first
    | (with_reducible assumption) | intro _ | (with_reducible apply keeps_serve) | (with_reducible apply keeps_svcCtrenc))

theorem keeps_execWrap {q : Fix} {r : State} {x1 : SvcPath} {s t : State} (e : execWrap x1 s = .next t) (h : Keeps q r s) : Keeps q r t := by
  unfold execWrap at e
  obtain rfl := Host.Outcome.next.inj e
  try dsimp only
  repeat' (first
    | (with_reducible assumption) | intro _ | (with_reducible apply keeps_serve) | (with_reducible apply keeps_svcWrap))

theorem keeps_execUnwrap {q : Fix} {r : State} {x1 : SvcPath} {s t : State} (e : execUnwrap x1 s = .next t) (h : Keeps q r s) : Keeps q r t := by
  unfold execUnwrap at e
  obtain rfl := Host.Outcome.next.inj e
  try dsimp only
  repeat' (first
    | (with_reducible assumption) | intro _ | (with_reducible apply keeps_serve) | (with_reducible apply keeps_svcUnwrap))

theorem keeps_execGenkey {q : Fix} {r : State} {x1 : SvcPath} {s t : State} (e : execGenkey x1 s = .next t) (h : Keeps q r s) : Keeps q r t := by
  unfold execGenkey at e
  obtain rfl := Host.Outcome.next.inj e
  try dsimp only
  repeat' (first
    | (with_reducible assumption) | intro _ | (with_reducible apply keeps_serve) | (with_reducible apply keeps_svcGenkey))

theorem keeps_execErase {q : Fix} {r : State} {x1 : SvcPath} {s t : State} (e : execErase x1 s = .next t) (h : Keeps q r s) : Keeps q r t := by
  unfold execErase at e
  obtain rfl := Host.Outcome.next.inj e
  try dsimp only
  repeat' (first
    | (with_reducible assumption) | intro _ | (with_reducible apply keeps_serve) | (with_reducible apply keeps_svcErase))

theorem keeps_execCancel {q : Fix} {r : State} {x1 : SvcPath} {s t : State} (e : execCancel x1 s = .next t) (h : Keeps q r s) : Keeps q r t := by
  unfold execCancel at e
  obtain rfl := Host.Outcome.next.inj e
  try dsimp only
  repeat' (first
    | (with_reducible assumption) | intro _ | (with_reducible apply keeps_serve) | (with_reducible apply keeps_svcCancel))

theorem keeps_execConfirm {q : Fix} {r : State} {x1 : SvcPath} {s t : State} (e : execConfirm x1 s = .next t) (h : Keeps q r s) : Keeps q r t := by
  unfold execConfirm at e
  obtain rfl := Host.Outcome.next.inj e
  try dsimp only
  repeat' (first
    | (with_reducible assumption) | intro _ | (with_reducible apply keeps_serve) | (with_reducible apply keeps_svcConfirm))

theorem keeps_execKdf {q : Fix} {r : State} {x1 : SvcPath} {s t : State} (e : execKdf x1 s = .next t) (h : Keeps q r s) : Keeps q r t := by
  unfold execKdf at e
  obtain rfl := Host.Outcome.next.inj e
  try dsimp only
  repeat' (first
    | (with_reducible assumption) | intro _ | (with_reducible apply keeps_serve) | (with_reducible apply keeps_svcKdf))

theorem keeps_execSign {q : Fix} {r : State} {x1 : SvcPath} {s t : State} (e : execSign x1 s = .next t) (h : Keeps q r s) : Keeps q r t := by
  unfold execSign at e
  obtain rfl := Host.Outcome.next.inj e
  try dsimp only
  repeat' (first
    | (with_reducible assumption) | intro _ | (with_reducible apply keeps_serve) | (with_reducible apply keeps_svcSign))

theorem keeps_execVerify {q : Fix} {r : State} {x1 : SvcPath} {s t : State} (e : execVerify x1 s = .next t) (h : Keeps q r s) : Keeps q r t := by
  unfold execVerify at e
  obtain rfl := Host.Outcome.next.inj e
  try dsimp only
  repeat' (first
    | (with_reducible assumption) | intro _ | (with_reducible apply keeps_serve) | (with_reducible apply keeps_svcVerify))

theorem keeps_execAgree {q : Fix} {r : State} {x1 : SvcPath} {s t : State} (e : execAgree x1 s = .next t) (h : Keeps q r s) : Keeps q r t := by
  unfold execAgree at e
  obtain rfl := Host.Outcome.next.inj e
  try dsimp only
  repeat' (first
    | (with_reducible assumption) | intro _ | (with_reducible apply keeps_serve) | (with_reducible apply keeps_svcAgree))

theorem keeps_execMkaderive {q : Fix} {r : State} {x1 : SvcPath} {s t : State} (e : execMkaderive x1 s = .next t) (h : Keeps q r s) : Keeps q r t := by
  unfold execMkaderive at e
  obtain rfl := Host.Outcome.next.inj e
  try dsimp only
  repeat' (first
    | (with_reducible assumption) | intro _ | (with_reducible apply keeps_serve) | (with_reducible apply keeps_svcMkaderive))

theorem keeps_execPkload {q : Fix} {r : State} {x1 : SvcPath} {s t : State} (e : execPkload x1 s = .next t) (h : Keeps q r s) : Keeps q r t := by
  unfold execPkload at e
  obtain rfl := Host.Outcome.next.inj e
  try dsimp only
  repeat' (first
    | (with_reducible assumption) | intro _ | (with_reducible apply keeps_serve) | (with_reducible apply keeps_svcPkload))

theorem keeps_execHash {q : Fix} {r : State} {x1 : SvcPath} {s t : State} (e : execHash x1 s = .next t) (h : Keeps q r s) : Keeps q r t := by
  unfold execHash at e
  obtain rfl := Host.Outcome.next.inj e
  try dsimp only
  repeat' (first
    | (with_reducible assumption) | intro _ | (with_reducible apply keeps_serve) | (with_reducible apply keeps_svcHash))

theorem keeps_execSelftest {q : Fix} {r : State} {x1 : SvcPath} {s t : State} (e : execSelftest x1 s = .next t) (h : Keeps q r s) : Keeps q r t := by
  unfold execSelftest at e
  obtain rfl := Host.Outcome.next.inj e
  try dsimp only
  repeat' (first
    | (with_reducible assumption) | intro _ | (with_reducible apply keeps_serve) | (with_reducible apply keeps_svcSelftest))

theorem keeps_execServiceBadmsg {q : Fix} {r s t : State} (e : execServiceBadmsg s = .next t) (h : Keeps q r s) : Keeps q r t := by
  unfold execServiceBadmsg at e
  obtain rfl := Host.Outcome.next.inj e
  try dsimp only
  repeat' (first
    | (with_reducible assumption) | (with_reducible apply keeps_badService))

theorem keeps_jobComplete {q : Fix} {r : State} {x1 : Nat} {s : State} (h : Keeps q r s) : Keeps q r (jobComplete x1 s) := by
  unfold jobComplete
  try dsimp only
  repeat' (first
    | (with_reducible assumption) | (with_reducible apply keeps_tokenComplete) | (with_reducible apply keeps_finishJob) | simp only [↓keeps_mk]
    | (with_reducible refine keeps_of_eq (by with_reducible assumption) ?_) | (with_reducible apply keeps_ite) | split)

theorem keeps_execSpJobComplete {q : Fix} {r : State} {x1 : Nat} {s t : State} (e : execSpJobComplete x1 s = .next t) (h : Keeps q r s) : Keeps q r t := by
  unfold execSpJobComplete at e
  obtain rfl := Host.Outcome.next.inj e
  try dsimp only
  repeat' (first
    | (with_reducible assumption) | (with_reducible apply keeps_jobComplete))

theorem keeps_execLmeRowEnd {q : Fix} {r : State} {x1 : List LmeIssue} {s t : State} (e : execLmeRowEnd x1 s = .next t) (h : Keeps q r s) : Keeps q r t := by
  unfold execLmeRowEnd at e
  obtain rfl := Host.Outcome.next.inj e
  try dsimp only
  repeat' (first
    | (with_reducible assumption) | (with_reducible apply keeps_lmeRowEnd))

theorem keeps_execShaBlockEnd {q : Fix} {r : State} {x1 : Nat} {s t : State} (e : execShaBlockEnd x1 s = .next t) (h : Keeps q r s) : Keeps q r t := by
  unfold execShaBlockEnd at e
  obtain rfl := Host.Outcome.next.inj e
  try dsimp only
  repeat' (first
    | (with_reducible assumption) | (with_reducible apply keeps_shaBlockEnd) | simp only [↓keeps_mk] | (with_reducible apply keeps_ite))

theorem keeps_execDrbgReseed {q : Fix} {r s t : State} (e : execDrbgReseed s = .next t) (h : Keeps q r s) : Keeps q r t := by
  unfold execDrbgReseed at e
  obtain rfl := Host.Outcome.next.inj e
  try dsimp only
  repeat' (first
    | (with_reducible assumption) | (with_reducible apply keeps_bump) | simp only [↓keeps_mk] | (with_reducible apply keeps_ite))

theorem keeps_execEntropyTestFail {q : Fix} {r s t : State} (e : execEntropyTestFail s = .next t) (h : Keeps q r s) : Keeps q r t := by
  unfold execEntropyTestFail at e
  obtain rfl := Host.Outcome.next.inj e
  try dsimp only
  repeat' (first
    | (with_reducible assumption) | (with_reducible apply keeps_raise) | simp only [↓keeps_mk])

theorem keeps_execTahrFrameRx {q : Fix} {r : State} {x1 : Bool} {x2 : List Byte} {x3 : Bool} {s t : State} (e : execTahrFrameRx x1 x2 x3 s = .next t) (h : Keeps q r s) : Keeps q r t := by
  unfold execTahrFrameRx at e
  obtain rfl := Host.Outcome.next.inj e
  try dsimp only
  repeat' (first
    | (with_reducible assumption) | (with_reducible apply keeps_frameRx) | (with_reducible apply keeps_takeAnswers) | simp only [↓keeps_mk]
    | (with_reducible apply keeps_ite))

theorem keeps_execTahrRetrain {q : Fix} {r s t : State} (e : execTahrRetrain s = .next t) (h : Keeps q r s) : Keeps q r t := by
  unfold execTahrRetrain at e
  obtain rfl := Host.Outcome.next.inj e
  try dsimp only
  repeat' (first
    | (with_reducible assumption) | (with_reducible apply keeps_retrain) | simp only [↓keeps_mk] | (with_reducible apply keeps_ite))

theorem keeps_execLaneRetire {q : Fix} {r : State} {x1 : Bool} {x2 : Nat} {s t : State} (e : execLaneRetire x1 x2 s = .next t) (h : Keeps q r s) : Keeps q r t := by
  unfold execLaneRetire at e
  obtain rfl := Host.Outcome.next.inj e
  try dsimp only
  repeat' (first
    | (with_reducible assumption) | (with_reducible apply keeps_retireLane) | simp only [↓keeps_mk] | (with_reducible apply keeps_ite))

theorem keeps_execTrainingComplete {q : Fix} {r s t : State} (e : execTrainingComplete s = .next t) (h : Keeps q r s) : Keeps q r t := by
  unfold execTrainingComplete at e
  obtain rfl := Host.Outcome.next.inj e
  try dsimp only
  repeat' (first
    | (with_reducible assumption) | (with_reducible apply keeps_trained) | simp only [↓keeps_mk] | (with_reducible apply keeps_ite))

theorem keeps_execTrainingRetry {q : Fix} {r s t : State} (e : execTrainingRetry s = .next t) (h : Keeps q r s) : Keeps q r t := by
  unfold execTrainingRetry at e
  obtain rfl := Host.Outcome.next.inj e
  try dsimp only
  repeat' (first
    | (with_reducible assumption) | simp only [↓keeps_mk] | (with_reducible apply keeps_ite))

theorem keeps_execNullFrameSend {q : Fix} {r : State} {x1 : Bool} {s t : State} (e : execNullFrameSend x1 s = .next t) (h : Keeps q r s) : Keeps q r t := by
  unfold execNullFrameSend at e
  obtain rfl := Host.Outcome.next.inj e
  try dsimp only
  repeat' (first
    | (with_reducible assumption) | (with_reducible apply keeps_setEnd) | simp only [↓keeps_mk] | (with_reducible apply keeps_ite))

theorem keeps_execHeartbeatSend {q : Fix} {r : State} {x1 : Bool} {s t : State} (e : execHeartbeatSend x1 s = .next t) (h : Keeps q r s) : Keeps q r t := by
  unfold execHeartbeatSend at e
  obtain rfl := Host.Outcome.next.inj e
  try dsimp only
  repeat' (first
    | (with_reducible assumption) | (with_reducible apply keeps_sendMsg) | simp only [↓keeps_mk]
    | (with_reducible refine keeps_of_eq (by with_reducible assumption) ?_) | (with_reducible apply keeps_ite))

theorem keeps_execHeartbeatRx {q : Fix} {r : State} {x1 : Bool} {s t : State} (e : execHeartbeatRx x1 s = .next t) (h : Keeps q r s) : Keeps q r t := by
  unfold execHeartbeatRx at e
  obtain rfl := Host.Outcome.next.inj e
  try dsimp only
  repeat' (first
    | (with_reducible assumption) | intro _ | (with_reducible refine keeps_takeInbox' (by with_reducible assumption) ?_)
    | (with_reducible apply keeps_fieldHeartbeat) | (with_reducible apply keeps_heartbeatAtHost) | simp only [↓keeps_mk]
    | (with_reducible refine keeps_of_eq (by with_reducible assumption) ?_) | (with_reducible apply keeps_ite) | (with_reducible apply keeps_ite1) | split)

theorem keeps_execLinkDown {q : Fix} {r : State} {x1 : Bool} {s t : State} (e : execLinkDown x1 s = .next t) (h : Keeps q r s) : Keeps q r t := by
  unfold execLinkDown at e
  obtain rfl := Host.Outcome.next.inj e
  try dsimp only
  repeat' (first
    | (with_reducible assumption) | (with_reducible apply keeps_fieldLinkDown) | (with_reducible apply keeps_endFieldWork)
    | (with_reducible apply keeps_remoteDown) | (with_reducible apply keeps_hostLinkDown) | simp only [↓keeps_mk] | (with_reducible apply keeps_ite))

theorem keeps_timesyncRequest {q : Fix} {r s : State} (h : Keeps q r s) : Keeps q r (timesyncRequest s) := by
  unfold timesyncRequest
  try dsimp only
  repeat' (first
    | (with_reducible assumption) | (with_reducible apply keeps_sendMsg) | simp only [↓keeps_mk])

theorem keeps_execTimesyncRequest {q : Fix} {r s t : State} (e : execTimesyncRequest s = .next t) (h : Keeps q r s) : Keeps q r t := by
  unfold execTimesyncRequest at e
  obtain rfl := Host.Outcome.next.inj e
  try dsimp only
  repeat' (first
    | (with_reducible assumption) | (with_reducible apply keeps_timesyncRequest) | simp only [↓keeps_mk] | (with_reducible apply keeps_ite))

theorem keeps_timesyncAtField {q : Fix} {r : State} {x1 : XMsg} {x2 : Stamp} {s : State} (h : Keeps q r s) : Keeps q r (timesyncAtField x1 x2 s) := by
  unfold timesyncAtField
  try dsimp only
  repeat' (first
    | (with_reducible assumption) | (with_reducible apply keeps_takeOffset) | (with_reducible apply keeps_sendMsg) | simp only [↓keeps_mk]
    | (with_reducible refine keeps_of_eq (by with_reducible assumption) ?_) | (with_reducible apply keeps_ite))

theorem keeps_timesyncAtHost {q : Fix} {r : State} {x1 : XMsg} {x2 : Stamp} {s : State} (h : Keeps q r s) : Keeps q r (timesyncAtHost x1 x2 s) := by
  unfold timesyncAtHost
  try dsimp only
  repeat' (first
    | (with_reducible assumption) | (with_reducible apply keeps_reportOffset) | simp only [↓keeps_mk] | (with_reducible apply keeps_ite))

theorem keeps_execTimesyncRx {q : Fix} {r : State} {x1 : Bool} {x2 : Nat} {s t : State} (e : execTimesyncRx x1 x2 s = .next t) (h : Keeps q r s) : Keeps q r t := by
  unfold execTimesyncRx at e
  obtain rfl := Host.Outcome.next.inj e
  try dsimp only
  repeat' (first
    | (with_reducible assumption) | intro _ | (with_reducible refine keeps_takeInbox' (by with_reducible assumption) ?_)
    | (with_reducible apply keeps_timesyncAtField) | (with_reducible apply keeps_timesyncAtHost) | simp only [↓keeps_mk]
    | (with_reducible refine keeps_of_eq (by with_reducible assumption) ?_) | (with_reducible apply keeps_ite) | (with_reducible apply keeps_ite1) | split)

theorem keeps_remoteReadExec {q : Fix} {r : State} {x1 : XMsg} {s : State} (h : Keeps q r s) : Keeps q r (remoteReadExec x1 s) := by
  unfold remoteReadExec
  try dsimp only
  repeat' (first
    | (with_reducible assumption) | intro _ | (with_reducible apply keeps_remoteReply) | (with_reducible apply keeps_readWords) | simp only [↓keeps_mk]
    | (with_reducible refine keeps_of_eq (by with_reducible assumption) ?_) | (with_reducible apply keeps_ite))

theorem keeps_execRemoteRead {q : Fix} {r s t : State} (e : execRemoteRead s = .next t) (h : Keeps q r s) : Keeps q r t := by
  unfold execRemoteRead at e
  obtain rfl := Host.Outcome.next.inj e
  try dsimp only
  repeat' (first
    | (with_reducible assumption) | intro _ | (with_reducible refine keeps_takeInbox' (by with_reducible assumption) ?_)
    | (with_reducible apply keeps_remoteReadExec) | simp only [↓keeps_mk] | (with_reducible refine keeps_of_eq (by with_reducible assumption) ?_) | split)

theorem keeps_remoteWriteRun' {q : Fix} {r t : State} {o : Origin} (ws : List (Nat × Nat)) :
    ∀ (i : Nat) (s : State), remoteWriteRun o ws i s = .ok t → Keeps q r s → Keeps q r t := by
  induction ws with
  | nil =>
    intro i s e h
    simp only [remoteWriteRun, Except.ok.injEq] at e
    exact e ▸ h
  | cons p l ih =>
    intro i s e h
    unfold remoteWriteRun at e
    split at e
    · simp at e
    · exact ih _ _ e (keeps_fieldApply h)

theorem keeps_remoteWriteExec {q : Fix} {r : State} {x1 : XMsg} {s : State} (h : Keeps q r s) : Keeps q r (remoteWriteExec x1 s) := by
  unfold remoteWriteExec
  try dsimp only
  repeat' (first
    | (with_reducible assumption) | intro _ | (with_reducible apply keeps_remoteReply) | (with_reducible apply keeps_recordRefusal) | simp only [↓keeps_mk]
    | (with_reducible refine keeps_of_eq (by with_reducible assumption) ?_)
    | (with_reducible refine keeps_remoteWriteRun' _ _ _ (by with_reducible assumption) ?_) | split)

theorem keeps_execRemoteWrite {q : Fix} {r s t : State} (e : execRemoteWrite s = .next t) (h : Keeps q r s) : Keeps q r t := by
  unfold execRemoteWrite at e
  obtain rfl := Host.Outcome.next.inj e
  try dsimp only
  repeat' (first
    | (with_reducible assumption) | intro _ | (with_reducible refine keeps_takeInbox' (by with_reducible assumption) ?_)
    | (with_reducible apply keeps_remoteWriteExec) | simp only [↓keeps_mk] | (with_reducible refine keeps_of_eq (by with_reducible assumption) ?_) | split)

theorem keeps_imageMsg {q : Fix} {r : State} {x1 : Nat} {x2 : XMsg → State → State} {s : State} (h : Keeps q r s) (k2 : ∀ y0 y1, Keeps q r y1 → Keeps q r (x2 y0 y1)) : Keeps q r (imageMsg x1 x2 s) := by
  unfold imageMsg
  try dsimp only
  repeat' (first
    | (with_reducible assumption) | intro _ | (with_reducible refine keeps_takeInbox' (by with_reducible assumption) ?_) | simp only [↓keeps_mk]
    | (with_reducible refine keeps_of_eq (by with_reducible assumption) ?_) | (with_reducible apply k2) | split)

theorem keeps_execFieldStart {q : Fix} {r s t : State} (e : execFieldStart s = .next t) (h : Keeps q r s) : Keeps q r t := by
  unfold execFieldStart at e
  obtain rfl := Host.Outcome.next.inj e
  try dsimp only
  repeat' (first
    | (with_reducible assumption) | intro _ | (with_reducible apply keeps_imageMsg) | (with_reducible apply keeps_fieldStart))

theorem keeps_execImageEntry {q : Fix} {r s t : State} (e : execImageEntry s = .next t) (h : Keeps q r s) : Keeps q r t := by
  unfold execImageEntry at e
  obtain rfl := Host.Outcome.next.inj e
  try dsimp only
  repeat' (first
    | (with_reducible assumption) | intro _ | (with_reducible apply keeps_imageMsg) | (with_reducible apply keeps_imageEntry))

theorem keeps_execImageData {q : Fix} {r s t : State} (e : execImageData s = .next t) (h : Keeps q r s) : Keeps q r t := by
  unfold execImageData at e
  obtain rfl := Host.Outcome.next.inj e
  try dsimp only
  repeat' (first
    | (with_reducible assumption) | intro _ | (with_reducible apply keeps_imageMsg) | (with_reducible apply keeps_imageData))

theorem keeps_execImageCommit {q : Fix} {r s t : State} (e : execImageCommit s = .next t) (h : Keeps q r s) : Keeps q r t := by
  unfold execImageCommit at e
  obtain rfl := Host.Outcome.next.inj e
  try dsimp only
  repeat' (first
    | (with_reducible assumption) | intro _ | (with_reducible apply keeps_imageMsg) | (with_reducible apply keeps_imageCommit))

theorem keeps_execImageAbort {q : Fix} {r s t : State} (e : execImageAbort s = .next t) (h : Keeps q r s) : Keeps q r t := by
  unfold execImageAbort at e
  obtain rfl := Host.Outcome.next.inj e
  try dsimp only
  repeat' (first
    | (with_reducible assumption) | intro _ | (with_reducible apply keeps_imageMsg) | (with_reducible apply keeps_imageAbort))

theorem keeps_execImageResult {q : Fix} {r s t : State} (e : execImageResult s = .next t) (h : Keeps q r s) : Keeps q r t := by
  unfold execImageResult at e
  obtain rfl := Host.Outcome.next.inj e
  try dsimp only
  repeat' (first
    | (with_reducible assumption) | intro _ | (with_reducible refine keeps_takeInbox' (by with_reducible assumption) ?_)
    | (with_reducible apply keeps_imageResult) | simp only [↓keeps_mk] | (with_reducible refine keeps_of_eq (by with_reducible assumption) ?_) | split)

theorem keeps_execFieldFrunEntry {q : Fix} {r s t : State} (e : execFieldFrunEntry s = .next t) (h : Keeps q r s) : Keeps q r t := by
  unfold execFieldFrunEntry at e
  obtain rfl := Host.Outcome.next.inj e
  try dsimp only
  repeat' (first
    | (with_reducible assumption) | (with_reducible apply keeps_frunEntry))

theorem keeps_execFieldFaultReport {q : Fix} {r s t : State} (e : execFieldFaultReport s = .next t) (h : Keeps q r s) : Keeps q r t := by
  unfold execFieldFaultReport at e
  obtain rfl := Host.Outcome.next.inj e
  try dsimp only
  repeat' (first
    | (with_reducible assumption) | intro _ | (with_reducible refine keeps_takeInbox' (by with_reducible assumption) ?_)
    | (with_reducible apply keeps_handleReport) | simp only [↓keeps_mk] | (with_reducible refine keeps_of_eq (by with_reducible assumption) ?_) | split)

theorem keeps_sendReport {q : Fix} {r s : State} (h : Keeps q r s) : Keeps q r (sendReport s) := by
  unfold sendReport
  try dsimp only
  repeat' (first
    | (with_reducible assumption) | (with_reducible apply keeps_fieldSend) | simp only [↓keeps_mk]
    | (with_reducible refine keeps_of_eq (by with_reducible assumption) ?_) | (with_reducible apply keeps_ite) | split)

theorem keeps_execFaultReportSend {q : Fix} {r s t : State} (e : execFaultReportSend s = .next t) (h : Keeps q r s) : Keeps q r t := by
  unfold execFaultReportSend at e
  obtain rfl := Host.Outcome.next.inj e
  try dsimp only
  repeat' (first
    | (with_reducible assumption) | (with_reducible apply keeps_sendReport))

theorem keeps_journalReport {q : Fix} {r : State} {x1 : XMsg} {s : State} (h : Keeps q r s) : Keeps q r (journalReport x1 s) := by
  unfold journalReport
  try dsimp only
  repeat' (first
    | (with_reducible assumption) | (with_reducible apply keeps_mirrorSwap) | (with_reducible apply keeps_jChange) | simp only [↓keeps_mk]
    | (with_reducible apply keeps_ite))

theorem keeps_execFieldJournalReport {q : Fix} {r s t : State} (e : execFieldJournalReport s = .next t) (h : Keeps q r s) : Keeps q r t := by
  unfold execFieldJournalReport at e
  obtain rfl := Host.Outcome.next.inj e
  try dsimp only
  repeat' (first
    | (with_reducible assumption) | intro _ | (with_reducible refine keeps_takeInbox' (by with_reducible assumption) ?_)
    | (with_reducible apply keeps_journalReport) | simp only [↓keeps_mk] | (with_reducible refine keeps_of_eq (by with_reducible assumption) ?_) | split)

theorem keeps_execPermitMessage {q : Fix} {r s t : State} (e : execPermitMessage s = .next t) (h : Keeps q r s) : Keeps q r t := by
  unfold execPermitMessage at e
  obtain rfl := Host.Outcome.next.inj e
  try dsimp only
  repeat' (first
    | (with_reducible assumption) | intro _ | (with_reducible refine keeps_takeInbox' (by with_reducible assumption) ?_)
    | (with_reducible apply keeps_setHostGrant) | simp only [↓keeps_mk] | (with_reducible refine keeps_of_eq (by with_reducible assumption) ?_) | split)

theorem keeps_execMeasRecordSend {q : Fix} {r s t : State} (e : execMeasRecordSend s = .next t) (h : Keeps q r s) : Keeps q r t := by
  unfold execMeasRecordSend at e
  obtain rfl := Host.Outcome.next.inj e
  try dsimp only
  repeat' (first
    | (with_reducible assumption) | (with_reducible apply keeps_recordSend))

theorem keeps_execHoldLineAssert {q : Fix} {r s t : State} (e : execHoldLineAssert s = .next t) (h : Keeps q r s) : Keeps q r t := by
  unfold execHoldLineAssert at e
  obtain rfl := Host.Outcome.next.inj e
  try dsimp only
  repeat' (first
    | (with_reducible assumption) | (with_reducible apply keeps_setHoldSeen) | simp only [↓keeps_mk] | (with_reducible apply keeps_ite))

theorem keeps_execHoldLineDeassert {q : Fix} {r s t : State} (e : execHoldLineDeassert s = .next t) (h : Keeps q r s) : Keeps q r t := by
  unfold execHoldLineDeassert at e
  obtain rfl := Host.Outcome.next.inj e
  try dsimp only
  repeat' (first
    | (with_reducible assumption) | (with_reducible apply keeps_setHoldSeen) | simp only [↓keeps_mk] | (with_reducible apply keeps_ite))

theorem keeps_execPermitGrantStart {q : Fix} {r s t : State} (e : execPermitGrantStart s = .next t) (h : Keeps q r s) (hpermit : ¬ q.permit) : Keeps q r t := by
  unfold execPermitGrantStart at e
  obtain rfl := Host.Outcome.next.inj e
  try dsimp only
  repeat' (first
    | (with_reducible assumption) | (with_reducible apply keeps_permitStart) | simp only [↓keeps_mk] | (with_reducible apply keeps_ite))

theorem keeps_execPermitReadbackMismatch {q : Fix} {r s t : State} (e : execPermitReadbackMismatch s = .next t) (h : Keeps q r s) : Keeps q r t := by
  unfold execPermitReadbackMismatch at e
  obtain rfl := Host.Outcome.next.inj e
  try dsimp only
  repeat' (first
    | (with_reducible assumption) | (with_reducible apply keeps_readbackMismatch) | simp only [↓keeps_mk]
    | (with_reducible refine keeps_of_eq (by with_reducible assumption) ?_) | (with_reducible apply keeps_ite))

theorem keeps_execWatchdogExpiry {q : Fix} {r s t : State} (e : execWatchdogExpiry s = .next t) (h : Keeps q r s) : Keeps q r t := by
  unfold execWatchdogExpiry at e
  obtain rfl := Host.Outcome.next.inj e
  try dsimp only
  repeat' (first
    | (with_reducible assumption) | (with_reducible apply keeps_wdExpire))

theorem keeps_execFilterOutput {q : Fix} {r : State} {x1 : Bool} {x2 : Nat} {x3 x4 : List Int} {s t : State} (e : execFilterOutput x1 x2 x3 x4 s = .next t) (h : Keeps q r s) : Keeps q r t := by
  unfold execFilterOutput at e
  obtain rfl := Host.Outcome.next.inj e
  try dsimp only
  repeat' (first
    | (with_reducible assumption) | (with_reducible apply keeps_filterOutput))

theorem keeps_execWindowClose {q : Fix} {r : State} {x1 : Bool} {x2 : Nat} {s t : State} (e : execWindowClose x1 x2 s = .next t) (h : Keeps q r s) : Keeps q r t := by
  unfold execWindowClose at e
  obtain rfl := Host.Outcome.next.inj e
  try dsimp only
  repeat' (first
    | (with_reducible assumption) | (with_reducible apply keeps_windowClose))

theorem keeps_execMeasSpareCalibrated {q : Fix} {r : State} {x1 : Bool} {s t : State} (e : execMeasSpareCalibrated x1 s = .next t) (h : Keeps q r s) : Keeps q r t := by
  unfold execMeasSpareCalibrated at e
  obtain rfl := Host.Outcome.next.inj e
  try dsimp only
  repeat' (first
    | (with_reducible assumption) | (with_reducible apply keeps_spareCalibrated))

theorem keeps_execConverterSwap {q : Fix} {r s t : State} (e : execConverterSwap s = .next t) (h : Keeps q r s) : Keeps q r t := by
  unfold execConverterSwap at e
  obtain rfl := Host.Outcome.next.inj e
  try dsimp only
  repeat' (first
    | (with_reducible assumption) | (with_reducible apply keeps_converterSwap))

theorem keeps_execMeasCalibrationDone {q : Fix} {r : State} {x1 : Bool} {s t : State} (e : execMeasCalibrationDone x1 s = .next t) (h : Keeps q r s) : Keeps q r t := by
  unfold execMeasCalibrationDone at e
  obtain rfl := Host.Outcome.next.inj e
  try dsimp only
  repeat' (first
    | (with_reducible assumption) | (with_reducible apply keeps_calibrationDone))

theorem keeps_execHsnsCalibrationEnd {q : Fix} {r : State} {x1 : Bool} {s t : State} (e : execHsnsCalibrationEnd x1 s = .next t) (h : Keeps q r s) : Keeps q r t := by
  unfold execHsnsCalibrationEnd at e
  obtain rfl := Host.Outcome.next.inj e
  try dsimp only
  repeat' (first
    | (with_reducible assumption) | (with_reducible apply keeps_hsnsResume))

theorem keeps_execTouchReading {q : Fix} {r : State} {x1 : Nat} {s t : State} (e : execTouchReading x1 s = .next t) (h : Keeps q r s) : Keeps q r t := by
  unfold execTouchReading at e
  obtain rfl := Host.Outcome.next.inj e
  try dsimp only
  repeat' (first
    | (with_reducible assumption) | (with_reducible apply keeps_touchReading))

theorem keeps_execTouchStuck {q : Fix} {r : State} {x1 : Nat} {s t : State} (e : execTouchStuck x1 s = .next t) (h : Keeps q r s) : Keeps q r t := by
  unfold execTouchStuck at e
  obtain rfl := Host.Outcome.next.inj e
  try dsimp only
  repeat' (first
    | (with_reducible assumption) | (with_reducible apply keeps_touchReading) | simp only [↓keeps_mk] | (with_reducible apply keeps_ite))

theorem keeps_execTouchWakeScan {q : Fix} {r : State} {x1 : Nat} {x2 : Int} {x3 : Nat} {s t : State} (e : execTouchWakeScan x1 x2 x3 s = .next t) (h : Keeps q r s) : Keeps q r t := by
  unfold execTouchWakeScan at e
  obtain rfl := Host.Outcome.next.inj e
  try dsimp only
  repeat' (first
    | (with_reducible assumption) | (with_reducible apply keeps_touchScan))

theorem keeps_execTdmFrame {q : Fix} {r : State} {x1 : Nat} {x2 : List Word} {s t : State} (e : execTdmFrame x1 x2 s = .next t) (h : Keeps q r s) : Keeps q r t := by
  unfold execTdmFrame at e
  obtain rfl := Host.Outcome.next.inj e
  try dsimp only
  repeat' (first
    | (with_reducible assumption) | (with_reducible apply keeps_tdmFrame) | simp only [↓keeps_mk] | (with_reducible apply keeps_ite))

theorem keeps_slaveEdge {q : Fix} {r : State} {x1 : Nat} {x2 : Stamp} {x3 : Nat} {s : State} (h : Keeps q r s) : Keeps q r (slaveEdge x1 x2 x3 s) := by
  unfold slaveEdge
  try dsimp only
  repeat' (first
    | (with_reducible assumption) | (with_reducible apply keeps_tdmEdge) | (with_reducible apply keeps_tdmLatch)
    | (with_reducible apply keeps_outboundFrame) | simp only [↓keeps_mk] | (with_reducible apply keeps_ite))

theorem keeps_execTdmFsEdge {q : Fix} {r : State} {x1 x2 x3 : Nat} {s t : State} (e : execTdmFsEdge x1 x2 x3 s = .next t) (h : Keeps q r s) : Keeps q r t := by
  unfold execTdmFsEdge at e
  obtain rfl := Host.Outcome.next.inj e
  try dsimp only
  repeat' (first
    | (with_reducible assumption) | (with_reducible apply keeps_slaveEdge) | simp only [↓keeps_mk] | (with_reducible apply keeps_ite))

theorem keeps_transmitFrame {q : Fix} {r : State} {x1 : Nat} {s : State} (h : Keeps q r s) : Keeps q r (transmitFrame x1 s) := by
  unfold transmitFrame
  try dsimp only
  repeat' (first
    | (with_reducible assumption) | (with_reducible apply keeps_bptFrame) | (with_reducible apply keeps_outboundFrame) | simp only [↓keeps_mk]
    | (with_reducible apply keeps_ite))

theorem keeps_execBptFrame {q : Fix} {r : State} {x1 : Nat} {s t : State} (e : execBptFrame x1 s = .next t) (h : Keeps q r s) : Keeps q r t := by
  unfold execBptFrame at e
  obtain rfl := Host.Outcome.next.inj e
  try dsimp only
  repeat' (first
    | (with_reducible assumption) | (with_reducible apply keeps_transmitFrame) | simp only [↓keeps_mk] | (with_reducible apply keeps_ite))

theorem keeps_execBprFrameRx {q : Fix} {r : State} {x1 x2 : Nat} {x3 x4 : Bool} {x5 x6 : Nat} {s t : State} (e : execBprFrameRx x1 x2 x3 x4 x5 x6 s = .next t) (h : Keeps q r s) : Keeps q r t := by
  unfold execBprFrameRx at e
  obtain rfl := Host.Outcome.next.inj e
  try dsimp only
  repeat' (first
    | (with_reducible assumption) | (with_reducible apply keeps_bprFrame) | simp only [↓keeps_mk] | (with_reducible apply keeps_ite))

theorem keeps_execBprBlockEnd {q : Fix} {r : State} {x1 : Nat} {s t : State} (e : execBprBlockEnd x1 s = .next t) (h : Keeps q r s) : Keeps q r t := by
  unfold execBprBlockEnd at e
  obtain rfl := Host.Outcome.next.inj e
  try dsimp only
  repeat' (first
    | (with_reducible assumption) | (with_reducible apply keeps_bprBlockEnd) | simp only [↓keeps_mk] | (with_reducible apply keeps_ite))

theorem keeps_execAafTalkerPdu {q : Fix} {r : State} {x1 : Nat} {s t : State} (e : execAafTalkerPdu x1 s = .next t) (h : Keeps q r s) : Keeps q r t := by
  unfold execAafTalkerPdu at e
  obtain rfl := Host.Outcome.next.inj e
  try dsimp only
  repeat' (first
    | (with_reducible assumption) | (with_reducible apply keeps_talkerPdu) | simp only [↓keeps_mk] | (with_reducible apply keeps_ite))

theorem keeps_execAafListenerTake {q : Fix} {r : State} {x1 : Nat} {s t : State} (e : execAafListenerTake x1 s = .next t) (h : Keeps q r s) : Keeps q r t := by
  unfold execAafListenerTake at e
  obtain rfl := Host.Outcome.next.inj e
  try dsimp only
  repeat' (first
    | (with_reducible assumption) | (with_reducible apply keeps_listenerTake) | simp only [↓keeps_mk] | (with_reducible apply keeps_ite))

theorem keeps_execAafUnderrun {q : Fix} {r : State} {x1 : Nat} {s t : State} (e : execAafUnderrun x1 s = .next t) (h : Keeps q r s) : Keeps q r t := by
  unfold execAafUnderrun at e
  obtain rfl := Host.Outcome.next.inj e
  try dsimp only
  repeat' (first
    | (with_reducible assumption) | (with_reducible apply keeps_listenerUnder) | simp only [↓keeps_mk] | (with_reducible apply keeps_ite))

theorem keeps_execOutputPrechargeEnd {q : Fix} {r : State} {x1 : Nat} {s t : State} (e : execOutputPrechargeEnd x1 s = .next t) (h : Keeps q r s) : Keeps q r t := by
  unfold execOutputPrechargeEnd at e
  obtain rfl := Host.Outcome.next.inj e
  try dsimp only
  repeat' (first
    | (with_reducible assumption) | (with_reducible apply keeps_outPrecharged) | simp only [↓keeps_mk] | (with_reducible apply keeps_ite))

theorem keeps_execOutputRampdownEnd {q : Fix} {r : State} {x1 : Nat} {s t : State} (e : execOutputRampdownEnd x1 s = .next t) (h : Keeps q r s) : Keeps q r t := by
  unfold execOutputRampdownEnd at e
  obtain rfl := Host.Outcome.next.inj e
  try dsimp only
  repeat' (first
    | (with_reducible assumption) | (with_reducible apply keeps_outRamped) | simp only [↓keeps_mk] | (with_reducible apply keeps_ite))

theorem keeps_execOutputDischargeEnd {q : Fix} {r : State} {x1 : Nat} {s t : State} (e : execOutputDischargeEnd x1 s = .next t) (h : Keeps q r s) : Keeps q r t := by
  unfold execOutputDischargeEnd at e
  obtain rfl := Host.Outcome.next.inj e
  try dsimp only
  repeat' (first
    | (with_reducible assumption) | (with_reducible apply keeps_outDischarged) | simp only [↓keeps_mk] | (with_reducible apply keeps_ite))

theorem keeps_execOutputFault {q : Fix} {r : State} {x1 : Nat} {x2 : Bool} {s t : State} (e : execOutputFault x1 x2 s = .next t) (h : Keeps q r s) : Keeps q r t := by
  unfold execOutputFault at e
  obtain rfl := Host.Outcome.next.inj e
  try dsimp only
  repeat' (first
    | (with_reducible assumption) | (with_reducible apply keeps_outFault) | simp only [↓keeps_mk] | (with_reducible apply keeps_ite))

theorem keeps_execFaultCauseCleared {q : Fix} {r : State} {x1 : Nat} {x2 : Bool} {s t : State} (e : execFaultCauseCleared x1 x2 s = .next t) (h : Keeps q r s) : Keeps q r t := by
  unfold execFaultCauseCleared at e
  obtain rfl := Host.Outcome.next.inj e
  try dsimp only
  repeat' (first
    | (with_reducible assumption) | (with_reducible apply keeps_causeCleared) | simp only [↓keeps_mk] | (with_reducible apply keeps_ite))

theorem keeps_execLimiterBlock {q : Fix} {r s t : State} (e : execLimiterBlock s = .next t) (h : Keeps q r s) : Keeps q r t := by
  unfold execLimiterBlock at e
  obtain rfl := Host.Outcome.next.inj e
  try dsimp only
  repeat' (first
    | (with_reducible assumption) | (with_reducible apply keeps_limiterBlock))

theorem keeps_execInputSettleEnd {q : Fix} {r : State} {x1 : Nat} {s t : State} (e : execInputSettleEnd x1 s = .next t) (h : Keeps q r s) : Keeps q r t := by
  unfold execInputSettleEnd at e
  obtain rfl := Host.Outcome.next.inj e
  try dsimp only
  repeat' (first
    | (with_reducible assumption) | (with_reducible apply keeps_inputSettled))

theorem keeps_execDetectComplete {q : Fix} {r : State} {x1 x2 x3 : Nat} {s t : State} (e : execDetectComplete x1 x2 x3 s = .next t) (h : Keeps q r s) : Keeps q r t := by
  unfold execDetectComplete at e
  obtain rfl := Host.Outcome.next.inj e
  try dsimp only
  repeat' (first
    | (with_reducible assumption) | (with_reducible apply keeps_detectDone))

theorem keeps_execMicBiasSample {q : Fix} {r : State} {x1 x2 : Nat} {s t : State} (e : execMicBiasSample x1 x2 s = .next t) (h : Keeps q r s) : Keeps q r t := by
  unfold execMicBiasSample at e
  obtain rfl := Host.Outcome.next.inj e
  try dsimp only
  repeat' (first
    | (with_reducible assumption) | (with_reducible apply keeps_micSample))

theorem keeps_execBandWindowClose {q : Fix} {r : State} {x1 : Nat} {s t : State} (e : execBandWindowClose x1 s = .next t) (h : Keeps q r s) : Keeps q r t := by
  unfold execBandWindowClose at e
  obtain rfl := Host.Outcome.next.inj e
  try dsimp only
  repeat' (first
    | (with_reducible assumption) | (with_reducible apply keeps_bandClose))

theorem keeps_execAudioCalHoldEnd {q : Fix} {r s t : State} (e : execAudioCalHoldEnd s = .next t) (h : Keeps q r s) : Keeps q r t := by
  unfold execAudioCalHoldEnd at e
  obtain rfl := Host.Outcome.next.inj e
  try dsimp only
  repeat' (first
    | (with_reducible assumption) | (with_reducible apply keeps_calHeld))

theorem keeps_execAudioCalibrationDone {q : Fix} {r s t : State} (e : execAudioCalibrationDone s = .next t) (h : Keeps q r s) : Keeps q r t := by
  unfold execAudioCalibrationDone at e
  obtain rfl := Host.Outcome.next.inj e
  try dsimp only
  repeat' (first
    | (with_reducible assumption) | (with_reducible apply keeps_audCalDone))

theorem keeps_execIslandCheckFail {q : Fix} {r : State} {x1 : Nat} {x2 : Bool} {s t : State} (e : execIslandCheckFail x1 x2 s = .next t) (h : Keeps q r s) : Keeps q r t := by
  unfold execIslandCheckFail at e
  obtain rfl := Host.Outcome.next.inj e
  try dsimp only
  repeat' (first
    | (with_reducible assumption) | (with_reducible apply keeps_islandCheck))

theorem keeps_execSramCorrected {q : Fix} {r : State} {x1 : Bool} {x2 x3 : Nat} {s t : State} (e : execSramCorrected x1 x2 x3 s = .next t) (h : Keeps q r s) : Keeps q r t := by
  unfold execSramCorrected at e
  obtain rfl := Host.Outcome.next.inj e
  try dsimp only
  repeat' (first
    | (with_reducible assumption) | (with_reducible apply keeps_sramCorrected))

theorem keeps_execSramRowReplace {q : Fix} {r : State} {x1 : Bool} {s t : State} (e : execSramRowReplace x1 s = .next t) (h : Keeps q r s) : Keeps q r t := by
  unfold execSramRowReplace at e
  obtain rfl := Host.Outcome.next.inj e
  try dsimp only
  repeat' (first
    | (with_reducible assumption) | (with_reducible apply keeps_sramReplace))

theorem keeps_execSramUncorrectable {q : Fix} {r : State} {x1 : Bool} {x2 : Option Nat} {s t : State} (e : execSramUncorrectable x1 x2 s = .next t) (h : Keeps q r s) : Keeps q r t := by
  unfold execSramUncorrectable at e
  obtain rfl := Host.Outcome.next.inj e
  try dsimp only
  repeat' (first
    | (with_reducible assumption) | (with_reducible apply keeps_raise) | (with_reducible apply keeps_islandCheck) | simp only [↓keeps_mk]
    | (with_reducible refine keeps_of_eq (by with_reducible assumption) ?_) | (with_reducible apply keeps_ite) | split)

theorem keeps_execShedVisitStart {q : Fix} {r : State} {x1 : Bool} {s t : State} (e : execShedVisitStart x1 s = .next t) (h : Keeps q r s) : Keeps q r t := by
  unfold execShedVisitStart at e
  obtain rfl := Host.Outcome.next.inj e
  try dsimp only
  repeat' (first
    | (with_reducible assumption) | (with_reducible apply keeps_visitStart))

theorem keeps_execShedShadowEnd {q : Fix} {r : State} {x1 : Bool} {s t : State} (e : execShedShadowEnd x1 s = .next t) (h : Keeps q r s) : Keeps q r t := by
  unfold execShedShadowEnd at e
  obtain rfl := Host.Outcome.next.inj e
  try dsimp only
  repeat' (first
    | (with_reducible assumption) | (with_reducible apply keeps_shadowEnd))

theorem keeps_execShedHandover {q : Fix} {r : State} {x1 : Bool} {s t : State} (e : execShedHandover x1 s = .next t) (h : Keeps q r s) : Keeps q r t := by
  unfold execShedHandover at e
  obtain rfl := Host.Outcome.next.inj e
  try dsimp only
  repeat' (first
    | (with_reducible assumption) | (with_reducible apply keeps_visitHandover))

theorem keeps_execShedSelftestDone {q : Fix} {r : State} {x1 x2 : Bool} {s t : State} (e : execShedSelftestDone x1 x2 s = .next t) (h : Keeps q r s) : Keeps q r t := by
  unfold execShedSelftestDone at e
  obtain rfl := Host.Outcome.next.inj e
  try dsimp only
  repeat' (first
    | (with_reducible assumption) | (with_reducible apply keeps_selftestDone))

theorem keeps_execShedHandback {q : Fix} {r : State} {x1 : Bool} {s t : State} (e : execShedHandback x1 s = .next t) (h : Keeps q r s) : Keeps q r t := by
  unfold execShedHandback at e
  obtain rfl := Host.Outcome.next.inj e
  try dsimp only
  repeat' (first
    | (with_reducible assumption) | (with_reducible apply keeps_visitHandback))

theorem keeps_execShedHandoverTimeout {q : Fix} {r : State} {x1 : Bool} {s t : State} (e : execShedHandoverTimeout x1 s = .next t) (h : Keeps q r s) : Keeps q r t := by
  unfold execShedHandoverTimeout at e
  obtain rfl := Host.Outcome.next.inj e
  try dsimp only
  repeat' (first
    | (with_reducible assumption) | (with_reducible apply keeps_visitDefer))

theorem keeps_execReturnComplete {q : Fix} {r : State} {x1 : Bool} {s t : State} (e : execReturnComplete x1 s = .next t) (h : Keeps q r s) : Keeps q r t := by
  unfold execReturnComplete at e
  obtain rfl := Host.Outcome.next.inj e
  try dsimp only
  repeat' (first
    | (with_reducible assumption) | (with_reducible apply keeps_returnComplete))

theorem keeps_hostGranted {q : Fix} {r : State} {x1 : Bud} {s : State} (h : Keeps q r s) : Keeps q r (hostGranted x1 s) := by
  unfold hostGranted
  try dsimp only
  repeat' (first
    | (with_reducible assumption) | (with_reducible apply keeps_setJob) | (with_reducible apply keeps_visitGranted)
    | (with_reducible apply keeps_spkGranted) | (with_reducible apply keeps_audCalGranted) | simp only [↓keeps_mk]
    | (with_reducible refine keeps_of_eq (by with_reducible assumption) ?_) | (with_reducible apply keeps_ite) | split)

theorem keeps_fieldGranted {q : Fix} {r : State} {x1 : Bud} {s : State} (h : Keeps q r s) : Keeps q r (fieldGranted x1 s) := by
  unfold fieldGranted
  try dsimp only
  repeat' (first
    | (with_reducible assumption) | (with_reducible apply keeps_visitGranted) | (with_reducible apply keeps_calStep) | simp only [↓keeps_mk]
    | (with_reducible refine keeps_of_eq (by with_reducible assumption) ?_) | split)

theorem keeps_execBudgetGrant {q : Fix} {r : State} {x1 : Bool} {s t : State} (e : execBudgetGrant x1 s = .next t) (h : Keeps q r s) : Keeps q r t := by
  unfold execBudgetGrant at e
  obtain rfl := Host.Outcome.next.inj e
  try dsimp only
  repeat' (first
    | (with_reducible assumption) | (with_reducible refine keeps_budGrantOne' (by with_reducible assumption) ?_) | (with_reducible apply keeps_fieldGranted)
    | (with_reducible apply keeps_hostGranted) | simp only [↓keeps_mk] | (with_reducible refine keeps_of_eq (by with_reducible assumption) ?_)
    | (with_reducible apply keeps_ite) | (with_reducible apply keeps_ite1) | split)

theorem keeps_hostTimedOut {q : Fix} {r : State} {x1 : Bud} {s : State} (h : Keeps q r s) : Keeps q r (hostTimedOut x1 s) := by
  unfold hostTimedOut
  try dsimp only
  repeat' (first
    | (with_reducible assumption) | (with_reducible apply keeps_tokenAbort) | (with_reducible apply keeps_finishJob)
    | (with_reducible apply keeps_visitRefused) | (with_reducible apply keeps_askLeave) | (with_reducible apply keeps_spkRefused)
    | (with_reducible apply keeps_hsnsCalEnd) | (with_reducible apply keeps_audCalEnd) | (with_reducible apply keeps_rootRefused) | simp only [↓keeps_mk]
    | (with_reducible refine keeps_of_eq (by with_reducible assumption) ?_) | (with_reducible apply keeps_ite) | split)

theorem keeps_fieldTimedOut {q : Fix} {r : State} {x1 : Bud} {s : State} (h : Keeps q r s) : Keeps q r (fieldTimedOut x1 s) := by
  unfold fieldTimedOut
  try dsimp only
  repeat' (first
    | (with_reducible assumption) | (with_reducible apply keeps_visitRefused) | (with_reducible apply keeps_calEnd) | simp only [↓keeps_mk]
    | (with_reducible refine keeps_of_eq (by with_reducible assumption) ?_) | split)

theorem keeps_execBudgetTimeout {q : Fix} {r : State} {x1 : Bool} {s t : State} (e : execBudgetTimeout x1 s = .next t) (h : Keeps q r s) : Keeps q r t := by
  unfold execBudgetTimeout at e
  obtain rfl := Host.Outcome.next.inj e
  try dsimp only
  repeat' (first
    | (with_reducible assumption) | (with_reducible refine keeps_budTimeoutOne' (by with_reducible assumption) ?_)
    | (with_reducible apply keeps_fieldTimedOut) | (with_reducible apply keeps_hostTimedOut) | simp only [↓keeps_mk]
    | (with_reducible refine keeps_of_eq (by with_reducible assumption) ?_) | (with_reducible apply keeps_ite) | (with_reducible apply keeps_ite1) | split)

theorem keeps_execTapExtest {q : Fix} {r : State} {x1 : List Byte} {s t : State} (e : execTapExtest x1 s = .next t) (h : Keeps q r s) : Keeps q r t := by
  unfold execTapExtest at e
  obtain rfl := Host.Outcome.next.inj e
  try dsimp only
  repeat' (first
    | (with_reducible assumption) | (with_reducible apply keeps_tapExtest))

theorem keeps_execExtestExit {q : Fix} {r : State} {x1 : Nat} {s t : State} (e : execExtestExit x1 s = .next t) (h : Keeps q r s) : Keeps q r t := by
  unfold execExtestExit at e
  obtain rfl := Host.Outcome.next.inj e
  try dsimp only
  repeat' (first
    | (with_reducible assumption) | (with_reducible apply keeps_tapLeave) | simp only [↓keeps_mk] | (with_reducible apply keeps_ite))

theorem keeps_execTapIdcode {q : Fix} {r s t : State} (e : execTapIdcode s = .next t) (h : Keeps q r s) : Keeps q r t := by
  unfold execTapIdcode at e
  obtain rfl := Host.Outcome.next.inj e
  try dsimp only
  repeat' (first
    | (with_reducible assumption) | (with_reducible apply keeps_tapLoad))

theorem keeps_execTapSamplePreload {q : Fix} {r : State} {x1 x2 : List Byte} {s t : State} (e : execTapSamplePreload x1 x2 s = .next t) (h : Keeps q r s) : Keeps q r t := by
  unfold execTapSamplePreload at e
  obtain rfl := Host.Outcome.next.inj e
  try dsimp only
  repeat' (first
    | (with_reducible assumption) | (with_reducible apply keeps_tapLoad) | simp only [↓keeps_mk])

theorem keeps_execTapDtmcs {q : Fix} {r s t : State} (e : execTapDtmcs s = .next t) (h : Keeps q r s) : Keeps q r t := by
  unfold execTapDtmcs at e
  obtain rfl := Host.Outcome.next.inj e
  try dsimp only
  repeat' (first
    | (with_reducible assumption) | (with_reducible apply keeps_tapLoad))

theorem keeps_dmiWrite {q : Fix} {r : State} {x1 : Bool} {x2 x3 : Nat} {s : State} (h : Keeps q r s) : Keeps q r (dmiWrite x1 x2 x3 s) := by
  unfold dmiWrite
  try dsimp only
  repeat' (first
    | (with_reducible assumption) | (with_reducible apply keeps_setCmderr) | (with_reducible apply keeps_setSberror) | simp only [↓keeps_mk]
    | (with_reducible apply keeps_ite))

theorem keeps_dmiRun {q : Fix} {r : State} {x1 x2 x3 : Nat} {s : State} (h : Keeps q r s) : Keeps q r (dmiRun x1 x2 x3 s) := by
  unfold dmiRun
  try dsimp only
  repeat' (first
    | (with_reducible assumption) | (with_reducible apply keeps_tapLoad) | (with_reducible apply keeps_takeFree) | (with_reducible apply keeps_dmiWrite)
    | simp only [↓keeps_mk] | (with_reducible refine keeps_of_eq (by with_reducible assumption) ?_) | (with_reducible apply keeps_ite)
    | (with_reducible apply keeps_ite1) | split)

theorem keeps_execTapDmi {q : Fix} {r : State} {x1 x2 x3 : Nat} {s t : State} (e : execTapDmi x1 x2 x3 s = .next t) (h : Keeps q r s) : Keeps q r t := by
  unfold execTapDmi at e
  obtain rfl := Host.Outcome.next.inj e
  try dsimp only
  repeat' (first
    | (with_reducible assumption) | (with_reducible apply keeps_dmiRun))

theorem keeps_execTapDbgchal {q : Fix} {r s t : State} (e : execTapDbgchal s = .next t) (h : Keeps q r s) : Keeps q r t := by
  unfold execTapDbgchal at e
  obtain rfl := Host.Outcome.next.inj e
  try dsimp only
  repeat' (first
    | (with_reducible assumption) | (with_reducible apply keeps_tapLoad))

theorem keeps_execTapDbgtoken {q : Fix} {r : State} {x1 : List Byte} {s t : State} (e : execTapDbgtoken x1 s = .next t) (h : Keeps q r s) : Keeps q r t := by
  unfold execTapDbgtoken at e
  obtain rfl := Host.Outcome.next.inj e
  try dsimp only
  repeat' (first
    | (with_reducible assumption) | (with_reducible apply keeps_tokenUpdate) | (with_reducible apply keeps_tapLoad))

theorem keeps_execTapBypass {q : Fix} {r : State} {x1 : Nat} {s t : State} (e : execTapBypass x1 s = .next t) (h : Keeps q r s) : Keeps q r t := by
  unfold execTapBypass at e
  obtain rfl := Host.Outcome.next.inj e
  try dsimp only
  repeat' (first
    | (with_reducible assumption) | (with_reducible apply keeps_tapLoad))

theorem keeps_execTokenCheckComplete {q : Fix} {r s t : State} (e : execTokenCheckComplete s = .next t) (h : Keeps q r s) : Keeps q r t := by
  unfold execTokenCheckComplete at e
  obtain rfl := Host.Outcome.next.inj e
  try dsimp only
  repeat' (first
    | (with_reducible assumption) | (with_reducible apply keeps_tokenComplete))

theorem keeps_execTokenBlockEnd {q : Fix} {r s t : State} (e : execTokenBlockEnd s = .next t) (h : Keeps q r s) : Keeps q r t := by
  unfold execTokenBlockEnd at e
  obtain rfl := Host.Outcome.next.inj e
  try dsimp only
  repeat' (first
    | (with_reducible assumption) | (with_reducible apply keeps_blockEnds))

theorem keeps_execSessionExpiry {q : Fix} {r s t : State} (e : execSessionExpiry s = .next t) (h : Keeps q r s) : Keeps q r t := by
  unfold execSessionExpiry at e
  obtain rfl := Host.Outcome.next.inj e
  try dsimp only
  repeat' (first
    | (with_reducible assumption) | (with_reducible apply keeps_sessionExpire))

theorem keeps_debugDenied {q : Fix} {r : State} {x1 : Nat} {s : State} (h : Keeps q r s) : Keeps q r (debugDenied x1 s) := by
  unfold debugDenied
  try dsimp only
  repeat' (first
    | (with_reducible assumption) | (with_reducible apply keeps_recordRefusal))

theorem keeps_execDbgCtlEnd {q : Fix} {r s t : State} (e : execDbgCtlEnd s = .next t) (h : Keeps q r s) : Keeps q r t := by
  unfold execDbgCtlEnd at e
  obtain rfl := Host.Outcome.next.inj e
  try dsimp only
  repeat' (first
    | (with_reducible assumption) | (with_reducible apply keeps_busWrite) | (with_reducible apply keeps_debugDenied) | simp only [↓keeps_mk]
    | (with_reducible refine keeps_of_eq (by with_reducible assumption) ?_) | (with_reducible apply keeps_ite))

theorem keeps_inSession {q : Fix} {r : State} {x1 : State → State} {s : State} (h : Keeps q r s) (k1 : ∀ y0, Keeps q r y0 → Keeps q r (x1 y0)) : Keeps q r (inSession x1 s) := by
  unfold inSession
  try dsimp only
  repeat' (first
    | (with_reducible assumption) | intro _ | simp only [↓keeps_mk] | (with_reducible apply keeps_ite) | (with_reducible apply k1))

theorem keeps_execDmHalt {q : Fix} {r : State} {x1 : Bool} {s t : State} (e : execDmHalt x1 s = .next t) (h : Keeps q r s) : Keeps q r t := by
  unfold execDmHalt at e
  obtain rfl := Host.Outcome.next.inj e
  try dsimp only
  repeat' (first
    | (with_reducible assumption) | intro _ | (with_reducible apply keeps_inSession) | (with_reducible apply keeps_dmHalt))

theorem keeps_execDmResume {q : Fix} {r : State} {x1 : Bool} {s t : State} (e : execDmResume x1 s = .next t) (h : Keeps q r s) : Keeps q r t := by
  unfold execDmResume at e
  obtain rfl := Host.Outcome.next.inj e
  try dsimp only
  repeat' (first
    | (with_reducible assumption) | intro _ | (with_reducible apply keeps_inSession) | (with_reducible apply keeps_dmResume))

theorem keeps_execDmNdmreset {q : Fix} {r : State} {x1 : Bool} {s t : State} (e : execDmNdmreset x1 s = .next t) (h : Keeps q r s) : Keeps q r t := by
  unfold execDmNdmreset at e
  obtain rfl := Host.Outcome.next.inj e
  try dsimp only
  repeat' (first
    | (with_reducible assumption) | intro _ | (with_reducible apply keeps_inSession) | (with_reducible apply keeps_dmNdmreset))

theorem keeps_execDmSingleStep {q : Fix} {r : State} {x1 : Bool} {s t : State} (e : execDmSingleStep x1 s = .next t) (h : Keeps q r s) : Keeps q r t := by
  unfold execDmSingleStep at e
  obtain rfl := Host.Outcome.next.inj e
  try dsimp only
  repeat' (first
    | (with_reducible assumption) | intro _ | (with_reducible apply keeps_inSession) | (with_reducible apply keeps_dmStep))

theorem keeps_debugLoad {q : Fix} {r : State} {x1 : Bool} {x2 : Nat} {s : State} (h : Keeps q r s) : Keeps q r (debugLoad x1 x2 s).1 := by
  unfold debugLoad
  try dsimp only
  repeat' (first
    | (with_reducible assumption) | (with_reducible apply keeps_takeFree) | simp only [↓keeps_mk]
    | (with_reducible refine keeps_of_eq (by with_reducible assumption) ?_) | (with_reducible apply keeps_ite) | (with_reducible apply keeps_ite1))

theorem keeps_fsDebugStore {q : Fix} {r : State} {x1 x2 : Nat} {s : State} (h : Keeps q r s) : Keeps q r (fsDebugStore x1 x2 s) := by
  unfold fsDebugStore
  try dsimp only
  repeat' (first
    | (with_reducible assumption) | (with_reducible apply keeps_recordRefusal) | (with_reducible apply keeps_fieldApply) | simp only [↓keeps_mk]
    | (with_reducible refine keeps_of_eq (by with_reducible assumption) ?_) | (with_reducible apply keeps_ite) | split)

theorem keeps_debugAccess {q : Fix} {r : State} {x1 : Bool} {s : State} {x3 : Nat × Option Nat} (h : Keeps q r s) : Keeps q r (debugAccess x1 s x3) := by
  unfold debugAccess
  try dsimp only
  repeat' (first
    | (with_reducible assumption) | (with_reducible apply keeps_debugLoad) | (with_reducible apply keeps_debugDenied)
    | (with_reducible apply keeps_fsDebugStore) | (with_reducible apply keeps_busWrite) | simp only [↓keeps_mk]
    | (with_reducible refine keeps_of_eq (by with_reducible assumption) ?_) | (with_reducible apply keeps_ite) | (with_reducible apply keeps_ite1) | split)

theorem keeps_abstractRun {q : Fix} {r : State} {x1 : Bool} {x2 : List (Nat × Option Nat)} {s : State} (h : Keeps q r s) : Keeps q r (abstractRun x1 x2 s) := by
  unfold abstractRun
  try dsimp only
  repeat' (first
    | (with_reducible assumption) | (with_reducible apply keeps_setCmderr) | (with_reducible apply keeps_debugAccess) | simp only [↓keeps_mk]
    | (with_reducible apply keeps_foldl) | (with_reducible apply keeps_foldP) | (with_reducible apply keeps_ite))

theorem keeps_execDmAbstractCommand {q : Fix} {r : State} {x1 : Bool} {x2 : List (Nat × Option Nat)} {s t : State} (e : execDmAbstractCommand x1 x2 s = .next t) (h : Keeps q r s) : Keeps q r t := by
  unfold execDmAbstractCommand at e
  obtain rfl := Host.Outcome.next.inj e
  try dsimp only
  repeat' (first
    | (with_reducible assumption) | intro _ | (with_reducible apply keeps_inSession) | (with_reducible apply keeps_abstractRun))

theorem keeps_sbaRead {q : Fix} {r : State} {x1 : Bool} {x2 : Nat} {s : State} (h : Keeps q r s) : Keeps q r (sbaRead x1 x2 s) := by
  unfold sbaRead
  try dsimp only
  repeat' (first
    | (with_reducible assumption) | (with_reducible apply keeps_setSberror) | (with_reducible apply keeps_remoteSend) | simp only [↓keeps_mk]
    | (with_reducible apply keeps_ite))

theorem keeps_execSbaRead {q : Fix} {r : State} {x1 : Bool} {x2 : Nat} {s t : State} (e : execSbaRead x1 x2 s = .next t) (h : Keeps q r s) : Keeps q r t := by
  unfold execSbaRead at e
  obtain rfl := Host.Outcome.next.inj e
  try dsimp only
  repeat' (first
    | (with_reducible assumption) | intro _ | (with_reducible apply keeps_inSession) | (with_reducible apply keeps_sbaRead))

theorem keeps_sbaWrite {q : Fix} {r : State} {x1 : Bool} {x2 x3 : Nat} {s : State} (h : Keeps q r s) : Keeps q r (sbaWrite x1 x2 x3 s) := by
  unfold sbaWrite
  try dsimp only
  repeat' (first
    | (with_reducible assumption) | (with_reducible apply keeps_setSberror) | (with_reducible apply keeps_debugDenied)
    | (with_reducible apply keeps_recordRefusal) | (with_reducible apply keeps_remoteSend) | (with_reducible apply keeps_windowAfter)
    | (with_reducible apply keeps_busWrite) | simp only [↓keeps_mk] | (with_reducible refine keeps_of_eq (by with_reducible assumption) ?_)
    | (with_reducible apply keeps_ite) | (with_reducible apply keeps_ite1) | split)

theorem keeps_execSbaWrite {q : Fix} {r : State} {x1 : Bool} {x2 : Nat} {x3 : Word} {s t : State} (e : execSbaWrite x1 x2 x3 s = .next t) (h : Keeps q r s) : Keeps q r t := by
  unfold execSbaWrite at e
  obtain rfl := Host.Outcome.next.inj e
  try dsimp only
  repeat' (first
    | (with_reducible assumption) | intro _ | (with_reducible apply keeps_inSession) | (with_reducible apply keeps_sbaWrite))

end Sys2Proof.Laws
end

