-- ==== Sys2Proof/Laws/KeepsExec.lean ====
section
/-! SUPPORT. What every command keeps, as one lemma over all of them: the case split is made here once. -/

namespace Sys2Proof.Laws

open Sys2Proof Sys2Proof.Machine

/-- What must not be fixed for a command to be kept: the few commands that move SYSCNT, the boot flash, the fuses, the root key or the PERMIT pins. -/
def allows (q : Fix) : Instr → Prop
  | .resetEnd => ¬ q.now
  | .tickCommit _ => ¬ q.now
  | .flashOpComplete _ => ¬ q.flash
  | .permitGrantStart => ¬ q.permit
  | .vsupHLoss => ¬ q.key ∧ ∀ a b, b ≠ 3 → b = a ∨ q.enter a b → q.enter a 2
  | .keeperLoss => ¬ q.key ∧ ∀ a b, b ≠ 3 → b = a ∨ q.enter a b → q.enter a 2
  | .tamperDetect _ => ¬ q.key ∧ ∀ a, a = 0 ∨ q.enter a 0 → q.enter a 1
  | .otpFuseProgrammed _ => ¬ q.otp ∧ ¬ q.key ∧ ∀ a, q.enter a 0
  | .updateInject => ¬ q.key ∧ ∀ a, q.enter a 0
  | .updateDelete => ¬ q.key ∧ ∀ a, q.enter a 0
  | .updateRoot => ¬ q.key ∧ ∀ a, q.enter a 0
  | .updateRegwrite => ¬ q.key ∧ ∀ a, q.enter a 0
  | _ => True

/-- Every command keeps what is fixed, where its own effect is not among it. -/
theorem keeps_exec {q : Fix} {r s t : State} {c : Instr} (ha : allows q c) (e : exec c s = .next t) (h : Keeps q r s) : Keeps q r t := by
  cases c with
  | powerOnReset _ => exact keeps_execPowerOnReset e h
  | pinReset => exact keeps_execPinReset e h
  | reset _ => exact keeps_execReset e h
  | supplyMonitorReset => exact keeps_execSupplyMonitorReset e h
  | clockMonitorReset => exact keeps_execClockMonitorReset e h
  | temperatureMonitorReset => exact keeps_execTemperatureMonitorReset e h
  | resetEnd => exact keeps_execResetEnd e h ha
  | vsupHLoss => exact keeps_execVsupHLoss e h ha.1 ha.2
  | keeperLoss => exact keeps_execKeeperLoss e h ha.1 ha.2
  | fieldPowerOn => exact keeps_execFieldPowerOn e h
  | fieldMonitorReset => exact keeps_execFieldMonitorReset e h
  | fieldSupplyLoss => exact keeps_execFieldSupplyLoss e h
  | buildStart => exact keeps_execBuildStart e h
  | buildSlotFail => exact keeps_execBuildSlotFail e h
  | buildTimeout => exact keeps_execBuildTimeout e h
  | buildCommit => exact keeps_execBuildCommit e h
  | runEntry => exact keeps_execRunEntry e h
  | otpFuseProgrammed _ => exact keeps_execOtpFuseProgrammed e h ha.1 ha.2.1 ha.2.2
  | sysCtrlSleep _ => exact keeps_execSysCtrlSleep e h
  | sleep _ => exact keeps_execSleep e h
  | standbyDrainEnd => exact keeps_execStandbyDrainEnd e h
  | wakeEvent _ _ => exact keeps_execWakeEvent e h
  | wakeDecision => exact keeps_execWakeDecision e h
  | wakeOutPulseEnd => exact keeps_execWakeOutPulseEnd e h
  | resume _ => exact keeps_execResume e h
  | sysDegcauseClear _ => exact keeps_execSysDegcauseClear e h
  | tickCommit _ => exact keeps_execTickCommit e h ha
  | timRateWrite _ _ => exact keeps_execTimRateWrite e h
  | timPtpofslWrite _ _ => exact keeps_execTimPtpofslWrite e h
  | timPtpofshWrite _ _ => exact keeps_execTimPtpofshWrite e h
  | timNowlRead _ => exact keeps_execTimNowlRead e h
  | nop _ => exact keeps_execNop e h
  | write _ => exact keeps_execWrite e h
  | writel _ => exact keeps_execWritel e h
  | read _ => exact keeps_execRead e h
  | fetch _ => exact keeps_execFetch e h
  | send _ => exact keeps_execSend e h
  | recv _ => exact keeps_execRecv e h
  | badop _ _ => exact keeps_execBadop e h
  | deferredComplete => exact keeps_execDeferredComplete e h
  | sysUnlockWrite _ _ => exact keeps_execSysUnlockWrite e h
  | unlockWindowExpire _ _ => exact keeps_execUnlockWindowExpire e h
  | registerWrite _ _ _ => exact keeps_execRegisterWrite e h
  | flashReadPage _ => exact keeps_execFlashReadPage e h
  | flashProgramPage _ => exact keeps_execFlashProgramPage e h
  | flashErase4k _ => exact keeps_execFlashErase4k e h
  | flashErase64k _ => exact keeps_execFlashErase64k e h
  | flashOpComplete _ => exact keeps_execFlashOpComplete e h ha
  | imgRelease _ _ => exact keeps_execImgRelease e h
  | imgReleaserec _ _ => exact keeps_execImgReleaserec e h
  | journalDrain => exact keeps_execJournalDrain e h
  | journalAck => exact keeps_execJournalAck e h
  | journalRewind => exact keeps_execJournalRewind e h
  | gatewayClassify _ => exact keeps_execGatewayClassify e h
  | headRelease _ => exact keeps_execHeadRelease e h
  | expressMatch => exact keeps_execExpressMatch e h
  | egressSchedule _ => exact keeps_execEgressSchedule e h
  | planectlWrite _ _ => exact keeps_execPlanectlWrite e h
  | modelDeparture _ => exact keeps_execModelDeparture e h
  | holdLimitPurge _ => exact keeps_execHoldLimitPurge e h
  | ledgerDivergence _ => exact keeps_execLedgerDivergence e h
  | bufferPressure => exact keeps_execBufferPressure e h
  | bufferPressureEnd => exact keeps_execBufferPressureEnd e h
  | gateIntervalEnd _ => exact keeps_execGateIntervalEnd e h
  | fabGbaselWrite _ _ _ => exact keeps_execFabGbaselWrite e h
  | fabGbasehWrite _ _ _ => exact keeps_execFabGbasehWrite e h
  | virtualPortConsume _ => exact keeps_execVirtualPortConsume e h
  | containerPeriodicEmit _ => exact keeps_execContainerPeriodicEmit e h
  | acfTimedEmit _ => exact keeps_execAcfTimedEmit e h
  | ltWrite _ => exact keeps_execLtWrite e h
  | ltDelete _ => exact keeps_execLtDelete e h
  | ltStage _ => exact keeps_execLtStage e h
  | ltStagedel _ => exact keeps_execLtStagedel e h
  | ltCommit _ => exact keeps_execLtCommit e h
  | ltDiscard _ => exact keeps_execLtDiscard e h
  | ltRead _ => exact keeps_execLtRead e h
  | canCtlInitWrite _ _ _ => exact keeps_execCanCtlInitWrite e h
  | canBusIntegrate _ => exact keeps_execCanBusIntegrate e h
  | canRecover _ _ => exact keeps_execCanRecover e h
  | busOffRecoveryEnd _ => exact keeps_execBusOffRecoveryEnd e h
  | canTxAttempt _ _ => exact keeps_execCanTxAttempt e h
  | canTxComplete _ => exact keeps_execCanTxComplete e h
  | canTxAttemptFail _ _ _ _ _ _ => exact keeps_execCanTxAttemptFail e h
  | canTxabort _ _ _ => exact keeps_execCanTxabort e h
  | canTransmitStall _ => exact keeps_execCanTransmitStall e h
  | canRxFrame _ _ _ => exact keeps_execCanRxFrame e h
  | fcanStatusReport => exact keeps_execFcanStatusReport e h
  | listenerWakeFrame _ _ _ _ _ _ => exact keeps_execListenerWakeFrame e h
  | listenerFrameError _ => exact keeps_execListenerFrameError e h
  | listenerFecOverflow _ _ => exact keeps_execListenerFecOverflow e h
  | linSlotStart _ => exact keeps_execLinSlotStart e h
  | linHeaderRx _ _ _ => exact keeps_execLinHeaderRx e h
  | linResponseRx _ _ _ _ _ _ => exact keeps_execLinResponseRx e h
  | linNoResponse _ => exact keeps_execLinNoResponse e h
  | linSchedWrite _ _ _ => exact keeps_execLinSchedWrite e h
  | linSleep _ _ => exact keeps_execLinSleep e h
  | linWake _ _ => exact keeps_execLinWake e h
  | linWakePulse _ => exact keeps_execLinWakePulse e h
  | linIdleSleep _ => exact keeps_execLinIdleSleep e h
  | linScheduleResume _ => exact keeps_execLinScheduleResume e h
  | linBusFault _ => exact keeps_execLinBusFault e h
  | linBusFaultEnd _ => exact keeps_execLinBusFaultEnd e h
  | ethRxFrame _ _ _ _ => exact keeps_execEthRxFrame e h
  | ethLinkChange _ _ _ _ => exact keeps_execEthLinkChange e h
  | ethCollision _ => exact keeps_execEthCollision e h
  | ethPlcaWrite _ _ _ _ => exact keeps_execEthPlcaWrite e h
  | tc10Sleep _ _ => exact keeps_execTc10Sleep e h
  | tc10SleepAck _ => exact keeps_execTc10SleepAck e h
  | tc10SleepreqTimeout _ => exact keeps_execTc10SleepreqTimeout e h
  | tc10PartnerSleep _ => exact keeps_execTc10PartnerSleep e h
  | tc10Wake _ _ => exact keeps_execTc10Wake e h
  | tc10WakeDetect _ _ => exact keeps_execTc10WakeDetect e h
  | ethTstx0Pop _ _ => exact keeps_execEthTstx0Pop e h
  | ethSapnlWrite _ _ _ _ _ => exact keeps_execEthSapnlWrite e h
  | ethSapnhWrite _ _ _ _ _ => exact keeps_execEthSapnhWrite e h
  | mdioAddress _ _ => exact keeps_execMdioAddress e h
  | mdioWrite _ _ => exact keeps_execMdioWrite e h
  | mdioRead _ _ => exact keeps_execMdioRead e h
  | mdioReadIncrement _ _ => exact keeps_execMdioReadIncrement e h
  | mdioComplete _ => exact keeps_execMdioComplete e h
  | netMgmtRequest => exact keeps_execNetMgmtRequest e h
  | tamperDetect _ => exact keeps_execTamperDetect e h ha.1 ha.2
  | updateInject => exact keeps_execUpdateInject e h ha.1 ha.2
  | updateDelete => exact keeps_execUpdateDelete e h ha.1 ha.2
  | updateRoot => exact keeps_execUpdateRoot e h ha.1 ha.2
  | updateRegwrite => exact keeps_execUpdateRegwrite e h ha.1 ha.2
  | graceExpiry _ => exact keeps_execGraceExpiry e h
  | random _ => exact keeps_execRandom e h
  | macgen _ => exact keeps_execMacgen e h
  | macver _ => exact keeps_execMacver e h
  | gcmenc _ => exact keeps_execGcmenc e h
  | gcmdec _ => exact keeps_execGcmdec e h
  | ctrenc _ => exact keeps_execCtrenc e h
  | wrap _ => exact keeps_execWrap e h
  | unwrap _ => exact keeps_execUnwrap e h
  | genkey _ => exact keeps_execGenkey e h
  | erase _ => exact keeps_execErase e h
  | cancel _ => exact keeps_execCancel e h
  | confirm _ => exact keeps_execConfirm e h
  | kdf _ => exact keeps_execKdf e h
  | sign _ => exact keeps_execSign e h
  | verify _ => exact keeps_execVerify e h
  | agree _ => exact keeps_execAgree e h
  | mkaderive _ => exact keeps_execMkaderive e h
  | pkload _ => exact keeps_execPkload e h
  | hash _ => exact keeps_execHash e h
  | selftest _ => exact keeps_execSelftest e h
  | serviceBadmsg => exact keeps_execServiceBadmsg e h
  | spJobComplete _ => exact keeps_execSpJobComplete e h
  | lmeRowEnd _ => exact keeps_execLmeRowEnd e h
  | shaBlockEnd _ => exact keeps_execShaBlockEnd e h
  | drbgReseed => exact keeps_execDrbgReseed e h
  | entropyTestFail => exact keeps_execEntropyTestFail e h
  | tahrFrameRx _ _ _ => exact keeps_execTahrFrameRx e h
  | tahrRetrain => exact keeps_execTahrRetrain e h
  | laneRetire _ _ => exact keeps_execLaneRetire e h
  | trainingComplete => exact keeps_execTrainingComplete e h
  | trainingRetry => exact keeps_execTrainingRetry e h
  | nullFrameSend _ => exact keeps_execNullFrameSend e h
  | heartbeatSend _ => exact keeps_execHeartbeatSend e h
  | heartbeatRx _ => exact keeps_execHeartbeatRx e h
  | linkDown _ => exact keeps_execLinkDown e h
  | timesyncRequest => exact keeps_execTimesyncRequest e h
  | timesyncRx _ _ => exact keeps_execTimesyncRx e h
  | remoteRead => exact keeps_execRemoteRead e h
  | remoteWrite => exact keeps_execRemoteWrite e h
  | fieldStart => exact keeps_execFieldStart e h
  | imageEntry => exact keeps_execImageEntry e h
  | imageData => exact keeps_execImageData e h
  | imageCommit => exact keeps_execImageCommit e h
  | imageAbort => exact keeps_execImageAbort e h
  | imageResult => exact keeps_execImageResult e h
  | fieldFrunEntry => exact keeps_execFieldFrunEntry e h
  | fieldFaultReport => exact keeps_execFieldFaultReport e h
  | faultReportSend => exact keeps_execFaultReportSend e h
  | fieldJournalReport => exact keeps_execFieldJournalReport e h
  | permitMessage => exact keeps_execPermitMessage e h
  | tahrPermctlWrite _ _ => exact keeps_execTahrPermctlWrite e h
  | fcanFrameToField _ => exact keeps_execFcanFrameToField e h
  | tahrCatalogueSend => exact keeps_execTahrCatalogueSend e h
  | fsupTxctlSend _ => exact keeps_execFsupTxctlSend e h
  | fsupRxpop => exact keeps_execFsupRxpop e h
  | measRecordSend => exact keeps_execMeasRecordSend e h
  | holdLineAssert => exact keeps_execHoldLineAssert e h
  | holdLineDeassert => exact keeps_execHoldLineDeassert e h
  | permitGrantStart => exact keeps_execPermitGrantStart e h ha
  | permitReadbackMismatch => exact keeps_execPermitReadbackMismatch e h
  | fsupPermitWrite _ => exact keeps_execFsupPermitWrite e h
  | watchdogRefresh _ => exact keeps_execWatchdogRefresh e h
  | watchdogExpiry => exact keeps_execWatchdogExpiry e h
  | filterOutput _ _ _ _ => exact keeps_execFilterOutput e h
  | windowClose _ _ => exact keeps_execWindowClose e h
  | measChctlWrite _ _ _ _ => exact keeps_execMeasChctlWrite e h
  | measChwinWrite _ _ _ _ => exact keeps_execMeasChwinWrite e h
  | measCalctlReq _ _ => exact keeps_execMeasCalctlReq e h
  | measSpareCalibrated _ => exact keeps_execMeasSpareCalibrated e h
  | converterSwap => exact keeps_execConverterSwap e h
  | measCalibrationDone _ => exact keeps_execMeasCalibrationDone e h
  | hsnsCalctlReq _ => exact keeps_execHsnsCalctlReq e h
  | hsnsCalibrationEnd _ => exact keeps_execHsnsCalibrationEnd e h
  | touchReading _ => exact keeps_execTouchReading e h
  | touchStuck _ => exact keeps_execTouchStuck e h
  | touchWakeScan _ _ _ => exact keeps_execTouchWakeScan e h
  | tdmFrame _ _ => exact keeps_execTdmFrame e h
  | tdmFsEdge _ _ _ => exact keeps_execTdmFsEdge e h
  | tdmTdmbst0Pop _ _ => exact keeps_execTdmTdmbst0Pop e h
  | tdmEnableWrite _ _ _ => exact keeps_execTdmEnableWrite e h
  | bptCscommit _ _ => exact keeps_execBptCscommit e h
  | bptUcommit _ _ => exact keeps_execBptUcommit e h
  | bprBlockEnd _ => exact keeps_execBprBlockEnd e h
  | aafTalkerPdu _ => exact keeps_execAafTalkerPdu e h
  | aafListenerTake _ => exact keeps_execAafListenerTake e h
  | aafUnderrun _ => exact keeps_execAafUnderrun e h
  | audRgainWrite _ _ _ => exact keeps_execAudRgainWrite e h
  | biquadCommit _ _ => exact keeps_execBiquadCommit e h
  | spkctlWrite _ _ => exact keeps_execSpkctlWrite e h
  | dacctlWrite _ _ _ => exact keeps_execDacctlWrite e h
  | outputPrechargeEnd _ => exact keeps_execOutputPrechargeEnd e h
  | outputRampdownEnd _ => exact keeps_execOutputRampdownEnd e h
  | outputDischargeEnd _ => exact keeps_execOutputDischargeEnd e h
  | outputFault _ _ => exact keeps_execOutputFault e h
  | limiterBlock => exact keeps_execLimiterBlock e h
  | inputSettleEnd _ => exact keeps_execInputSettleEnd e h
  | detectSpeaker _ => exact keeps_execDetectSpeaker e h
  | detectLineOut _ _ => exact keeps_execDetectLineOut e h
  | detectComplete _ _ _ => exact keeps_execDetectComplete e h
  | bandWindowClose _ => exact keeps_execBandWindowClose e h
  | audioCalreq _ _ => exact keeps_execAudioCalreq e h
  | audioCalHoldEnd => exact keeps_execAudioCalHoldEnd e h
  | audioCalibrationDone => exact keeps_execAudioCalibrationDone e h
  | fltInject _ _ => exact keeps_execFltInject e h
  | ffltInject _ _ => exact keeps_execFfltInject e h
  | fltSevClear _ => exact keeps_execFltSevClear e h
  | ffltSevClear _ => exact keeps_execFfltSevClear e h
  | islandCheckFail _ _ => exact keeps_execIslandCheckFail e h
  | sramCorrected _ _ _ => exact keeps_execSramCorrected e h
  | sramRowReplace _ => exact keeps_execSramRowReplace e h
  | sramUncorrectable _ _ => exact keeps_execSramUncorrectable e h
  | shedVisitStart _ => exact keeps_execShedVisitStart e h
  | shedShadowEnd _ => exact keeps_execShedShadowEnd e h
  | shedHandover _ => exact keeps_execShedHandover e h
  | shedSelftestDone _ _ => exact keeps_execShedSelftestDone e h
  | shedHandback _ => exact keeps_execShedHandback e h
  | shedHandoverTimeout _ => exact keeps_execShedHandoverTimeout e h
  | shedreqGo _ _ => exact keeps_execShedreqGo e h
  | retctlGo _ _ => exact keeps_execRetctlGo e h
  | returnComplete _ => exact keeps_execReturnComplete e h
  | ageclr _ _ => exact keeps_execAgeclr e h
  | budgetGrant _ => exact keeps_execBudgetGrant e h
  | budgetTimeout _ => exact keeps_execBudgetTimeout e h
  | tapExtest _ => exact keeps_execTapExtest e h
  | extestExit _ => exact keeps_execExtestExit e h
  | tapIdcode => exact keeps_execTapIdcode e h
  | tapSamplePreload _ _ => exact keeps_execTapSamplePreload e h
  | tapDtmcs => exact keeps_execTapDtmcs e h
  | tapDmi _ _ _ => exact keeps_execTapDmi e h
  | tapDbgchal => exact keeps_execTapDbgchal e h
  | tapDbgtoken _ => exact keeps_execTapDbgtoken e h
  | tapBypass _ => exact keeps_execTapBypass e h
  | tokenCheckComplete => exact keeps_execTokenCheckComplete e h
  | tokenBlockEnd => exact keeps_execTokenBlockEnd e h
  | sessionExpiry => exact keeps_execSessionExpiry e h
  | dbgCtlEnd => exact keeps_execDbgCtlEnd e h
  | dmHalt _ => exact keeps_execDmHalt e h
  | dmResume _ => exact keeps_execDmResume e h
  | dmNdmreset _ => exact keeps_execDmNdmreset e h
  | dmSingleStep _ => exact keeps_execDmSingleStep e h
  | dmAbstractCommand _ _ => exact keeps_execDmAbstractCommand e h
  | sbaRead _ _ => exact keeps_execSbaRead e h
  | sbaWrite _ _ _ => exact keeps_execSbaWrite e h
  | keeperSupplyValid => exact keeps_execKeeperSupplyValid e h
  | keeperOscillatorTick => exact keeps_execKeeperOscillatorTick e h
  | tamperConditionEnd _ => exact keeps_execTamperConditionEnd e h
  | fieldResetEnd => exact keeps_execFieldResetEnd e h
  | lockstepMismatch _ => exact keeps_execLockstepMismatch e h
  | pairMismatch _ => exact keeps_execPairMismatch e h
  | canRxError _ _ _ _ _ _ => exact keeps_execCanRxError e h
  | bptFrame _ => exact keeps_execBptFrame e h
  | bprFrameRx _ _ _ _ _ _ => exact keeps_execBprFrameRx e h
  | micBiasSample _ _ => exact keeps_execMicBiasSample e h
  | faultCauseCleared _ _ => exact keeps_execFaultCauseCleared e h

end Sys2Proof.Laws
end

