-- ==== Sys2Proof/Laws/Shapes.lean ====
section
/-! SUPPORT. Everything a shared operation can do, said once for each: the fields of the state it may change, with every other field as it was. -/

namespace Sys2Proof.Laws

open Sys2Proof Sys2Proof.Machine

/-! ## Host transactions -/

/-- A transaction taken whole: its operation runs once its SEQ is noted, and the port drives its words (R202, R204). -/
theorem hostTxn_whole {op : Nat} {x : Txn} {run : State → State} {s : State} (h : whole op x s) :
    hostTxn op x run s = answered x s (run (received x s)) := by
  obtain ⟨h1, h2, h3⟩ := h
  unfold hostTxn
  rw [h1, h2]
  simp only [Bool.not_true, Bool.false_eq_true, if_false, h3, if_true]
  rfl

/-! ## Registers and units -/

/-- A register stored: no other register, and nothing else, changes. -/
theorem setReg_shape (s : State) (a v : Nat) :
    ∃ rg, setReg s a v = { s with regs := rg } ∧ ∀ b, b ≠ a → RegFile.get rg b = RegFile.get s.regs b :=
  ⟨_, rfl, fun b hb => regFile_get_set_ne s.regs a b _ hb⟩

theorem setField_shape (s : State) (a lo w x : Nat) :
    ∃ rg, setField s a lo w x = { s with regs := rg } ∧ ∀ b, b ≠ a → RegFile.get rg b = RegFile.get s.regs b :=
  setReg_shape s a _

/-- A count raised: its register alone changes. -/
theorem bump_shape (s : State) (a lo w n : Nat) :
    ∃ rg, bump s a lo w n = { s with regs := rg } ∧ ∀ b, b ≠ a → RegFile.get rg b = RegFile.get s.regs b :=
  setReg_shape s a _

theorem setCan_host (s : State) (n : Nat) (c : Can) (h : n < 24) : setCan s n c = { s with h.can := s.h.can.set n c } := by
  unfold setCan
  rw [if_pos h]

/-! ## The link -/

/-- Frames sent by the host die change its end of the link only. -/
theorem pump_host (n : Nat) : ∀ s : State, ∃ fe, pump false n s = { s with h.tahr.fe := fe } := by
  induction n with
  | zero => exact fun s => ⟨s.h.tahr.fe, rfl⟩
  | succ n ih =>
    intro s
    unfold pump
    dsimp only
    split
    · exact ⟨s.h.tahr.fe, rfl⟩
    · split
      · exact ⟨s.h.tahr.fe, rfl⟩
      · obtain ⟨fe, e⟩ := ih (setEnd false _ s)
        rw [e]
        exact ⟨fe, rfl⟩

/-- Frames sent by the field die change its end of the link only. -/
theorem pump_field (n : Nat) : ∀ s : State, ∃ fe, pump true n s = { s with f.fe := fe } := by
  induction n with
  | zero => exact fun s => ⟨s.f.fe, rfl⟩
  | succ n ih =>
    intro s
    unfold pump
    dsimp only
    split
    · exact ⟨s.f.fe, rfl⟩
    · split
      · exact ⟨s.f.fe, rfl⟩
      · obtain ⟨fe, e⟩ := ih (setEnd true _ s)
        rw [e]
        exact ⟨fe, rfl⟩

theorem enqueueMsg_host (typ o : Nat) (x : Stamp) (p : Bytes) (s : State) : ∃ fe, enqueueMsg false typ o x p s = { s with h.tahr.fe := fe } := by
  unfold enqueueMsg
  dsimp only
  obtain ⟨fe, e⟩ := pump_host 32 (setEnd false _ s)
  rw [e]
  exact ⟨fe, rfl⟩

theorem enqueueMsg_field (typ o : Nat) (x : Stamp) (p : Bytes) (s : State) : ∃ fe, enqueueMsg true typ o x p s = { s with f.fe := fe } := by
  unfold enqueueMsg
  dsimp only
  obtain ⟨fe, e⟩ := pump_field 32 (setEnd true _ s)
  rw [e]
  exact ⟨fe, rfl⟩

/-- A message of the host die changes its end of the link, or counts in TAHR.TXREF (R616). -/
theorem sendMsg_host (typ o : Nat) (x : Stamp) (p : Bytes) (s : State) :
    ∃ fe rg, (sendMsg false typ o x p s).1 = { s with h.tahr.fe := fe, regs := rg } ∧ (∀ b, b ≠ 0x600014 → RegFile.get rg b = RegFile.get s.regs b) := by
  unfold sendMsg
  split
  · exact ⟨s.h.tahr.fe, _, rfl, fun b hb => regFile_get_set_ne s.regs 0x600014 b _ hb⟩
  · obtain ⟨fe, e⟩ := enqueueMsg_host typ o x p s
    rw [e]
    exact ⟨fe, s.regs, rfl, fun _ _ => rfl⟩

/-- A message of the field die changes its end of the link only. -/
theorem sendMsg_field (typ o : Nat) (x : Stamp) (p : Bytes) (s : State) : ∃ fe, (sendMsg true typ o x p s).1 = { s with f.fe := fe } := by
  unfold sendMsg
  split
  · exact ⟨s.f.fe, rfl⟩
  · exact enqueueMsg_field typ o x p s

theorem sendPermit_shape (g : Bool) (s : State) :
    ∃ fe rg, sendPermit g s = { s with h.tahr.fe := fe, regs := rg } ∧ (∀ b, b ≠ 0x600014 → RegFile.get rg b = RegFile.get s.regs b) :=
  sendMsg_host _ _ _ _ s

theorem sendImage_shape (op idx off : Nat) (rest : Bytes) (s : State) :
    ∃ fe rg, sendImage op idx off rest s = { s with h.tahr.fe := fe, regs := rg } ∧ (∀ b, b ≠ 0x600014 → RegFile.get rg b = RegFile.get s.regs b) :=
  sendMsg_host _ _ _ _ s

theorem sendData_shape (idx : Nat) (b : Bytes) (n : Nat) : ∀ (off : Nat) (s : State),
    ∃ fe rg, sendData idx b n off s = { s with h.tahr.fe := fe, regs := rg } ∧ (∀ b, b ≠ 0x600014 → RegFile.get rg b = RegFile.get s.regs b) := by
  induction n with
  | zero => exact fun _ s => ⟨s.h.tahr.fe, s.regs, rfl, fun _ _ => rfl⟩
  | succ n ih =>
    intro off s
    unfold sendData
    dsimp only
    split
    · exact ⟨s.h.tahr.fe, s.regs, rfl, fun _ _ => rfl⟩
    · generalize List.take _ _ = p
      obtain ⟨fe, rg, e, hr⟩ := sendMsg_host 6 0 s.time.now ([byte 3, byte 0] ++ le 2 idx ++ le 4 off ++ p) s
      rw [e]
      obtain ⟨fe', rg', e', hr'⟩ := ih (off + p.length) { s with h.tahr.fe := fe, regs := rg }
      rw [e']
      exact ⟨fe', rg', rfl, fun b hb => (hr' b hb).trans (hr b hb)⟩

/-- The sections of an image sent change the host's end of the link, and TAHR.TXREF. -/
theorem sendFieldSections_shape (img : Bytes) (s : State) :
    ∃ fe rg, sendFieldSections img s = { s with h.tahr.fe := fe, regs := rg } ∧ (∀ b, b ≠ 0x600014 → RegFile.get rg b = RegFile.get s.regs b) := by
  have fold : ∀ (g : State → Bytes × Nat → State),
      (∀ s p, ∃ fe rg, g s p = { s with h.tahr.fe := fe, regs := rg } ∧ (∀ b, b ≠ 0x600014 → RegFile.get rg b = RegFile.get s.regs b)) →
      ∀ (l : List (Bytes × Nat)) (s : State), ∃ fe rg, l.foldl g s = { s with h.tahr.fe := fe, regs := rg } ∧
        (∀ b, b ≠ 0x600014 → RegFile.get rg b = RegFile.get s.regs b) := by
    intro g hg l
    induction l with
    | nil => exact fun s => ⟨s.h.tahr.fe, s.regs, rfl, fun _ _ => rfl⟩
    | cons x r ih =>
      intro s
      obtain ⟨fe, rg, e, hr⟩ := hg s x
      obtain ⟨fe', rg', e', hr'⟩ := ih (g s x)
      rw [List.foldl_cons, e', e]
      refine ⟨fe', rg', rfl, fun b hb => ?_⟩
      rw [hr' b hb, e]
      exact hr b hb
  unfold sendFieldSections
  dsimp only
  obtain ⟨fe, rg, e, hr⟩ := fold (fun s p => sendImage 2 p.2 0 p.1 s) (fun s p => sendImage_shape _ _ _ _ s)
    (((sectEntries img).zipIdx).filter (fun p => fieldLE p.1 3 1 != 0)) s
  rw [e]
  obtain ⟨fe', rg', e', hr'⟩ := fold (fun s p => sendData p.2 (sectBytes img p.1) ((sectBytes img p.1).length + 1) 0 s)
    (fun s p => sendData_shape _ _ _ _ s) (((sectEntries img).zipIdx).filter (fun p => fieldLE p.1 3 1 != 0)) { s with h.tahr.fe := fe, regs := rg }
  rw [e']
  exact ⟨fe', rg', rfl, fun b hb => (hr' b hb).trans (hr b hb)⟩

/-- A slot sent to the field die: its results so far are forgotten, and the link takes the messages. -/
theorem sendSlot_shape (slot : Nat) (s : State) :
    ∃ fe rg, sendSlot slot s = { s with h.tahr.fe := fe, h.tahr.startSent := true, h.img.fieldCode := 0, h.img.fieldOk := 0, regs := rg } ∧
      (∀ b, b ≠ 0x600014 → RegFile.get rg b = RegFile.get s.regs b) := by
  unfold sendSlot sendStart
  dsimp only
  obtain ⟨fe, rg, e, hr⟩ := sendImage_shape 1 0 0 (padTo 48 (imageDigest (slotImage s slot)))
    { s with h.img.fieldCode := 0, h.img.fieldOk := 0, h.tahr.startSent := true }
  rw [e]
  split
  · obtain ⟨fe', rg', e', hr'⟩ := sendFieldSections_shape (slotImage s slot)
      { s with h.img.fieldCode := 0, h.img.fieldOk := 0, h.tahr.startSent := true, h.tahr.fe := fe, regs := rg }
    rw [e']
    exact ⟨fe', rg', rfl, fun b hb => (hr' b hb).trans (hr b hb)⟩
  · exact ⟨fe, rg, rfl, hr⟩

theorem remoteSend_shape (o : Origin) (op : Nat) (es : List (Nat × Nat)) (seq : Nat) (s : State) :
    ∃ fe rg, remoteSend o op es seq s = { s with
        h.tahr.remote := s.h.tahr.remote ++ [⟨o.code, s.h.tahr.nextRid, op, es, seq⟩], h.tahr.nextRid := (s.h.tahr.nextRid + 1) % 65536,
        h.tahr.fe := fe, regs := rg } ∧ (∀ b, b ≠ 0x600014 → RegFile.get rg b = RegFile.get s.regs b) := by
  unfold remoteSend
  dsimp only
  obtain ⟨fe, rg, e, hr⟩ := sendMsg_host 3 o.code s.time.now
    ([byte op, byte es.length] ++ le 2 s.h.tahr.nextRid ++ le 4 0 ++ es.flatMap (fun e => le 4 e.1 ++ le 4 e.2))
    { s with h.tahr.remote := s.h.tahr.remote ++ [⟨o.code, s.h.tahr.nextRid, op, es, seq⟩], h.tahr.nextRid := (s.h.tahr.nextRid + 1) % 65536 }
  rw [e]
  exact ⟨fe, rg, rfl, hr⟩

theorem remoteReply_shape (o rid st failix stamp : Nat) (ws : List Word) (s : State) :
    ∃ fe, remoteReply o rid st failix stamp ws s = { s with f.fe := fe } := sendMsg_field _ _ _ _ s

/-- An ordered message of the field die: sent, held in ALONE, or dropped and counted (R629). -/
theorem fieldSendAt_shape (typ o : Nat) (x : Stamp) (p : Bytes) (s : State) :
    ∃ fe hl rg, fieldSendAt typ o x p s = { s with f.fe := fe, f.held := hl, regs := rg } ∧
      (∀ b, b ≠ 0x820018 → RegFile.get rg b = RegFile.get s.regs b) := by
  unfold fieldSendAt
  split
  · split
    · split
      · exact ⟨s.f.fe, _, s.regs, rfl, fun _ _ => rfl⟩
      · exact ⟨s.f.fe, s.f.held, _, rfl, fun b hb => regFile_get_set_ne s.regs 0x820018 b _ hb⟩
    · exact ⟨s.f.fe, s.f.held, s.regs, rfl, fun _ _ => rfl⟩
  · obtain ⟨fe, e⟩ := sendMsg_field typ o x p s
    rw [e]
    exact ⟨fe, s.f.held, s.regs, rfl, fun _ _ => rfl⟩

/-! ## Faults, modes, sessions, submissions -/

theorem jSegments_loaded (stamp origin : Nat) (es : List (Nat × Nat × Bytes)) :
    ∀ (seg : Nat) (s : State), (jSegments stamp origin es seg s).h.jrn.loaded = s.h.jrn.loaded := by
  have put : ∀ (st o k g c : Nat) (d : Bytes) (s : State), (jPut st o k g c d s).h.jrn.loaded = s.h.jrn.loaded := by
    intro st o k g c d s
    unfold jPut
    dsimp only
    split <;> rfl
  induction es with
  | nil => exact fun _ _ => rfl
  | cons x r ih =>
    intro seg s
    obtain ⟨k, c, d⟩ := x
    unfold jSegments
    dsimp only
    rw [ih, put]

/-- A change journalled does not load or unload the journal. -/
theorem jChange_loaded (stamp origin : Nat) (es : List (Nat × Nat × Bytes)) (s : State) :
    (jChange stamp origin es s).h.jrn.loaded = s.h.jrn.loaded := by
  unfold jChange
  split
  · rfl
  · split
    · exact jSegments_loaded _ _ _ _ s
    · rfl

theorem jPut_loaded (st o k g c : Nat) (d : Bytes) (s : State) : (jPut st o k g c d s).h.jrn.loaded = s.h.jrn.loaded := by
  unfold jPut
  dsimp only
  split <;> rfl

/-- A fault event waits at the collector of its die. -/
theorem raise_shape (src detail : Nat) (s : State) :
    ∃ p1 p2, raise src detail s = { s with h.flt.pend := p1, f.flt.pend := p2 } := by
  unfold raise
  split
  · exact ⟨_, s.f.flt.pend, rfl⟩
  · exact ⟨s.h.flt.pend, _, rfl⟩

/-- A change of mode: the journal's part, SYS.INTSTAT and the pins that show the mode. -/
theorem setMode_shape (m : Mode) (o : Nat) (s : State) (h : s.sys.mode ≠ m) :
    ∃ j k1 k2 k3 rg, setMode m o s = modePins (withJournal j k1 k2 k3 rg { s with sys.mode := m }) ∧
      (∀ b, b ≠ 0x4C → RegFile.get rg b = RegFile.get s.regs b) ∧ (RegFile.wf s.regs = true → RegFile.wf rg = true) ∧
      j.loaded = s.h.jrn.loaded := by
  unfold setMode jEvent
  rw [if_neg h]
  dsimp only
  generalize [(5, 1, ([byte s.sys.mode.code, byte m.code, byte (fmode s), byte (fmode s)] ++ le 4 0))] = es
  have l := jChange_loaded s.time.now o es { s with sys.mode := m }
  obtain ⟨j, k1, k2, k3, rg, e, hr, hw⟩ := jChange_shape s.time.now o es { s with sys.mode := m }
  rw [e] at l ⊢
  refine ⟨j, k1, k2, k3, RegFile.set rg 0x4C _, rfl, fun b hb => ?_, fun h => regFile_set_wf _ _ _ (hw h), l⟩
  rw [regFile_get_set_ne rg 0x4C b _ hb]
  exact hr b hb

theorem newChallenge_shape (s : State) :
    ∃ fr g ch, newChallenge s = { s with free := fr, h.sp.gens := g, h.dbg.chal := ch } := by
  unfold newChallenge drbgDraw
  split
  · exact ⟨_, _, _, rfl⟩
  · exact ⟨s.free, s.h.sp.gens, _, rfl⟩

/-- A debug session ends: nothing but the debug state, the DEBUG windows and a free value. -/
theorem endSession_shape (s : State) :
    ∃ fr g d w1 w2, endSession s = { s with free := fr, h.sp.gens := g, h.dbg := d, h.port.windows := w1, f.windows := w2 } ∧ d.open_ = false ∧
      d.extest = s.h.dbg.extest := by
  unfold endSession
  split
  · rename_i h
    refine ⟨s.free, s.h.sp.gens, s.h.dbg, s.h.port.windows, s.f.windows, rfl, ?_, rfl⟩
    simpa using h
  · obtain ⟨fr, g, ch, e⟩ := newChallenge_shape { s with
      h.dbg.open_ := false, h.dbg.grant := 0, h.dbg.until_ := 0, h.dbg.haltMp := false, h.dbg.haltFs := false,
      h.dbg.progMp := List.replicate 8 0, h.dbg.progFs := List.replicate 8 0,
      h.port.windows := KMap.del s.h.port.windows 4, f.windows := KMap.del s.f.windows 4 }
    rw [e]
    exact ⟨_, _, _, _, _, rfl, rfl, rfl⟩

/-- A submission changes its ingress port only. -/
theorem submitAt_shape (port : Nat) (pres stamp : Stamp) (src kk : Nat) (body : Bytes) (err : Bool) (mark : Nat) (s : State) :
    ∃ i q, submitAt port pres stamp src kk body err mark s = { s with h.fab.ingress := i, h.fab.seqs := q } := by
  unfold submitAt
  dsimp only
  split
  · exact ⟨s.h.fab.ingress, s.h.fab.seqs, rfl⟩
  · exact ⟨_, _, rfl⟩

theorem askLeave_shape (field : Bool) (k i : Nat) (st : Stamp) (s : State) :
    ∃ a1 a2, askLeave field k i st s = { s with h.arb := a1, f.arb := a2 } := by
  unfold askLeave setArb
  dsimp only
  split
  · exact ⟨s.h.arb, s.f.arb, rfl⟩
  · cases field
    · exact ⟨_, s.f.arb, rfl⟩
    · exact ⟨s.h.arb, _, rfl⟩

theorem giveLeave_shape (field : Bool) (k i : Nat) (s : State) :
    ∃ a1 a2, giveLeave field k i s = { s with h.arb := a1, f.arb := a2 } := by
  unfold giveLeave setArb
  dsimp only
  cases field
  · exact ⟨_, s.f.arb, rfl⟩
  · exact ⟨s.h.arb, _, rfl⟩

/-- The conditions of permission met or not: only the grant of the generator changes. -/
theorem permitUpdate_shape (s : State) : ∃ g, permitUpdate s = { s with f.granted := g } := by
  unfold permitUpdate
  split
  · exact ⟨true, rfl⟩
  · exact ⟨s.f.granted, rfl⟩

/-- Permission withdrawn: both pins stand static, and nothing but the generator and FSUP.PERMIT changes (R624, R626). -/
theorem withdraw_shape (c : Nat) (s : State) :
    ∃ c' rg, withdraw c s = { s with f.granted := false, f.permit := false, f.cause := c', regs := rg } ∧
      (∀ b, b ≠ 0x820004 → RegFile.get rg b = RegFile.get s.regs b) := by
  unfold withdraw
  dsimp only
  split
  · split
    · exact ⟨c, s.regs, rfl, fun _ _ => rfl⟩
    · exact ⟨s.f.cause, s.regs, rfl, fun _ _ => rfl⟩
  · split
    · exact ⟨c, _, rfl, fun b hb => regFile_get_set_ne s.regs 0x820004 b _ hb⟩
    · exact ⟨s.f.cause, s.regs, rfl, fun _ _ => rfl⟩

/-! ## BUILD and the journal of a change -/

/-- A slot tried: the link takes its messages, and nothing but BUILD's own notes changes beside. -/
theorem trySlot_shape (slot : Nat) (rest : List Nat) (s : State) :
    ∃ fe rg, trySlot slot rest s = { s with
        h.img.trying := some slot, h.img.rest := rest, h.tahr.fe := fe, h.tahr.startSent := true,
        h.img.fieldCode := 0, h.img.fieldOk := 0, regs := rg } ∧ (∀ b, b ≠ 0x600014 → RegFile.get rg b = RegFile.get s.regs b) := by
  unfold trySlot
  obtain ⟨fe, rg, e, hr⟩ := sendSlot_shape slot { s with h.img.trying := some slot, h.img.rest := rest }
  rw [e]
  exact ⟨fe, rg, rfl, hr⟩

/-- The root-state entries of a RUN entry change the journal and the keeper only. -/
theorem rootEntries_shape (s : State) : ∃ j k rg, rootEntries s = { s with h.jrn := j, keeper := k, regs := rg } ∧ j.loaded = s.h.jrn.loaded := by
  have ch : ∀ (st o : Nat) (es : List (Nat × Nat × Bytes)) (s : State),
      ∃ j k rg, jChange st o es s = { s with h.jrn := j, keeper := k, regs := rg } ∧ j.loaded = s.h.jrn.loaded := by
    intro st o es s
    obtain ⟨j, k1, k2, k3, rg, e, _⟩ := jChange_shape st o es s
    have l := jChange_loaded st o es s
    rw [e] at l ⊢
    exact ⟨j, _, rg, rfl, l⟩
  have first : ∃ j k rg, (if s.keeper.tampReport = true then
      jChange s.keeper.tampStamp 3 [(5, 5, [byte (rootCode s.keeper.rootState), byte s.keeper.tampSrc, 0, 0, 0, 0, 0, 0])]
        { s with keeper.tampReport := false } else s) = { s with h.jrn := j, keeper := k, regs := rg } ∧ j.loaded = s.h.jrn.loaded := by
    split
    · obtain ⟨j, k, rg, e, l⟩ := ch s.keeper.tampStamp 3 [(5, 5, [byte (rootCode s.keeper.rootState), byte s.keeper.tampSrc, 0, 0, 0, 0, 0, 0])]
        { s with keeper.tampReport := false }
      rw [e]
      exact ⟨j, k, rg, rfl, l⟩
    · exact ⟨s.h.jrn, s.keeper, s.regs, rfl, rfl⟩
  obtain ⟨j, k, rg, e, l⟩ := first
  unfold rootEntries
  dsimp only
  rw [e]
  split
  · obtain ⟨j', k', rg', e', l'⟩ := ch ({ s with h.jrn := j, keeper := k, regs := rg } : State).time.now 3 [(5, 5, [2, 0, 0, 0, 0, 0, 0, 0])]
      { s with h.jrn := j, keeper := { k with lostReport := false }, regs := rg }
    unfold jEvent
    rw [e']
    exact ⟨j', k', rg', rfl, l'.trans l⟩
  · exact ⟨j, k, rg, rfl, l⟩

theorem wantFuses_shape (im : Image) (s : State) :
    ∃ a1 a2, wantFuses im s = { s with
      h.img.floorPend := bit im.flags 0 && decide (s.otp.floor < im.svn),
      h.img.revokePend := bit im.flags 1 && !keyRevoked s (1 - im.keysel), h.arb := a1, f.arb := a2 } := by
  unfold wantFuses
  dsimp only
  split
  · obtain ⟨a1, a2, e⟩ := askLeave_shape false 7 0 s.time.now { s with
      h.img.floorPend := bit im.flags 0 && decide (s.otp.floor < im.svn), h.img.revokePend := bit im.flags 1 && !keyRevoked s (1 - im.keysel) }
    rw [e]
    exact ⟨a1, a2, rfl⟩
  · exact ⟨s.h.arb, s.f.arb, rfl⟩

/-- A request for STANDBY taken in RUN or DEGRADED: the entry's own fields, the journal's part, and the link (R62, R63). -/
theorem enterStandby_shape (o : Nat) (s : State) (h : s.sys.mode.live = true) :
    ∃ j k1 k2 k3 rg fe, enterStandby o s = { s with
        h.jrn := j, keeper.jrnLast := k1, keeper.jrnAck := k2, keeper.jrnValid := k3, regs := rg, h.tahr.fe := fe,
        sys.mode := .standby, sys.holdLine := true, sys.safeOut := .high, sys.entering := true,
        sys.drainAt := s.time.now + fieldOf s 0x20 0 8 * 1000000
        sys.wake := { Wake.reset with recording := true, armed := true, pulse := s.sys.wake.pulse, out := s.sys.wake.out }
        h.listeners := (List.range 8).map (fun i => ⟨bit (reg s 0x24) (1 + i), 0, false⟩) } ∧
      (∀ b, b ≠ 0x4C → b ≠ 0x600014 → RegFile.get rg b = RegFile.get s.regs b) := by
  have hm : s.sys.mode ≠ .standby := by
    intro e
    rw [e] at h
    cases h
  obtain ⟨j, k1, k2, k3, rg, e, hr, _, _⟩ := setMode_shape .standby o s hm
  unfold enterStandby
  rw [h]
  simp only [Bool.not_true, Bool.false_eq_true, if_false]
  rw [e]
  have pins : modePins (withJournal j k1 k2 k3 rg { s with sys.mode := .standby }) =
      { withJournal j k1 k2 k3 rg { s with sys.mode := .standby } with sys.holdLine := true, sys.safeOut := .high } := by
    unfold modePins withJournal
    simp [Mode.live]
  rw [pins]
  obtain ⟨fe, rg', e', hr'⟩ := sendPermit_shape false
    { withJournal j k1 k2 k3 rg { s with sys.mode := .standby } with sys.holdLine := true, sys.safeOut := .high }
  rw [e']
  have f1 : RegFile.get rg' 0x20 = RegFile.get s.regs 0x20 := (hr' 0x20 (by decide)).trans (hr 0x20 (by decide))
  have f2 : RegFile.get rg' 0x24 = RegFile.get s.regs 0x24 := (hr' 0x24 (by decide)).trans (hr 0x24 (by decide))
  refine ⟨j, k1, k2, k3, rg', fe, ?_, fun b h1 h2 => (hr' b h2).trans (hr b h1)⟩
  unfold fieldOf reg
  dsimp only
  rw [f1, f2]
  rfl

/-! ## Ethernet ports -/

theorem ethPortState_shape (p : Nat) (s : State) :
    ∃ tx bl rg, ethPortState p s = { s with h.fab.txing := tx, h.fab.blocked := bl, regs := rg } ∧
      (∀ b, b ≠ ethReg p 0x50 → RegFile.get rg b = RegFile.get s.regs b) := by
  unfold ethPortState
  dsimp only
  split
  · exact ⟨_, _, _, rfl, fun b hb => regFile_get_set_ne s.regs _ b _ hb⟩
  · exact ⟨s.h.fab.txing, _, s.regs, rfl, fun _ _ => rfl⟩

/-- A TC10 state of a port, with its blocking. -/
theorem setT1_shape (p st : Nat) (s : State) :
    ∃ tx bl rg, setT1 p st s = { s with
        h.eth.ports := s.h.eth.ports.set p { ethOf s p with t1 := st, link := if st = 2 then false else (ethOf s p).link },
        h.fab.txing := tx, h.fab.blocked := bl, regs := rg } ∧
      (∀ b, b ≠ ethReg p 0x50 → RegFile.get rg b = RegFile.get s.regs b) := by
  unfold setT1
  obtain ⟨tx, bl, rg, e, hr⟩ := ethPortState_shape p (setEth s p { ethOf s p with t1 := st, link := if st = 2 then false else (ethOf s p).link })
  rw [e]
  exact ⟨tx, bl, rg, rfl, hr⟩

end Sys2Proof.Laws
end

