-- ==== Sys2Proof/Laws/State.lean ====
section
/-! SUPPORT. What each update of the state leaves alone, field by field: one lemma for each, so that no proof unfolds a record update. -/

namespace Sys2Proof.Laws

open Sys2Proof Sys2Proof.Machine

@[simp] theorem setReg_pending (s : State) (a v : Nat) : (setReg s a v).pending = s.pending := rfl
@[simp] theorem setReg_free (s : State) (a v : Nat) : (setReg s a v).free = s.free := rfl
@[simp] theorem setReg_sys (s : State) (a v : Nat) : (setReg s a v).sys = s.sys := rfl
@[simp] theorem setReg_time (s : State) (a v : Nat) : (setReg s a v).time = s.time := rfl
@[simp] theorem setReg_keeper (s : State) (a v : Nat) : (setReg s a v).keeper = s.keeper := rfl
@[simp] theorem setReg_otp (s : State) (a v : Nat) : (setReg s a v).otp = s.otp := rfl
@[simp] theorem setReg_flash (s : State) (a v : Nat) : (setReg s a v).flash = s.flash := rfl
@[simp] theorem setReg_h (s : State) (a v : Nat) : (setReg s a v).h = s.h := rfl
@[simp] theorem setReg_f (s : State) (a v : Nat) : (setReg s a v).f = s.f := rfl

@[simp] theorem setField_pending (s : State) (a lo w x : Nat) : (setField s a lo w x).pending = s.pending := rfl
@[simp] theorem setField_free (s : State) (a lo w x : Nat) : (setField s a lo w x).free = s.free := rfl
@[simp] theorem setField_sys (s : State) (a lo w x : Nat) : (setField s a lo w x).sys = s.sys := rfl
@[simp] theorem setField_time (s : State) (a lo w x : Nat) : (setField s a lo w x).time = s.time := rfl
@[simp] theorem setField_keeper (s : State) (a lo w x : Nat) : (setField s a lo w x).keeper = s.keeper := rfl
@[simp] theorem setField_otp (s : State) (a lo w x : Nat) : (setField s a lo w x).otp = s.otp := rfl
@[simp] theorem setField_flash (s : State) (a lo w x : Nat) : (setField s a lo w x).flash = s.flash := rfl
@[simp] theorem setField_h (s : State) (a lo w x : Nat) : (setField s a lo w x).h = s.h := rfl
@[simp] theorem setField_f (s : State) (a lo w x : Nat) : (setField s a lo w x).f = s.f := rfl

@[simp] theorem bump_pending (s : State) (a lo w n : Nat) : (bump s a lo w n).pending = s.pending := rfl
@[simp] theorem bump_free (s : State) (a lo w n : Nat) : (bump s a lo w n).free = s.free := rfl
@[simp] theorem bump_sys (s : State) (a lo w n : Nat) : (bump s a lo w n).sys = s.sys := rfl
@[simp] theorem bump_time (s : State) (a lo w n : Nat) : (bump s a lo w n).time = s.time := rfl
@[simp] theorem bump_keeper (s : State) (a lo w n : Nat) : (bump s a lo w n).keeper = s.keeper := rfl
@[simp] theorem bump_otp (s : State) (a lo w n : Nat) : (bump s a lo w n).otp = s.otp := rfl
@[simp] theorem bump_flash (s : State) (a lo w n : Nat) : (bump s a lo w n).flash = s.flash := rfl
@[simp] theorem bump_h (s : State) (a lo w n : Nat) : (bump s a lo w n).h = s.h := rfl
@[simp] theorem bump_f (s : State) (a lo w n : Nat) : (bump s a lo w n).f = s.f := rfl

@[simp] theorem setInt_pending (i : Nat) (s : State) : (setInt i s).pending = s.pending := rfl
@[simp] theorem setInt_free (i : Nat) (s : State) : (setInt i s).free = s.free := rfl
@[simp] theorem setInt_sys (i : Nat) (s : State) : (setInt i s).sys = s.sys := rfl
@[simp] theorem setInt_time (i : Nat) (s : State) : (setInt i s).time = s.time := rfl
@[simp] theorem setInt_keeper (i : Nat) (s : State) : (setInt i s).keeper = s.keeper := rfl
@[simp] theorem setInt_otp (i : Nat) (s : State) : (setInt i s).otp = s.otp := rfl
@[simp] theorem setInt_flash (i : Nat) (s : State) : (setInt i s).flash = s.flash := rfl
@[simp] theorem setInt_h (i : Nat) (s : State) : (setInt i s).h = s.h := rfl
@[simp] theorem setInt_f (i : Nat) (s : State) : (setInt i s).f = s.f := rfl

@[simp] theorem setQueue_pending (s : State) (q : Nat) (l : List Frame) : (setQueue s q l).pending = s.pending := rfl
@[simp] theorem setQueue_free (s : State) (q : Nat) (l : List Frame) : (setQueue s q l).free = s.free := rfl
@[simp] theorem setQueue_sys (s : State) (q : Nat) (l : List Frame) : (setQueue s q l).sys = s.sys := rfl
@[simp] theorem setQueue_time (s : State) (q : Nat) (l : List Frame) : (setQueue s q l).time = s.time := rfl
@[simp] theorem setQueue_keeper (s : State) (q : Nat) (l : List Frame) : (setQueue s q l).keeper = s.keeper := rfl
@[simp] theorem setQueue_otp (s : State) (q : Nat) (l : List Frame) : (setQueue s q l).otp = s.otp := rfl
@[simp] theorem setQueue_flash (s : State) (q : Nat) (l : List Frame) : (setQueue s q l).flash = s.flash := rfl
@[simp] theorem setQueue_regs (s : State) (q : Nat) (l : List Frame) : (setQueue s q l).regs = s.regs := rfl
@[simp] theorem setQueue_f (s : State) (q : Nat) (l : List Frame) : (setQueue s q l).f = s.f := rfl

@[simp] theorem setFifo_pending (s : State) (e : Nat) (l : List LEntry) : (setFifo s e l).pending = s.pending := rfl
@[simp] theorem setFifo_free (s : State) (e : Nat) (l : List LEntry) : (setFifo s e l).free = s.free := rfl
@[simp] theorem setFifo_sys (s : State) (e : Nat) (l : List LEntry) : (setFifo s e l).sys = s.sys := rfl
@[simp] theorem setFifo_time (s : State) (e : Nat) (l : List LEntry) : (setFifo s e l).time = s.time := rfl
@[simp] theorem setFifo_keeper (s : State) (e : Nat) (l : List LEntry) : (setFifo s e l).keeper = s.keeper := rfl
@[simp] theorem setFifo_otp (s : State) (e : Nat) (l : List LEntry) : (setFifo s e l).otp = s.otp := rfl
@[simp] theorem setFifo_flash (s : State) (e : Nat) (l : List LEntry) : (setFifo s e l).flash = s.flash := rfl
@[simp] theorem setFifo_regs (s : State) (e : Nat) (l : List LEntry) : (setFifo s e l).regs = s.regs := rfl
@[simp] theorem setFifo_f (s : State) (e : Nat) (l : List LEntry) : (setFifo s e l).f = s.f := rfl

@[simp] theorem setOcc_pending (s : State) (q n : Nat) : (setOcc s q n).pending = s.pending := rfl
@[simp] theorem setOcc_free (s : State) (q n : Nat) : (setOcc s q n).free = s.free := rfl
@[simp] theorem setOcc_sys (s : State) (q n : Nat) : (setOcc s q n).sys = s.sys := rfl
@[simp] theorem setOcc_time (s : State) (q n : Nat) : (setOcc s q n).time = s.time := rfl
@[simp] theorem setOcc_keeper (s : State) (q n : Nat) : (setOcc s q n).keeper = s.keeper := rfl
@[simp] theorem setOcc_otp (s : State) (q n : Nat) : (setOcc s q n).otp = s.otp := rfl
@[simp] theorem setOcc_flash (s : State) (q n : Nat) : (setOcc s q n).flash = s.flash := rfl
@[simp] theorem setOcc_regs (s : State) (q n : Nat) : (setOcc s q n).regs = s.regs := rfl
@[simp] theorem setOcc_f (s : State) (q n : Nat) : (setOcc s q n).f = s.f := rfl

@[simp] theorem setBlocked_pending (e : Nat) (b : Bool) (s : State) : (setBlocked e b s).pending = s.pending := rfl
@[simp] theorem setBlocked_free (e : Nat) (b : Bool) (s : State) : (setBlocked e b s).free = s.free := rfl
@[simp] theorem setBlocked_sys (e : Nat) (b : Bool) (s : State) : (setBlocked e b s).sys = s.sys := rfl
@[simp] theorem setBlocked_time (e : Nat) (b : Bool) (s : State) : (setBlocked e b s).time = s.time := rfl
@[simp] theorem setBlocked_keeper (e : Nat) (b : Bool) (s : State) : (setBlocked e b s).keeper = s.keeper := rfl
@[simp] theorem setBlocked_otp (e : Nat) (b : Bool) (s : State) : (setBlocked e b s).otp = s.otp := rfl
@[simp] theorem setBlocked_flash (e : Nat) (b : Bool) (s : State) : (setBlocked e b s).flash = s.flash := rfl
@[simp] theorem setBlocked_regs (e : Nat) (b : Bool) (s : State) : (setBlocked e b s).regs = s.regs := rfl
@[simp] theorem setBlocked_f (e : Nat) (b : Bool) (s : State) : (setBlocked e b s).f = s.f := rfl

@[simp] theorem setEth_pending (s : State) (p : Nat) (e : Eth) : (setEth s p e).pending = s.pending := rfl
@[simp] theorem setEth_free (s : State) (p : Nat) (e : Eth) : (setEth s p e).free = s.free := rfl
@[simp] theorem setEth_sys (s : State) (p : Nat) (e : Eth) : (setEth s p e).sys = s.sys := rfl
@[simp] theorem setEth_time (s : State) (p : Nat) (e : Eth) : (setEth s p e).time = s.time := rfl
@[simp] theorem setEth_keeper (s : State) (p : Nat) (e : Eth) : (setEth s p e).keeper = s.keeper := rfl
@[simp] theorem setEth_otp (s : State) (p : Nat) (e : Eth) : (setEth s p e).otp = s.otp := rfl
@[simp] theorem setEth_flash (s : State) (p : Nat) (e : Eth) : (setEth s p e).flash = s.flash := rfl
@[simp] theorem setEth_regs (s : State) (p : Nat) (e : Eth) : (setEth s p e).regs = s.regs := rfl
@[simp] theorem setEth_f (s : State) (p : Nat) (e : Eth) : (setEth s p e).f = s.f := rfl

@[simp] theorem setLin_pending (s : State) (c : Nat) (l : Lin) : (setLin s c l).pending = s.pending := rfl
@[simp] theorem setLin_free (s : State) (c : Nat) (l : Lin) : (setLin s c l).free = s.free := rfl
@[simp] theorem setLin_sys (s : State) (c : Nat) (l : Lin) : (setLin s c l).sys = s.sys := rfl
@[simp] theorem setLin_time (s : State) (c : Nat) (l : Lin) : (setLin s c l).time = s.time := rfl
@[simp] theorem setLin_keeper (s : State) (c : Nat) (l : Lin) : (setLin s c l).keeper = s.keeper := rfl
@[simp] theorem setLin_otp (s : State) (c : Nat) (l : Lin) : (setLin s c l).otp = s.otp := rfl
@[simp] theorem setLin_flash (s : State) (c : Nat) (l : Lin) : (setLin s c l).flash = s.flash := rfl
@[simp] theorem setLin_regs (s : State) (c : Nat) (l : Lin) : (setLin s c l).regs = s.regs := rfl
@[simp] theorem setLin_f (s : State) (c : Nat) (l : Lin) : (setLin s c l).f = s.f := rfl

@[simp] theorem setCan_pending (s : State) (n : Nat) (c : Can) : (setCan s n c).pending = s.pending := by unfold setCan; repeat (first | rfl | split)
@[simp] theorem setCan_free (s : State) (n : Nat) (c : Can) : (setCan s n c).free = s.free := by unfold setCan; repeat (first | rfl | split)
@[simp] theorem setCan_sys (s : State) (n : Nat) (c : Can) : (setCan s n c).sys = s.sys := by unfold setCan; repeat (first | rfl | split)
@[simp] theorem setCan_time (s : State) (n : Nat) (c : Can) : (setCan s n c).time = s.time := by unfold setCan; repeat (first | rfl | split)
@[simp] theorem setCan_keeper (s : State) (n : Nat) (c : Can) : (setCan s n c).keeper = s.keeper := by unfold setCan; repeat (first | rfl | split)
@[simp] theorem setCan_otp (s : State) (n : Nat) (c : Can) : (setCan s n c).otp = s.otp := by unfold setCan; repeat (first | rfl | split)
@[simp] theorem setCan_flash (s : State) (n : Nat) (c : Can) : (setCan s n c).flash = s.flash := by unfold setCan; repeat (first | rfl | split)
@[simp] theorem setCan_regs (s : State) (n : Nat) (c : Can) : (setCan s n c).regs = s.regs := by unfold setCan; repeat (first | rfl | split)

@[simp] theorem setListener_pending (l : Nat) (x : Listener) (s : State) : (setListener l x s).pending = s.pending := rfl
@[simp] theorem setListener_free (l : Nat) (x : Listener) (s : State) : (setListener l x s).free = s.free := rfl
@[simp] theorem setListener_sys (l : Nat) (x : Listener) (s : State) : (setListener l x s).sys = s.sys := rfl
@[simp] theorem setListener_time (l : Nat) (x : Listener) (s : State) : (setListener l x s).time = s.time := rfl
@[simp] theorem setListener_keeper (l : Nat) (x : Listener) (s : State) : (setListener l x s).keeper = s.keeper := rfl
@[simp] theorem setListener_otp (l : Nat) (x : Listener) (s : State) : (setListener l x s).otp = s.otp := rfl
@[simp] theorem setListener_flash (l : Nat) (x : Listener) (s : State) : (setListener l x s).flash = s.flash := rfl
@[simp] theorem setListener_regs (l : Nat) (x : Listener) (s : State) : (setListener l x s).regs = s.regs := rfl
@[simp] theorem setListener_f (l : Nat) (x : Listener) (s : State) : (setListener l x s).f = s.f := rfl

@[simp] theorem setJob_pending (j : SpJob) (s : State) : (setJob j s).pending = s.pending := rfl
@[simp] theorem setJob_free (j : SpJob) (s : State) : (setJob j s).free = s.free := rfl
@[simp] theorem setJob_sys (j : SpJob) (s : State) : (setJob j s).sys = s.sys := rfl
@[simp] theorem setJob_time (j : SpJob) (s : State) : (setJob j s).time = s.time := rfl
@[simp] theorem setJob_keeper (j : SpJob) (s : State) : (setJob j s).keeper = s.keeper := rfl
@[simp] theorem setJob_otp (j : SpJob) (s : State) : (setJob j s).otp = s.otp := rfl
@[simp] theorem setJob_flash (j : SpJob) (s : State) : (setJob j s).flash = s.flash := rfl
@[simp] theorem setJob_regs (j : SpJob) (s : State) : (setJob j s).regs = s.regs := rfl
@[simp] theorem setJob_f (j : SpJob) (s : State) : (setJob j s).f = s.f := rfl

@[simp] theorem setRole_pending (h : Nat) (r : Role) (s : State) : (setRole h r s).pending = s.pending := rfl
@[simp] theorem setRole_free (h : Nat) (r : Role) (s : State) : (setRole h r s).free = s.free := rfl
@[simp] theorem setRole_sys (h : Nat) (r : Role) (s : State) : (setRole h r s).sys = s.sys := rfl
@[simp] theorem setRole_time (h : Nat) (r : Role) (s : State) : (setRole h r s).time = s.time := rfl
@[simp] theorem setRole_keeper (h : Nat) (r : Role) (s : State) : (setRole h r s).keeper = s.keeper := rfl
@[simp] theorem setRole_otp (h : Nat) (r : Role) (s : State) : (setRole h r s).otp = s.otp := rfl
@[simp] theorem setRole_flash (h : Nat) (r : Role) (s : State) : (setRole h r s).flash = s.flash := rfl
@[simp] theorem setRole_regs (h : Nat) (r : Role) (s : State) : (setRole h r s).regs = s.regs := rfl
@[simp] theorem setRole_f (h : Nat) (r : Role) (s : State) : (setRole h r s).f = s.f := rfl

@[simp] theorem setEp_pending (e : Nat) (x : AEp) (s : State) : (setEp e x s).pending = s.pending := rfl
@[simp] theorem setEp_free (e : Nat) (x : AEp) (s : State) : (setEp e x s).free = s.free := rfl
@[simp] theorem setEp_sys (e : Nat) (x : AEp) (s : State) : (setEp e x s).sys = s.sys := rfl
@[simp] theorem setEp_time (e : Nat) (x : AEp) (s : State) : (setEp e x s).time = s.time := rfl
@[simp] theorem setEp_keeper (e : Nat) (x : AEp) (s : State) : (setEp e x s).keeper = s.keeper := rfl
@[simp] theorem setEp_otp (e : Nat) (x : AEp) (s : State) : (setEp e x s).otp = s.otp := rfl
@[simp] theorem setEp_flash (e : Nat) (x : AEp) (s : State) : (setEp e x s).flash = s.flash := rfl
@[simp] theorem setEp_regs (e : Nat) (x : AEp) (s : State) : (setEp e x s).regs = s.regs := rfl
@[simp] theorem setEp_f (e : Nat) (x : AEp) (s : State) : (setEp e x s).f = s.f := rfl

@[simp] theorem setOut_pending (n : Nat) (o : AOut) (s : State) : (setOut n o s).pending = s.pending := by unfold setOut; repeat (first | rfl | split)
@[simp] theorem setOut_free (n : Nat) (o : AOut) (s : State) : (setOut n o s).free = s.free := by unfold setOut; repeat (first | rfl | split)
@[simp] theorem setOut_sys (n : Nat) (o : AOut) (s : State) : (setOut n o s).sys = s.sys := by unfold setOut; repeat (first | rfl | split)
@[simp] theorem setOut_time (n : Nat) (o : AOut) (s : State) : (setOut n o s).time = s.time := by unfold setOut; repeat (first | rfl | split)
@[simp] theorem setOut_keeper (n : Nat) (o : AOut) (s : State) : (setOut n o s).keeper = s.keeper := by unfold setOut; repeat (first | rfl | split)
@[simp] theorem setOut_otp (n : Nat) (o : AOut) (s : State) : (setOut n o s).otp = s.otp := by unfold setOut; repeat (first | rfl | split)
@[simp] theorem setOut_flash (n : Nat) (o : AOut) (s : State) : (setOut n o s).flash = s.flash := by unfold setOut; repeat (first | rfl | split)
@[simp] theorem setOut_regs (n : Nat) (o : AOut) (s : State) : (setOut n o s).regs = s.regs := by unfold setOut; repeat (first | rfl | split)
@[simp] theorem setOut_f (n : Nat) (o : AOut) (s : State) : (setOut n o s).f = s.f := by unfold setOut; repeat (first | rfl | split)

@[simp] theorem setPort_pending (i : Nat) (p : APort) (s : State) : (setPort i p s).pending = s.pending := by unfold setPort; repeat (first | rfl | split)
@[simp] theorem setPort_free (i : Nat) (p : APort) (s : State) : (setPort i p s).free = s.free := by unfold setPort; repeat (first | rfl | split)
@[simp] theorem setPort_sys (i : Nat) (p : APort) (s : State) : (setPort i p s).sys = s.sys := by unfold setPort; repeat (first | rfl | split)
@[simp] theorem setPort_time (i : Nat) (p : APort) (s : State) : (setPort i p s).time = s.time := by unfold setPort; repeat (first | rfl | split)
@[simp] theorem setPort_keeper (i : Nat) (p : APort) (s : State) : (setPort i p s).keeper = s.keeper := by unfold setPort; repeat (first | rfl | split)
@[simp] theorem setPort_otp (i : Nat) (p : APort) (s : State) : (setPort i p s).otp = s.otp := by unfold setPort; repeat (first | rfl | split)
@[simp] theorem setPort_flash (i : Nat) (p : APort) (s : State) : (setPort i p s).flash = s.flash := by unfold setPort; repeat (first | rfl | split)
@[simp] theorem setPort_regs (i : Nat) (p : APort) (s : State) : (setPort i p s).regs = s.regs := by unfold setPort; repeat (first | rfl | split)
@[simp] theorem setPort_f (i : Nat) (p : APort) (s : State) : (setPort i p s).f = s.f := by unfold setPort; repeat (first | rfl | split)

@[simp] theorem setWord_pending (k : Nat) (v : Int) (s : State) : (setWord k v s).pending = s.pending := rfl
@[simp] theorem setWord_free (k : Nat) (v : Int) (s : State) : (setWord k v s).free = s.free := rfl
@[simp] theorem setWord_sys (k : Nat) (v : Int) (s : State) : (setWord k v s).sys = s.sys := rfl
@[simp] theorem setWord_time (k : Nat) (v : Int) (s : State) : (setWord k v s).time = s.time := rfl
@[simp] theorem setWord_keeper (k : Nat) (v : Int) (s : State) : (setWord k v s).keeper = s.keeper := rfl
@[simp] theorem setWord_otp (k : Nat) (v : Int) (s : State) : (setWord k v s).otp = s.otp := rfl
@[simp] theorem setWord_flash (k : Nat) (v : Int) (s : State) : (setWord k v s).flash = s.flash := rfl
@[simp] theorem setWord_regs (k : Nat) (v : Int) (s : State) : (setWord k v s).regs = s.regs := rfl
@[simp] theorem setWord_f (k : Nat) (v : Int) (s : State) : (setWord k v s).f = s.f := rfl

@[simp] theorem setRep_pending (k : Nat) (r : Repair) (s : State) : (setRep k r s).pending = s.pending := by unfold setRep; repeat (first | rfl | split)
@[simp] theorem setRep_free (k : Nat) (r : Repair) (s : State) : (setRep k r s).free = s.free := by unfold setRep; repeat (first | rfl | split)
@[simp] theorem setRep_sys (k : Nat) (r : Repair) (s : State) : (setRep k r s).sys = s.sys := by unfold setRep; repeat (first | rfl | split)
@[simp] theorem setRep_time (k : Nat) (r : Repair) (s : State) : (setRep k r s).time = s.time := by unfold setRep; repeat (first | rfl | split)
@[simp] theorem setRep_keeper (k : Nat) (r : Repair) (s : State) : (setRep k r s).keeper = s.keeper := by unfold setRep; repeat (first | rfl | split)
@[simp] theorem setRep_otp (k : Nat) (r : Repair) (s : State) : (setRep k r s).otp = s.otp := by unfold setRep; repeat (first | rfl | split)
@[simp] theorem setRep_flash (k : Nat) (r : Repair) (s : State) : (setRep k r s).flash = s.flash := by unfold setRep; repeat (first | rfl | split)
@[simp] theorem setRep_regs (k : Nat) (r : Repair) (s : State) : (setRep k r s).regs = s.regs := by unfold setRep; repeat (first | rfl | split)

@[simp] theorem setFlt_pending (src : Nat) (c : Faults) (s : State) : (setFlt src c s).pending = s.pending := by unfold setFlt; repeat (first | rfl | split)
@[simp] theorem setFlt_free (src : Nat) (c : Faults) (s : State) : (setFlt src c s).free = s.free := by unfold setFlt; repeat (first | rfl | split)
@[simp] theorem setFlt_sys (src : Nat) (c : Faults) (s : State) : (setFlt src c s).sys = s.sys := by unfold setFlt; repeat (first | rfl | split)
@[simp] theorem setFlt_time (src : Nat) (c : Faults) (s : State) : (setFlt src c s).time = s.time := by unfold setFlt; repeat (first | rfl | split)
@[simp] theorem setFlt_keeper (src : Nat) (c : Faults) (s : State) : (setFlt src c s).keeper = s.keeper := by unfold setFlt; repeat (first | rfl | split)
@[simp] theorem setFlt_otp (src : Nat) (c : Faults) (s : State) : (setFlt src c s).otp = s.otp := by unfold setFlt; repeat (first | rfl | split)
@[simp] theorem setFlt_flash (src : Nat) (c : Faults) (s : State) : (setFlt src c s).flash = s.flash := by unfold setFlt; repeat (first | rfl | split)
@[simp] theorem setFlt_regs (src : Nat) (c : Faults) (s : State) : (setFlt src c s).regs = s.regs := by unfold setFlt; repeat (first | rfl | split)

@[simp] theorem setArb_pending (field : Bool) (a : Arbiter) (s : State) : (setArb field a s).pending = s.pending := by unfold setArb; repeat (first | rfl | split)
@[simp] theorem setArb_free (field : Bool) (a : Arbiter) (s : State) : (setArb field a s).free = s.free := by unfold setArb; repeat (first | rfl | split)
@[simp] theorem setArb_sys (field : Bool) (a : Arbiter) (s : State) : (setArb field a s).sys = s.sys := by unfold setArb; repeat (first | rfl | split)
@[simp] theorem setArb_time (field : Bool) (a : Arbiter) (s : State) : (setArb field a s).time = s.time := by unfold setArb; repeat (first | rfl | split)
@[simp] theorem setArb_keeper (field : Bool) (a : Arbiter) (s : State) : (setArb field a s).keeper = s.keeper := by unfold setArb; repeat (first | rfl | split)
@[simp] theorem setArb_otp (field : Bool) (a : Arbiter) (s : State) : (setArb field a s).otp = s.otp := by unfold setArb; repeat (first | rfl | split)
@[simp] theorem setArb_flash (field : Bool) (a : Arbiter) (s : State) : (setArb field a s).flash = s.flash := by unfold setArb; repeat (first | rfl | split)
@[simp] theorem setArb_regs (field : Bool) (a : Arbiter) (s : State) : (setArb field a s).regs = s.regs := by unfold setArb; repeat (first | rfl | split)

@[simp] theorem setMeas_pending (host : Bool) (m : Meas) (s : State) : (setMeas host m s).pending = s.pending := by unfold setMeas; repeat (first | rfl | split)
@[simp] theorem setMeas_free (host : Bool) (m : Meas) (s : State) : (setMeas host m s).free = s.free := by unfold setMeas; repeat (first | rfl | split)
@[simp] theorem setMeas_sys (host : Bool) (m : Meas) (s : State) : (setMeas host m s).sys = s.sys := by unfold setMeas; repeat (first | rfl | split)
@[simp] theorem setMeas_time (host : Bool) (m : Meas) (s : State) : (setMeas host m s).time = s.time := by unfold setMeas; repeat (first | rfl | split)
@[simp] theorem setMeas_keeper (host : Bool) (m : Meas) (s : State) : (setMeas host m s).keeper = s.keeper := by unfold setMeas; repeat (first | rfl | split)
@[simp] theorem setMeas_otp (host : Bool) (m : Meas) (s : State) : (setMeas host m s).otp = s.otp := by unfold setMeas; repeat (first | rfl | split)
@[simp] theorem setMeas_flash (host : Bool) (m : Meas) (s : State) : (setMeas host m s).flash = s.flash := by unfold setMeas; repeat (first | rfl | split)
@[simp] theorem setMeas_regs (host : Bool) (m : Meas) (s : State) : (setMeas host m s).regs = s.regs := by unfold setMeas; repeat (first | rfl | split)

@[simp] theorem setEnd_pending (field : Bool) (e : LinkEnd) (s : State) : (setEnd field e s).pending = s.pending := by unfold setEnd; repeat (first | rfl | split)
@[simp] theorem setEnd_free (field : Bool) (e : LinkEnd) (s : State) : (setEnd field e s).free = s.free := by unfold setEnd; repeat (first | rfl | split)
@[simp] theorem setEnd_sys (field : Bool) (e : LinkEnd) (s : State) : (setEnd field e s).sys = s.sys := by unfold setEnd; repeat (first | rfl | split)
@[simp] theorem setEnd_time (field : Bool) (e : LinkEnd) (s : State) : (setEnd field e s).time = s.time := by unfold setEnd; repeat (first | rfl | split)
@[simp] theorem setEnd_keeper (field : Bool) (e : LinkEnd) (s : State) : (setEnd field e s).keeper = s.keeper := by unfold setEnd; repeat (first | rfl | split)
@[simp] theorem setEnd_otp (field : Bool) (e : LinkEnd) (s : State) : (setEnd field e s).otp = s.otp := by unfold setEnd; repeat (first | rfl | split)
@[simp] theorem setEnd_flash (field : Bool) (e : LinkEnd) (s : State) : (setEnd field e s).flash = s.flash := by unfold setEnd; repeat (first | rfl | split)
@[simp] theorem setEnd_regs (field : Bool) (e : LinkEnd) (s : State) : (setEnd field e s).regs = s.regs := by unfold setEnd; repeat (first | rfl | split)

@[simp] theorem setTunnel_pending (t : Nat) (x : Tunnel) (s : State) : (setTunnel t x s).pending = s.pending := rfl
@[simp] theorem setTunnel_free (t : Nat) (x : Tunnel) (s : State) : (setTunnel t x s).free = s.free := rfl
@[simp] theorem setTunnel_sys (t : Nat) (x : Tunnel) (s : State) : (setTunnel t x s).sys = s.sys := rfl
@[simp] theorem setTunnel_time (t : Nat) (x : Tunnel) (s : State) : (setTunnel t x s).time = s.time := rfl
@[simp] theorem setTunnel_keeper (t : Nat) (x : Tunnel) (s : State) : (setTunnel t x s).keeper = s.keeper := rfl
@[simp] theorem setTunnel_otp (t : Nat) (x : Tunnel) (s : State) : (setTunnel t x s).otp = s.otp := rfl
@[simp] theorem setTunnel_flash (t : Nat) (x : Tunnel) (s : State) : (setTunnel t x s).flash = s.flash := rfl
@[simp] theorem setTunnel_regs (t : Nat) (x : Tunnel) (s : State) : (setTunnel t x s).regs = s.regs := rfl
@[simp] theorem setTunnel_f (t : Nat) (x : Tunnel) (s : State) : (setTunnel t x s).f = s.f := rfl

@[simp] theorem setWindow_pending (fld : Bool) (o : Origin) (n : Nat) (s : State) : (setWindow fld o n s).pending = s.pending := by unfold setWindow; repeat (first | rfl | split)
@[simp] theorem setWindow_free (fld : Bool) (o : Origin) (n : Nat) (s : State) : (setWindow fld o n s).free = s.free := by unfold setWindow; repeat (first | rfl | split)
@[simp] theorem setWindow_sys (fld : Bool) (o : Origin) (n : Nat) (s : State) : (setWindow fld o n s).sys = s.sys := by unfold setWindow; repeat (first | rfl | split)
@[simp] theorem setWindow_time (fld : Bool) (o : Origin) (n : Nat) (s : State) : (setWindow fld o n s).time = s.time := by unfold setWindow; repeat (first | rfl | split)
@[simp] theorem setWindow_keeper (fld : Bool) (o : Origin) (n : Nat) (s : State) : (setWindow fld o n s).keeper = s.keeper := by unfold setWindow; repeat (first | rfl | split)
@[simp] theorem setWindow_otp (fld : Bool) (o : Origin) (n : Nat) (s : State) : (setWindow fld o n s).otp = s.otp := by unfold setWindow; repeat (first | rfl | split)
@[simp] theorem setWindow_flash (fld : Bool) (o : Origin) (n : Nat) (s : State) : (setWindow fld o n s).flash = s.flash := by unfold setWindow; repeat (first | rfl | split)
@[simp] theorem setWindow_regs (fld : Bool) (o : Origin) (n : Nat) (s : State) : (setWindow fld o n s).regs = s.regs := by unfold setWindow; repeat (first | rfl | split)

@[simp] theorem raise_pending (src detail : Nat) (s : State) : (raise src detail s).pending = s.pending := by unfold raise; repeat (first | rfl | split)
@[simp] theorem raise_free (src detail : Nat) (s : State) : (raise src detail s).free = s.free := by unfold raise; repeat (first | rfl | split)
@[simp] theorem raise_sys (src detail : Nat) (s : State) : (raise src detail s).sys = s.sys := by unfold raise; repeat (first | rfl | split)
@[simp] theorem raise_time (src detail : Nat) (s : State) : (raise src detail s).time = s.time := by unfold raise; repeat (first | rfl | split)
@[simp] theorem raise_keeper (src detail : Nat) (s : State) : (raise src detail s).keeper = s.keeper := by unfold raise; repeat (first | rfl | split)
@[simp] theorem raise_otp (src detail : Nat) (s : State) : (raise src detail s).otp = s.otp := by unfold raise; repeat (first | rfl | split)
@[simp] theorem raise_flash (src detail : Nat) (s : State) : (raise src detail s).flash = s.flash := by unfold raise; repeat (first | rfl | split)
@[simp] theorem raise_regs (src detail : Nat) (s : State) : (raise src detail s).regs = s.regs := by unfold raise; repeat (first | rfl | split)

@[simp] theorem modePins_pending (s : State) : (modePins s).pending = s.pending := rfl
@[simp] theorem modePins_free (s : State) : (modePins s).free = s.free := rfl
@[simp] theorem modePins_time (s : State) : (modePins s).time = s.time := rfl
@[simp] theorem modePins_keeper (s : State) : (modePins s).keeper = s.keeper := rfl
@[simp] theorem modePins_otp (s : State) : (modePins s).otp = s.otp := rfl
@[simp] theorem modePins_flash (s : State) : (modePins s).flash = s.flash := rfl
@[simp] theorem modePins_regs (s : State) : (modePins s).regs = s.regs := rfl
@[simp] theorem modePins_h (s : State) : (modePins s).h = s.h := rfl
@[simp] theorem modePins_f (s : State) : (modePins s).f = s.f := rfl

end Sys2Proof.Laws
end

