-- ==== Sys2Proof/Tests/Slice0.lean ====
section
/-! SUPPORT. The builder's own tests: terms that the well-formedness check refuses and takes, hypotheses of the statements met by small states, and single commands with results that the spec gives. -/

namespace Sys2Proof.Tests

open Sys2Proof Sys2Proof.Machine

/-! ## Well-formed commands -/

/-- A transaction with every field within Table HOST-1. -/
def okTxn : Txn := ⟨255, 255, 4095, 0xFFFFFFFF, [], 0, 0⟩

/-- A transaction whose LEN has 13 bits. -/
def badTxn : Txn := ⟨0, 0, 4096, 0, [], 0, 0⟩

/-- Each field of a transaction one beyond its width. -/
theorem test_txn_ill_formed : ([⟨256, 0, 0, 0, [], 0, 0⟩, ⟨0, 256, 0, 0, [], 0, 0⟩, ⟨0, 0, 4096, 0, [], 0, 0⟩, ⟨0, 0, 0, 0x100000000, [], 0, 0⟩] : List Txn).all (fun t => !t.wf) = true := by decide

/-- Each operand one beyond its range is refused. -/
theorem test_ill_formed_0 : ([
  .reset badTxn,
  .sleep badTxn,
  .wakeEvent 16 0,
  .wakeEvent 0 (2 ^ 64),
  .resume badTxn,
  .nop badTxn,
  .write badTxn,
  .writel badTxn,
  .read badTxn,
  .fetch badTxn,
  .send badTxn,
  .recv badTxn,
  .badop 16 okTxn,
  .badop 0 badTxn,
  .registerWrite .mp (2 ^ 24) 0,
  .gatewayClassify 256,
  .headRelease 256,
  .egressSchedule 256,
  .modelDeparture 256,
  .holdLimitPurge 256,
  .ledgerDivergence 256,
  .gateIntervalEnd 12,
  .fabGbaselWrite .mp 12 0,
  .fabGbasehWrite .mp 12 0,
  .virtualPortConsume 79,
  .virtualPortConsume 256,
  .containerPeriodicEmit 79,
  .containerPeriodicEmit 256,
  .canCtlInitWrite .mp 32 0,
  .canBusIntegrate 32] : List Instr).all (fun i => !i.wf) = true := by decide

/-- Each operand one beyond its range is refused. -/
theorem test_ill_formed_1 : ([
  .canRecover .mp 32,
  .busOffRecoveryEnd 32,
  .canTxAttempt 32 0,
  .canTxAttempt 0 128,
  .canTxComplete 32,
  .canTxAttemptFail 32 0 false false false 0,
  .canTxAttemptFail 0 7 false false false 0,
  .canTxabort .mp 32 0,
  .canTransmitStall 32,
  .canRxFrame 32 0 [],
  .canRxFrame 0 (2 ^ 64) [],
  .listenerWakeFrame 8 0 false 0 0 [],
  .listenerWakeFrame 0 (2 ^ 64) false 0 0 [],
  .listenerWakeFrame 0 0 false (2 ^ 29) 0 [],
  .listenerWakeFrame 0 0 false 0 16 [],
  .listenerWakeFrame 0 0 false 0 0 (List.replicate 9 0),
  .listenerFrameError 8,
  .listenerFecOverflow 8 0,
  .listenerFecOverflow 0 (2 ^ 64),
  .linSlotStart 8,
  .linHeaderRx 8 0 false,
  .linHeaderRx 0 256 false,
  .linResponseRx 8 0 0 0 [0] false,
  .linResponseRx 0 (2 ^ 64) 0 0 [0] false,
  .linResponseRx 0 0 256 0 [0] false,
  .linResponseRx 0 0 0 256 [0] false,
  .linResponseRx 0 0 0 0 [] false,
  .linResponseRx 0 0 0 0 (List.replicate 9 0) false,
  .linNoResponse 8,
  .linSchedWrite .mp 8 0] : List Instr).all (fun i => !i.wf) = true := by decide

/-- Each operand one beyond its range is refused. -/
theorem test_ill_formed_2 : ([
  .linSleep .mp 8,
  .linWake .mp 8,
  .linWakePulse 8,
  .linIdleSleep 8,
  .linScheduleResume 8,
  .linBusFault 8,
  .linBusFaultEnd 8,
  .ethRxFrame 12 0 [] false,
  .ethRxFrame 0 (2 ^ 64) [] false,
  .ethLinkChange 12 false 0 false,
  .ethLinkChange 0 false 8 false,
  .ethCollision 9,
  .ethCollision 12,
  .ethPlcaWrite .mp 9 false 0,
  .ethPlcaWrite .mp 12 false 0,
  .tc10Sleep .mp 5,
  .tc10Sleep .mp 10,
  .tc10SleepAck 5,
  .tc10SleepAck 10,
  .tc10SleepreqTimeout 5,
  .tc10SleepreqTimeout 10,
  .tc10PartnerSleep 5,
  .tc10PartnerSleep 10,
  .tc10Wake .mp 5,
  .tc10Wake .mp 10,
  .tc10WakeDetect 5 0,
  .tc10WakeDetect 10 0,
  .tc10WakeDetect 6 (2 ^ 64),
  .ethTstx0Pop .mp 12,
  .ethSapnlWrite .mp 6 false 0 0] : List Instr).all (fun i => !i.wf) = true := by decide

/-- Each operand one beyond its range is refused. -/
theorem test_ill_formed_3 : ([
  .ethSapnlWrite .mp 0 false 4 0,
  .ethSapnhWrite .mp 6 false 0 0,
  .ethSapnhWrite .mp 0 false 4 0,
  .mdioComplete (2 ^ 16),
  .tamperDetect 8,
  .graceExpiry (2 ^ 16),
  .random (.host badTxn),
  .macgen (.host badTxn),
  .macver (.host badTxn),
  .gcmenc (.host badTxn),
  .gcmdec (.host badTxn),
  .ctrenc (.host badTxn),
  .wrap (.host badTxn),
  .unwrap (.host badTxn),
  .genkey (.host badTxn),
  .erase (.host badTxn),
  .cancel (.host badTxn),
  .confirm (.host badTxn),
  .kdf (.host badTxn),
  .sign (.host badTxn),
  .verify (.host badTxn),
  .agree (.host badTxn),
  .mkaderive (.host badTxn),
  .pkload (.host badTxn),
  .hash (.host badTxn),
  .selftest (.host badTxn),
  .shaBlockEnd 2,
  .laneRetire false 6,
  .fcanFrameToField 8,
  .touchReading 4] : List Instr).all (fun i => !i.wf) = true := by decide

/-- Each operand one beyond its range is refused. -/
theorem test_ill_formed_4 : ([
  .touchStuck 4,
  .touchWakeScan 4 0 0,
  .touchWakeScan 0 0 (2 ^ 64),
  .tdmFrame 4 [],
  .tdmFsEdge 4 0 0,
  .tdmFsEdge 0 (2 ^ 64) 0,
  .tdmTdmbst0Pop .mp 4,
  .tdmEnableWrite .mp 4 0,
  .bptCscommit .mp 2,
  .bptUcommit .mp 2,
  .bprBlockEnd 2,
  .aafTalkerPdu 8,
  .aafListenerTake 8,
  .aafUnderrun 8,
  .audRgainWrite .mp 256 0,
  .dacctlWrite .mp 2 0,
  .outputPrechargeEnd 3,
  .outputRampdownEnd 3,
  .outputDischargeEnd 3,
  .outputFault 3 false,
  .detectLineOut .mp 2,
  .bandWindowClose 8,
  .islandCheckFail (2 ^ 16) false,
  .extestExit 32,
  .tapDmi 0 4 0,
  .tapDmi 0 0 (2 ^ 32),
  .tapBypass 32,
  .tamperConditionEnd 8,
  .canRxError 32 0 false false false 0,
  .canRxError 0 7 false false false 0] : List Instr).all (fun i => !i.wf) = true := by decide

/-- Each operand one beyond its range is refused. -/
theorem test_ill_formed_5 : ([
  .bptFrame 2,
  .bprFrameRx 2 0 false false 0 0,
  .bprFrameRx 0 (2 ^ 64) false false 0 0,
  .bprFrameRx 0 0 false false (2 ^ 28) 0,
  .bprFrameRx 0 0 false false 0 (2 ^ 28),
  .micBiasSample 4 0,
  .faultCauseCleared 3 false] : List Instr).all (fun i => !i.wf) = true := by decide

/-- Operands at the ends of their ranges are taken. -/
theorem test_well_formed_0 : ([
  .wakeEvent (16 - 1) (2 ^ 64 - 1),
  .badop (16 - 1) okTxn,
  .registerWrite .mp (2 ^ 24 - 1) 0,
  .gatewayClassify (256 - 1),
  .headRelease (256 - 1),
  .egressSchedule (256 - 1),
  .modelDeparture (256 - 1),
  .holdLimitPurge (256 - 1),
  .ledgerDivergence (256 - 1),
  .gateIntervalEnd (12 - 1),
  .fabGbaselWrite .mp (12 - 1) 0,
  .fabGbasehWrite .mp (12 - 1) 0,
  .virtualPortConsume 255,
  .containerPeriodicEmit 255,
  .canCtlInitWrite .mp (32 - 1) 0,
  .canBusIntegrate (32 - 1),
  .canRecover .mp (32 - 1),
  .busOffRecoveryEnd (32 - 1),
  .canTxAttempt (32 - 1) (128 - 1),
  .canTxComplete (32 - 1),
  .canTxAttemptFail (32 - 1) (7 - 1) false false false 0,
  .canTxabort .mp (32 - 1) 0,
  .canTransmitStall (32 - 1),
  .canRxFrame (32 - 1) (2 ^ 64 - 1) [],
  .listenerWakeFrame (8 - 1) (2 ^ 64 - 1) false (2 ^ 29 - 1) (16 - 1) (List.replicate 8 0),
  .listenerFrameError (8 - 1),
  .listenerFecOverflow (8 - 1) (2 ^ 64 - 1),
  .linSlotStart (8 - 1),
  .linHeaderRx (8 - 1) (256 - 1) false,
  .linResponseRx (8 - 1) (2 ^ 64 - 1) (256 - 1) (256 - 1) (List.replicate 8 0) false,
  .linNoResponse (8 - 1),
  .linSchedWrite .mp (8 - 1) 0,
  .linSleep .mp (8 - 1),
  .linWake .mp (8 - 1),
  .linWakePulse (8 - 1),
  .linIdleSleep (8 - 1),
  .linScheduleResume (8 - 1),
  .linBusFault (8 - 1),
  .linBusFaultEnd (8 - 1),
  .ethRxFrame (12 - 1) (2 ^ 64 - 1) [] false] : List Instr).all (fun i => i.wf) = true := by decide

/-- Operands at the ends of their ranges are taken. -/
theorem test_well_formed_1 : ([
  .ethLinkChange (12 - 1) false (8 - 1) false,
  .ethCollision 11,
  .ethPlcaWrite .mp 11 false 0,
  .tc10Sleep .mp 9,
  .tc10SleepAck 9,
  .tc10SleepreqTimeout 9,
  .tc10PartnerSleep 9,
  .tc10Wake .mp 9,
  .tc10WakeDetect 9 (2 ^ 64 - 1),
  .ethTstx0Pop .mp (12 - 1),
  .ethSapnlWrite .mp (6 - 1) false (4 - 1) 0,
  .ethSapnhWrite .mp (6 - 1) false (4 - 1) 0,
  .mdioComplete (2 ^ 16 - 1),
  .tamperDetect (8 - 1),
  .graceExpiry (2 ^ 16 - 1),
  .random (.host okTxn),
  .macgen (.host okTxn),
  .macver (.host okTxn),
  .gcmenc (.host okTxn),
  .gcmdec (.host okTxn),
  .ctrenc (.host okTxn),
  .wrap (.host okTxn),
  .unwrap (.host okTxn),
  .genkey (.host okTxn),
  .erase (.host okTxn),
  .cancel (.host okTxn),
  .confirm (.host okTxn),
  .kdf (.host okTxn),
  .sign (.host okTxn),
  .verify (.host okTxn),
  .agree (.host okTxn),
  .mkaderive (.host okTxn),
  .pkload (.host okTxn),
  .hash (.host okTxn),
  .selftest (.host okTxn),
  .shaBlockEnd (2 - 1),
  .laneRetire false (6 - 1),
  .fcanFrameToField (8 - 1),
  .touchReading (4 - 1),
  .touchStuck (4 - 1)] : List Instr).all (fun i => i.wf) = true := by decide

/-- Operands at the ends of their ranges are taken. -/
theorem test_well_formed_2 : ([
  .touchWakeScan (4 - 1) 0 (2 ^ 64 - 1),
  .tdmFrame (4 - 1) [],
  .tdmFsEdge (4 - 1) (2 ^ 64 - 1) 0,
  .tdmTdmbst0Pop .mp (4 - 1),
  .tdmEnableWrite .mp (4 - 1) 0,
  .bptCscommit .mp (2 - 1),
  .bptUcommit .mp (2 - 1),
  .bprBlockEnd (2 - 1),
  .aafTalkerPdu (8 - 1),
  .aafListenerTake (8 - 1),
  .aafUnderrun (8 - 1),
  .audRgainWrite .mp (256 - 1) 0,
  .dacctlWrite .mp (2 - 1) 0,
  .outputPrechargeEnd (3 - 1),
  .outputRampdownEnd (3 - 1),
  .outputDischargeEnd (3 - 1),
  .outputFault (3 - 1) false,
  .detectLineOut .mp (2 - 1),
  .bandWindowClose (8 - 1),
  .islandCheckFail (2 ^ 16 - 1) false,
  .extestExit (32 - 1),
  .tapDmi 0 (4 - 1) (2 ^ 32 - 1),
  .tapBypass (32 - 1),
  .tamperConditionEnd (8 - 1),
  .canRxError (32 - 1) (7 - 1) false false false 0,
  .bptFrame (2 - 1),
  .bprFrameRx (2 - 1) (2 ^ 64 - 1) false false (2 ^ 28 - 1) (2 ^ 28 - 1),
  .micBiasSample (4 - 1) 0,
  .faultCauseCleared (3 - 1) false] : List Instr).all (fun i => i.wf) = true := by decide

/-- A debug token is as long as the DBGTOKEN register (Table DBG-1). -/
theorem test_token_length (t : List Byte) : (Instr.tapDbgtoken t).wf = decide (t.length = 256) := rfl

/-! ## Small states -/

/-- Full permissions for HOST_SPI, the MP and the FS, and for messages on the repair block. -/
def grants : List Bytes :=
  [1, 2, 8].flatMap (fun o =>
    [0, 1, 2, 3, 4, 5, 6, 7, 9, 0x0F, 0x10, 0x20, 0x21, 0x40, 0x42, 0x44, 0x50, 0x58, 0x60, 0x80, 0x81, 0x82, 0x83].map
      (fun b => [byte o, byte b, 2, 0])) ++ [[9, 6, 2, 0]]

/-- An image in force with those permissions and the sections given. -/
def imageWith (l : List Sect) : Option Image := some ⟨0, 1, 2, 1, 0, 0, [], ⟨0x0A, 0, 0, 4, 0, 0, 0, 0, grants⟩ :: l⟩

/-- A device in RUN with the field die in FRUN, the link up and the windows of the MP and the FS open. -/
def live : State := { State.reset with
  sys.mode := .run, sys.holdLine := false, sys.safeOut := .low, h.tahr.link := true, h.tahr.svc := true, f.state := .frun, f.matrix := grants, h.img.image := imageWith []
  h.port.windows := [(2, 32)], f.windows := [(2, 32), (8, 32)] }

/-- A device in STANDBY with its wake arbiter recording. -/
def asleep : State := { State.reset with sys.mode := .standby, sys.wake.recording := true, sys.wake.armed := true }

/-- A device with VSUP_H gone, in KEEP. -/
def kept : State := { State.reset with sys.mode := .keep, sys.vsupH := false, sys.safeOut := .hiZ, time.running := false, keeper.lost := false, keeper.ctr := 3 }

/-- A transaction of the host port with the CRC and the clocks it needs (R204). -/
def hostTx (op seq arg addr : Nat) (pay : List Word) : Txn :=
  let t : Txn := ⟨seq, arg, pay.length, addr, pay, 0, 32 * (pay.length + 3)⟩
  { t with crc := BitVec.ofNat 32 (crcWord (txnWords op t)) }

/-! ## Hypotheses met -/

/-- The hypotheses of StepRunsFrontCommand: a queue may be empty. -/
theorem test_hyp_StepRunsFrontCommand : State.reset.pending = [] := rfl

/-- The hypotheses of EveryStepKeepsInvariant and HoldLineAssertedOutsideRun: an invariant state, a command in front, and a next state outside RUN. -/
theorem test_hyp_EveryStepKeepsInvariant :
    State.inv { live with pending := [.pinReset] } ∧ ∃ t, step { live with pending := [.pinReset] } = .next t ∧ t.sys.mode ≠ .run ∧ t.sys.mode ≠ .degraded := by
  refine ⟨by unfold State.inv pinsShow; decide, _, rfl, by decide, by decide⟩

/-- A reset in RUN asserts the hold line at once (R55). -/
theorem test_hyp_HoldLineAssertedOutsideRun : ∃ t, step { live with pending := [.pinReset] } = .next t ∧ t.sys.inReset ≠ none ∧ t.sys.holdLine = true := by
  exact ⟨_, rfl, by decide, by decide⟩

/-- The hypotheses of FusesMoveOneWay: a step in which a fuse is blown. -/
theorem test_hyp_FusesMoveOneWay : ∃ t, step { live with pending := [.otpFuseProgrammed false], h.img.floorPend := true, h.arb.held := [⟨7, 0, 0, 0⟩] } = .next t ∧ t.otp.floor = 1 :=
  ⟨_, rfl, by decide⟩

/-- The hypotheses of FlashAndFusesHaveOneWriter. -/
theorem test_hyp_FlashAndFusesHaveOneWriter : (∃ t, exec .bufferPressure State.reset = .next t) ∧ (∀ ok, Instr.bufferPressure ≠ .flashOpComplete ok) ∧
    ∀ r, Instr.bufferPressure ≠ .otpFuseProgrammed r := ⟨⟨_, rfl⟩, by simp, by simp⟩

/-- The hypotheses of OnlyTickAndResetEndMoveTime. -/
theorem test_hyp_OnlyTickAndResetEndMoveTime : (∃ t, exec .bufferPressure State.reset = .next t) ∧ Instr.bufferPressure ≠ .resetEnd ∧
    ∀ codes, Instr.bufferPressure ≠ .tickCommit codes := ⟨⟨_, rfl⟩, by simp, by simp⟩

/-- The hypotheses of PermitStartsOnlyAtItsInstant: the pins toggle after a command that is no start of them. -/
theorem test_hyp_PermitStartsOnlyAtItsInstant : ∃ t, exec .bufferPressure { live with f.permit := true } = .next t ∧ Instr.bufferPressure ≠ .permitGrantStart ∧ t.f.permit = true :=
  ⟨_, rfl, by simp, rfl⟩

/-- The hypothesis of RootStateTransitions: the loss of the keeper's supply leads from TAMPERED to KEEPER_LOST (Table KEY-2). -/
theorem test_hyp_RootStateTransitions : ∃ t, exec .keeperLoss { kept with keeper.rootState := 1 } = .next t ∧ t.keeper.rootState = 2 := ⟨_, rfl, by decide⟩

/-- The hypothesis of FlashProgramAndErase, with the first and the last byte of a programmed run and the byte beyond it. -/
theorem test_hyp_FlashProgramAndErase : Flash.wf State.reset.flash = true ∧ (State.reset.flash.program 5 [0x12, 0x34]).get 5 = 0x12 ∧
    (State.reset.flash.program 5 [0x12, 0x34]).get 6 = 0x34 ∧ (State.reset.flash.program 5 [0x12, 0x34]).get 7 = 0xFF := by decide

/-- The hypotheses of HostResetSourcesReset. -/
theorem test_hyp_HostResetSourcesReset : (live.sys.inReset = none ∧ live.sys.mode ≠ .keep ∧ live.sys.mode ≠ .noSupply) ∧ whole 10 (hostTx 10 9 0xA5 0 []) live ∧
    kept.sys.inReset = none ∧ kept.sys.vsupH = false := by unfold whole; decide +kernel

/-- The hypotheses of ResetEndStartsSyscnt, with the keeper counter kept and with it lost. -/
theorem test_hyp_ResetEndStartsSyscnt : ({ live with sys.inReset := some 2, keeper.lost := false, keeper.ctr := 4 } : State).sys.inReset = some 2 ∧
    (∃ t, exec .resetEnd { live with sys.inReset := some 2, keeper.lost := false, keeper.ctr := 4 } = .next t ∧ t.time.now = 5 * 32768) ∧
    ∃ t, exec .resetEnd { live with sys.inReset := some 2, keeper.lost := true } = .next t ∧ t.time.now = 0 ∧ t.sys.rstCause = 0x42 :=
  ⟨rfl, ⟨_, rfl, by decide⟩, _, rfl, by decide, by decide⟩

/-- The hypotheses of SuppliesMoveTheMode. -/
theorem test_hyp_SuppliesMoveTheMode : live.sys.vsupH = true ∧ kept.sys.vsupH = false ∧
    (({ kept with sys.mode := .noSupply } : State).sys.vsupH = false ∧ ({ kept with sys.mode := .noSupply } : State).sys.mode = .noSupply) ∧
    (kept.time.running = false ∧ kept.sys.mode ≠ .noSupply ∧ kept.keeper.lost = false) := by decide

/-- The hypotheses of FieldResetsTakeEffect. -/
theorem test_hyp_FieldResetsTakeEffect : ({ live with f.state := .off } : State).f.state = .off ∧ live.f.state ≠ .off ∧ ({ live with f.state := .inReset } : State).f.state = .inReset := by decide

/-- The hypothesis of BuildStartTriesFirstSlot: it holds right after reset, where the erased flash gives no slot to try. -/
theorem test_hyp_BuildStartTriesFirstSlot : buildIdle State.reset = true ∧ slotOrder State.reset = [] := by decide

/-- The hypotheses of FailedSlotEndsOrGoesOn: a slot tried in an erased flash fails its header check, and BUILD stands at its limit. -/
theorem test_hyp_FailedSlotEndsOrGoesOn : (let s : State := { State.reset with h.img.trying := some 0, h.img.rest := [1] };
      s.sys.mode = .build ∧ s.h.img.trying = some 0 ∧ s.h.img.committed = false ∧ slotCode s 0 s.h.img.fieldCode ≠ 0) ∧
    (let s : State := { State.reset with h.img.trying := some 0, time.now := 500000000 };
      s.sys.mode = .build ∧ s.h.img.trying = some 0 ∧ s.sys.buildAt + 500000000 ≤ s.time.now) := by decide

/-- The hypotheses of BuildCommitsAndRunBegins, with the field die absent 5 ms after the BUILD start (R75). -/
theorem test_hyp_BuildCommitsAndRunBegins :
    (let s : State := { State.reset with f.state := .off, time.now := 5000000, h.img.trying := some 0 };
      s.sys.mode = .build ∧ s.h.img.trying = some 0 ∧ s.h.img.committed = false ∧ (s.h.img.fieldOk = (fieldEntries (slotImage s 0)).length ∨ fieldAbsent s = true)) ∧
    (let s : State := { State.reset with f.state := .off, time.now := 5000000, h.img.committed := true, h.img.image := imageWith [] };
      s.sys.mode = .build ∧ s.sys.inReset = none ∧ s.h.dbg.extest = false ∧ s.h.img.committed = true ∧ (∃ im, s.h.img.image = some im) ∧ (fmode s = 3 ∨ fieldAbsent s = true)) :=
  ⟨⟨rfl, rfl, rfl, .inr (by decide)⟩, rfl, rfl, rfl, rfl, ⟨_, rfl⟩, .inr (by decide)⟩

/-- The hypotheses of FusesBlowWithLeave. -/
theorem test_hyp_FusesBlowWithLeave : (∃ im, live.h.img.image = some im) ∧ holdsLeave { live with h.arb.held := [⟨7, 0, 0, 0⟩] } false 7 0 = true ∧
    (let s : State := { live with h.arb.held := [⟨7, 1, 0, 0⟩] };
      holdsLeave s false 7 1 = true ∧ s.h.keys.rootMsg = none) ∧
    (let s : State := { live with h.arb.held := [⟨7, 1, 0, 0⟩], h.keys.rootMsg := some [0] };
      holdsLeave s false 7 1 = true ∧ s.h.keys.rootMsg = some [0]) := ⟨⟨_, rfl⟩, by decide, by decide, by decide⟩

/-- The hypotheses of SleepEntersStandby, for a write of the MP and for the host's SLEEP. -/
theorem test_hyp_SleepEntersStandby : passes live .mp 0x14 1 ∧ live.sys.mode.live = true ∧ whole 9 (hostTx 9 3 0 0 []) live ∧
    passes (received (hostTx 9 3 0 0 []) { live with h.port.windows := [(1, 32)] }) .hostSpi 0x14 1 := by unfold passes whole; decide +kernel

/-- The hypotheses of StandbyDrainCompletes. -/
theorem test_hyp_StandbyDrainCompletes : (let s : State := { asleep with sys.entering := true };
    s.sys.mode = .standby ∧ s.sys.entering = true ∧ (s.h.fab.queues = [] ∨ s.sys.drainAt ≤ s.time.now) ∧ s.h.fab.queues = []) := by decide

/-- The hypotheses of WakeArbiterDecides. -/
theorem test_hyp_WakeArbiterDecides :
    (asleep.sys.wake.recording = true ∧ wakeEnabled { asleep with regs := [(0x24, 2)] } 2 = true ∧ 2 ≤ 31) ∧
    (let s : State := { asleep with sys.wake.cands := [(4, 80), (2, 81)], time.now := 96 };
      s.sys.mode = .standby ∧ s.sys.entering = false ∧ s.sys.wake.decided = false ∧ s.sys.wake.recording = true ∧ s.sys.wake.cands = [(4, 80), (2, 81)] ∧
      (∃ x ∈ [((4 : Nat), (80 : Stamp)), (2, 81)], tickOf x.2 + 2 ≤ sysTick s) ∧ ([((2 : Nat), (81 : Stamp))].foldl earlier (4, 80)).1 = 2) ∧
    (let s : State := { live with sys.wake.pulse := some 7, time.now := 8 };
      s.sys.wake.pulse = some 7 ∧ 7 ≤ s.time.now) ∧
    (whole 8 (hostTx 8 1 0 0 []) asleep ∧ asleep.sys.wake.decided = false ∧ asleep.sys.wake.cands = []) ∧
    (whole 8 (hostTx 8 1 0 0 []) live ∧ live.sys.mode.live = true ∧ live.sys.wake.recording = false) := by unfold whole; decide +kernel

/-- The hypotheses of TickCommits. -/
theorem test_hyp_TickCommits : live.time.running = true ∧ kept.time.running = false := by decide

/-- The hypotheses of TimebaseAndDegcauseTakeEffect. -/
theorem test_hyp_TimebaseAndDegcauseTakeEffect : passes live .mp 0x30008 5 ∧ passes live .mp 0x3000C 5 ∧ passes live .mp 0x30010 7 ∧ busMaster .mp = true ∧ Origin.mp ≠ .fs ∧
    RegFile.wf live.regs = true ∧ passes live .mp 0x1C 1 := by unfold passes; decide

/-- The hypotheses of DiscardedTransactionChangesNothing: a RESET with a wrong CRC word, and a RESUME cut short. -/
theorem test_hyp_DiscardedTransactionChangesNothing :
    (txnOf (.reset { hostTx 10 9 0xA5 0 [] with crc := 0 }) = some (10, { hostTx 10 9 0xA5 0 [] with crc := 0 }) ∧ portAlive live = true ∧
      discardCode 10 { hostTx 10 9 0xA5 0 [] with crc := 0 } = some 3) ∧
    discardCode 8 { hostTx 8 1 0 0 [] with clocks := 31 } = some 1 ∧ discardCode 8 { hostTx 8 1 0 0 [] with clocks := 64 } = some 2 ∧
    RegFile.wf live.regs = true := by decide +kernel

/-- The hypotheses of HostWritesAllOrNone: writes of two registers of the host die, and of one across the link. -/
theorem test_hyp_HostWritesAllOrNone :
    (let x := hostTx 1 4 0 0x24 [1, 2];
      whole 1 x live ∧ hostModeStatus live .hostSpi = none ∧ (∀ w ∈ txnWrites 1 x, (regAt w.1).isSome = true ∧ isRemote w.1 = false) ∧ txnWrites 1 x ≠ []) ∧
    (let x := hostTx 2 4 0 0 [0x8003FC, 1];
      whole 2 x live ∧ (∀ w ∈ txnWrites 2 x, (regAt w.1).isSome = true ∧ isRemote w.1 = true) ∧ txnWrites 2 x ≠ [] ∧ (txnWrites 2 x).length ≤ 64 ∧
      live.h.port.deferred = none ∧ ∃ u, checkRemoteWrites .hostSpi (txnWrites 2 x) (received x live) = .ok u) := by
  unfold whole
  exact ⟨by decide +kernel, by decide +kernel, by decide +kernel, by decide +kernel, by decide +kernel, by decide +kernel, _, rfl⟩

/-- A frame in a queue of port 70, for a RECV. -/
def queued (q : Nat) (b : Bytes) : State := { live with h.fab.queues := [(q, [⟨1, 0, 66, 0, q, false, 0, b, 0, 4, 0⟩])] }

/-- The hypotheses of HostOperationsTakeEffect. -/
theorem test_hyp_HostOperationsTakeEffect :
    whole 0 (hostTx 0 1 0 0 []) live ∧ whole 4 (hostTx 4 1 0 0 [0, 0]) live ∧
    (whole 3 (hostTx 3 1 1 0x24 []) live ∧ live.h.port.deferred = none ∧ readRefused live (readAddrs (hostTx 3 1 1 0x24 [])) = false ∧ isRemote 0x24 = false) ∧
    (whole 3 (hostTx 3 1 0 0x800004 []) live ∧ readRefused live (readAddrs (hostTx 3 1 0 0x800004 [])) = false ∧ isRemote 0x800004 = true) ∧
    (whole 5 (hostTx 5 1 0 0 [4, 0x11223344]) live ∧ msgRefused live = false) ∧ whole 6 (hostTx 6 1 0 0 []) live ∧
    (discardCode 11 (hostTx 11 1 0 0 []) = none ∧ fieldsOk 11 (hostTx 11 1 0 0 []) = false ∧ portAlive live = true) := by unfold whole; decide +kernel

/-- The hypotheses of WindowsHoldsAndPlainRegisters. -/
theorem test_hyp_WindowsHoldsAndPlainRegisters : passes live .mp 0x40 0x7C3E1D52 ∧ passes live .mp 0x40 0 ∧ passes live .mp 0x40040 0x24 ∧ passes live .mp 0x40048 0 ∧
    passes live .mp 0x24 3 ∧ plain 0x24 = true ∧ permLevel live .mp (blockOf 0x40040) = 2 := by unfold passes; decide

/-- A state with a register at a value. -/
def withReg (a v : Nat) (s : State) : State := { s with regs := RegFile.set s.regs a (BitVec.ofNat 32 v) }

/-- A device in RUN with live tables: classes (instance 3), LIN responses (4), containers (5), tunnels (6) and LIN schedules (7). -/
def tables : State := { live with
  h.img.image := imageWith [⟨4, 3, 0, 40, 4, 0x10, 1, 0xFFFF, []⟩, ⟨4, 4, 0, 16, 4, 0x21, 1, 0xFFFF, []⟩, ⟨4, 5, 0, 48, 4, 0x17, 1, 0xFFFF, []⟩,
    ⟨4, 6, 0, 32, 4, 0x18, 1, 0xFFFF, []⟩, ⟨4, 7, 0, 16, 4, 0x20, 1, 0xFFFF, []⟩]
  h.img.live := [(liveKey 4 0, [0, 0x10, 2, 2, 0, 0, 0, 0, 0, 0, 0, 0, 0, 0, 0, 0]), (liveKey 5 0, [80, 0, 0, 0, 1, 0, 0, 0] ++ List.replicate 40 0),
    (liveKey 6 0, [80, 0, 1, 0, 1, 0] ++ List.replicate 26 0)]
  regs := [(0x30024, 0x5000), (0x2210000, 0x10003)] }

/-- The hypotheses of FlashOperationsStartAndEnd, with a command that may start and one that may not. -/
theorem test_hyp_FlashOperationsStartAndEnd : passes live .mp 0x60 1 ∧ passes live .mp 0x60 2 ∧ passes live .mp 0x60 3 ∧ passes live .mp 0x60 4 ∧
    flashMayStart live 1 ∧ ¬ flashMayStart (withReg 0x64 8 live) 1 ∧ ({ live with h.port.flash := some (1, 0) } : State).h.port.flash = some (1, 0) ∧
    live.h.port.flash = none ∧ RegFile.wf live.regs = true := by unfold passes flashMayStart; decide

/-- The hypotheses of LiveTableOperationsTakeEffect, for record 1 of a class table and with a list staged. -/
theorem test_hyp_LiveTableOperationsTakeEffect : ∀ op ∈ [1, 2, 3, 4, 5, 6, 7], passes { tables with h.gtw.staging := [(2, [⟨3, 0, none⟩])] } .mp 0x210004 op := by
  unfold passes; decide

/-- A journal of one entry that waits to be sent. -/
def journalled : State := { live with h.jrn := { live.h.jrn with lastSeq := 1, entries := [⟨0, 1, 1, 1, 1, 0, [], List.replicate 8 7, true, true, 0⟩] } }

/-- The hypotheses of JournalMessagesTakeEffect: a message due, an acknowledgement without and with REWIND, and one of the wrong length. -/
theorem test_hyp_JournalMessagesTakeEffect : jDrainDue journalled = true ∧
    (let b : Bytes := [0x4A, 0x41, 0, 0, 1, 0, 0, 0] ++ List.replicate 8 7;
      (takeHead { journalled with h.fab.queues := [(66 * 16, [⟨1, 0, 66, 0, 66 * 16, false, 0, b, 0, 4, 0⟩])] } 66).isSome = true ∧ jAckOk journalled b = true ∧ bit (fieldLE b 2 1) 0 = false) ∧
    (let b : Bytes := [0x4A, 0x41, 1, 0, 1, 0, 0, 0] ++ List.replicate 8 7;
      jAckOk journalled b = true ∧ bit (fieldLE b 2 1) 0 = true) ∧ jAckOk journalled (List.replicate 15 0) = false := by decide

/-- The hypotheses of FramesMoveOn. -/
theorem test_hyp_FramesMoveOn :
    (readyEvent { live with h.fab.ingress := [⟨3, 0, 0, 0, 0, 3, [], false, 0⟩] } 3).isSome = true ∧
    (KMap.get? live.h.fab.txing 11 = none ∧ (scheduled (queued (16 * 11) [1, 2]) 11).isSome = true) ∧
    ((freeSlot (canOf live 23)).isSome = true ∧ (scheduled (queued (16 * 39) [1, 2]) 39).isSome = true) ∧
    ((freeSlot (canOf live 31)).isSome = true ∧ nth ({ live with f.inbox := setNth live.f.inbox 7 [[1]] } : State).f.inbox 7 [] = [[1]]) ∧
    (scheduled (queued (16 * 55) [1, 2]) 55).isSome = true ∧ ∀ e ∈ [64, 67, 68], (takeHead (queued (16 * e) [1, 2]) e).isSome = true := by decide

/-- The hypotheses of FabricControlTakesEffect, at the last port with gates. -/
theorem test_hyp_FabricControlTakesEffect : wasStopped { live with h.fab.stopped0 := [5] } 5 = true ∧ wasStopped live 5 = false ∧
    (KMap.get? ({ live with h.fab.gate := [(11, 0, 0, 0)] } : State).h.fab.gate 11 = some (0, 0, 0) ∧ tickOf 0 ≤ curTick live) ∧
    passes live .mp 0x10C000 3 ∧ passes live .mp (0x100098 + 11 * 0x1000) 5 ∧ passes live .mp (0x10009C + 11 * 0x1000) 5 := by unfold passes; decide

/-- The hypotheses of VirtualPortsActByRole. -/
theorem test_hyp_VirtualPortsActByRole : (∃ f, nextInput (queued (16 * 80) [1]) 80 = some f ∧ ∀ b ∈ portBoundaries (queued (16 * 80) [1]) 80, tickOf f.pres < tickOf b.2) ∧
    (let s : State := { tables with h.gtw.boundary := [(0, 0)] };
      portBoundaries s 80 = [(0, 0)] ∧ 0 ≤ s.time.now ∧ oldestInput s 80 = none ∧ oldestUnreleased s 80 = none) ∧
    (let s : State := { tables with h.gtw.tunnels := [(0, ⟨[], 1, 0, 0, none⟩)], time.now := 1000 };
      (∃ r, liveRec s 0x18 0 = some r ∧ (tunnelOf s 0).first + fieldLE r 4 2 * 1000 ≤ s.time.now) ∧ (tunnelOf s 0).count ≠ 0) :=
  ⟨⟨_, rfl, by decide⟩, by decide, ⟨_, rfl, by decide⟩, by decide⟩

/-- The hypotheses of CanControlTakesEffect, at the first and the last controller of each die. -/
theorem test_hyp_CanControlTakesEffect : (∀ n ∈ [0, 23], passes live .mp (0x400000 + n * 0x1000) 1 ∧ passes live .mp (0x400000 + n * 0x1000) 0 ∧
      passes live .mp (0x400000 + n * 0x1000) (reg live (canReg n 0) % 2 + 2) ∧ passes live .mp (0x400020 + n * 0x1000) 255) ∧
    (∀ n ∈ [24, 31], passesFs live (0x400000 + n * 0x1000) 1 ∧ passesFs live (0x400000 + n * 0x1000) (reg live (canReg n 0) % 2 + 2) ∧ passesFs live (0x400020 + n * 0x1000) 255) ∧
    ((canOf { live with h.can := [{ Can.reset with state := 1 }] } 0).state = 1 ∧ (canOf { live with h.can := [{ Can.reset with state := 1 }] } 0).tec ≤ 255) ∧
    (canOf { live with h.can := [{ Can.reset with state := 5 }] } 0).state = 5 ∧ (live.f.state = .frun ∧ minintOver live true 8 8 = true) := by unfold passes passesFs; decide

/-- A controller on the bus with a frame to send. -/
def canBus : State := { live with h.can := [{ Can.reset with state := 2, slots := some ⟨[1, 0, 0, 0, 0, 0, 0, 0], 0, 0, 0, 0, false, false⟩ :: List.replicate 7 none }] }

/-- The hypotheses of CanFramesAndErrors. -/
theorem test_hyp_CanFramesAndErrors :
    (canActive (canOf canBus 0) = true ∧ canRestricted (canOf canBus 0) = false ∧ attemptSlot (canOf canBus 0) = none ∧ offerSlot (canOf canBus 0) = some 0 ∧
      ∃ x, nth (canOf canBus 0).slots 0 none = some x) ∧
    attemptSlot { Can.reset with slots := [none, some ⟨[], 0, 0, 0, 0, true, false⟩] } = some 1 ∧ stallDue canBus 0 = true ∧
    (canBodyOk [1, 0, 0, 0, 0, 0, 0, 0] = true ∧ bit (canIdw [1, 0, 0, 0, 0, 0, 0, 0]) 31 = false ∧ isLate canBus 0 = false) ∧
    isLate { canBus with time.now := 16 } 7 = true ∧ isLate { canBus with time.now := 16 } 8 = true ∧ isLate { canBus with time.now := 16 } 16 = false :=
  ⟨⟨by decide, by decide, by decide, by decide, _, rfl⟩, by decide⟩

/-- The hypotheses of WakeListenersListen. -/
theorem test_hyp_WakeListenersListen : (listenerOf { live with h.listeners := [⟨true, 32, false⟩] } 0).armed = true ∧
    (listenerOf { live with h.listeners := [⟨true, 32, false⟩] } 0).fec = 32 ∧ (listenerOf { live with h.listeners := [⟨true, 32, false⟩] } 0).fecOvf = false ∧
    (listenerOf live 0).armed = false := by decide

/-- A LIN controller as master, and one that sleeps. -/
def linS (m : Bool) (l : Lin) : State := withReg (linReg 0 4) (if m then 1 else 0) { tables with h.lin := l :: List.replicate 7 Lin.reset }

/-- The hypotheses of LinScheduleSleepAndFault. -/
theorem test_hyp_LinScheduleSleepAndFault :
    (linMaster (linS true Lin.reset) 0 = true ∧ (linOf (linS true Lin.reset) 0).state = 0 ∧ (linOf (linS true Lin.reset) 0).resume = none ∧ (linOf (linS true Lin.reset) 0).sleepPend = false) ∧
    (linOf (linS true { Lin.reset with sleepPend := true }) 0).sleepPend = true ∧
    (∀ c ∈ [0, 7], passes live .mp (linReg c 0) 15 ∧ passes live .mp (linReg c 0) (reg live (linReg c 0) % 16 + 0x100) ∧ passes live .mp (linReg c 0) (reg live (linReg c 0) % 16 + 0x200)) ∧
    (linOf (linS true { Lin.reset with state := 1 }) 0).state = 1 ∧ (linOf (linS true { Lin.reset with resume := some 0 }) 0).resume = some 0 ∧
    (linMaster (linS false Lin.reset) 0 = false ∧ (linOf (linS false Lin.reset) 0).state = 0) ∧ (linOf (linS true { Lin.reset with state := 2 }) 0).state = 2 := by unfold passes; decide

/-- The hypotheses of LinFramesTakeEffect: a subscribed response of two bytes with its checksum, one with another, and one that stays away. -/
theorem test_hyp_LinFramesTakeEffect : linMaster (linS false Lin.reset) 0 = false ∧
    (respRec (linS false Lin.reset) 0 (0x50 % 64) = some [0, 0x10, 2, 2, 0, 0, 0, 0, 0, 0, 0, 0, 0, 0, 0, 0] ∧ linCksum 0 0x50 [1, 2] = 0xFC) ∧
    (let s := withReg (linReg 0 4) 0x4B000000 { linS true { Lin.reset with header := some (0x10, 0, 0) } with time.now := 10000000 };
      (linOf s 0).header = some (0x10, 0, 0) ∧ (respRec s 0 0x10).isSome = true ∧ linOverdue s 0 2 = true) := by decide

/-- The hypotheses of EthernetPortsTakeEvents. -/
theorem test_hyp_EthernetPortsTakeEvents : (let s := withReg (ethReg 11 0) (1518 * 65536) { live with time.now := 16 };
      hostOn s = true ∧ isLate s 16 = false ∧ isLate s 0 = true ∧ (60 : Nat) ≤ (List.replicate 60 (0 : Byte)).length ∧
      (List.replicate 60 (0 : Byte)).length + 4 ≤ fieldOf s (ethReg 11 0) 16 14 ∧ fieldBE (List.replicate 60 0) 12 2 ≠ 0x8808) ∧
    (KMap.get? ({ live with h.fab.txing := [(10, ⟨1, 0, 66, 0, 160, false, 0, [], 0, 4, 0⟩)] } : State).h.fab.txing 10).isSome = true ∧
    (∀ b ∈ [true, false], passes live .mp (ethReg 10 (if b then 0x10 else 0x0C)) 0x10108) := by unfold passes; decide

/-- The hypotheses of Tc10MovesThePort. -/
theorem test_hyp_Tc10MovesThePort : (∀ p ∈ [6, 9], t1Port p = true ∧ passes live .mp (ethReg p 8) (reg live (ethReg p 8) % 16 / 4 * 4 + 1) ∧
      passes live .mp (ethReg p 8) (reg live (ethReg p 8) % 16 / 4 * 4 + 2)) ∧ (ethOf live 6).t1 = 0 ∧ (ethOf (setT1 6 1 live) 6).t1 = 1 ∧ (ethOf (setT1 6 2 live) 6).t1 = 2 ∧
    live.sys.wake.recording = false ∧ live.sys.mode ≠ .standby ∧ asleep.sys.wake.recording = true ∧ asleep.sys.mode = .standby := by unfold passes; decide

/-- The hypotheses of MdioFramesAndPacketNumbers, at the first and the last association of each direction. -/
theorem test_hyp_MdioFramesAndPacketNumbers : (∀ op ∈ [0, 1, 2, 3], passes live .mp 0x44F000 (putBits 0x1234 11 2 op)) ∧
    ({ live with h.eth.mdio := some 0x1000 } : State).h.eth.mdio = some 0x1000 ∧
    (passes live .mp (saBase 0 false 3 + 4) 5 ∧ passes live .mp (saBase 5 true 15 + 4) 5 ∧ passes live .mp (saBase 0 false 3 + 8) 5 ∧ passes live .mp (saBase 5 true 15 + 8) 5) := by unfold passes; decide

/-- The hypotheses of TamperErasesEveryKey, for each source that can be watched. -/
theorem test_hyp_TamperErasesEveryKey : live.sys.mode ≠ .noSupply ∧ ∀ src ∈ [1, 2, 3], tampWatched { live with keeper.tampArm := 3 } src = true := by decide

/-- A message of TYPE and OPC at the head of port 65. -/
def update (typ opc : Nat) : State := queued (16 * 65) (le 2 typ ++ List.replicate 30 0 ++ [byte opc] ++ List.replicate 7 0)

/-- The hypotheses of UpdatesManagementAndGrace. -/
theorem test_hyp_UpdatesManagementAndGrace :
    (∀ opc ∈ [1, 2, 3, 4], (update 0x0E11 opc).h.keys.rootMsg = none ∧ ∃ f u, takeHead (update 0x0E11 opc) 65 = some (f, u) ∧ 16 ≤ f.bytes.length ∧
      fieldLE f.bytes 0 2 = 0x0E11 ∧ fieldLE f.bytes 0x20 1 = opc) ∧
    ({ live with h.keys.rootMsg := some [] } : State).h.keys.rootMsg = some [] ∧
    (∃ f u, takeHead (update 0x0E01 0) 65 = some (f, u) ∧ 16 ≤ f.bytes.length ∧ fieldLE f.bytes 0 2 = 0x0E01) ∧
    ((roleOf { live with h.keys.roles := [(1, { roleOf live 1 with grace := some ([], 3) })] } 1).grace = some ([], 3) ∧ (roleOf live 1).grace = none) := by
  refine ⟨fun opc h => ?_, rfl, ⟨_, _, rfl, by decide, by decide⟩, by decide⟩
  simp only [List.mem_cons, List.not_mem_nil, or_false] at h
  rcases h with rfl | rfl | rfl | rfl
  all_goals exact ⟨rfl, _, _, rfl, by decide, by decide, by decide⟩

/-- A service request of SVC 1 at the head of port 65, and the same as a transaction. -/
def request (typ svc : Nat) : Bytes := le 2 typ ++ [byte svc] ++ List.replicate 13 0

/-- The hypotheses of ServicesAreTakenByBothPaths: RANDOM by both paths, a code that differs, a body too short and a type of no class. -/
theorem test_hyp_ServicesAreTakenByBothPaths :
    ((serviceOf (.random .fabric)).map (fun x => (x.1, x.2.1)) = some (1, .fabric) ∧
      ∃ f u, takeHead (queued (16 * 65) (request 0x0E21 1)) 65 = some (f, u) ∧ 16 ≤ f.bytes.length ∧ fieldLE f.bytes 0 2 = 0x0E21 ∧ fieldLE f.bytes 2 1 = 1) ∧
    (let x := hostTx 7 3 1 0 [0x00010E21, 0, 0, 0];
      let s := withReg 0x90008 2 live;
      whole 7 x s ∧ fieldLE (wordBytes x.payload) 2 1 = 1 ∧ x.len = ceilDiv (16 + fieldLE (wordBytes x.payload) 12 2 + fieldLE (wordBytes x.payload) 14 2) 4 ∧
      fieldLE (wordBytes x.payload) 0 2 = 0x0E21 ∧ s.h.port.deferred = none ∧ columnNow (received x s) ≠ .standby ∧ columnNow (received x s) ≠ .build ∧
      svcAllowed (received x s) 1 = true ∧ svcAllowed (received x live) 1 = false) ∧
    (hostTx 7 3 2 0 []).arg ≠ 1 ∧ (∃ f u, takeHead (queued (16 * 65) [1]) 65 = some (f, u) ∧ f.bytes.length < 16) ∧
    (∃ f u, takeHead (queued (16 * 65) (request 0x0E31 1)) 65 = some (f, u) ∧ fieldLE f.bytes 0 2 ≠ 0x0E21 ∧ fieldLE f.bytes 0 2 ≠ 0x0E01 ∧ fieldLE f.bytes 0 2 ≠ 0x0E11) := by
  unfold whole
  exact ⟨⟨rfl, _, _, rfl, by decide +kernel, by decide +kernel, by decide +kernel⟩, by decide +kernel, by decide +kernel, ⟨_, _, rfl, by decide +kernel⟩, _, _, rfl, by decide +kernel, by decide +kernel, by decide +kernel⟩

/-- A job of the SP. -/
def job (engine leave work blocks : Nat) (ctx : Option Nat) : SpJob := ⟨5, 0, 0, 65, 0, 1, 0, 0, [], [], engine, leave, ctx, blocks, 0, 0, work⟩

/-- A device whose SP holds one job. -/
def spS (j : SpJob) : State := { live with h.sp := { live.h.sp with jobs := [j], shaRun0 := some 7, shaRun1 := some 15 } }

/-- The hypotheses of SpEnginesDoTheirWork. -/
theorem test_hyp_SpEnginesDoTheirWork :
    (jobOf (spS (job 0 0 0 0 none)) 5 = some (job 0 0 0 0 none)) ∧ jobOf (spS (job 1 0 0 0 (some 0))) 5 = some (job 1 0 0 0 (some 0)) ∧
    (jobOf (spS (job 3 2 0 9 (some 15))) 5 = some (job 3 2 0 9 (some 15)) ∧ shaRun (spS (job 3 2 0 9 (some 15))) 1 = some 15 ∧
      (spS (job 3 2 0 9 (some 15))).h.sp.jobs.filter (fun x => x.engine == 3 && x.ctx == some 15) = [job 3 2 0 9 (some 15)]) ∧
    live.h.sp.health = true ∧ live.h.sp.gens < 65536 ∧ 65536 ≤ ({ live with h.sp.gens := 65536 } : State).h.sp.gens := by decide

/-- A Tahr frame of TYPE and SEQ with the CRC it needs (R604). -/
def tahrFrame (typ seq : Nat) : Bytes := let b := [byte typ, byte seq] ++ List.replicate 14 0; b ++ le 4 (crc32c b)

/-- An end of the link that has trained. -/
def endUp : LinkEnd := { LinkEnd.reset with train := false }

/-- Both ends trained, with messages in their inboxes. -/
def linked (h f : List XMsg) : State := { live with h.tahr.fe := { endUp with inbox := h }, f.fe := { endUp with inbox := f } }

/-- The hypotheses of TahrFramesTrainingAndHeartbeats: a sound frame in sequence, one 1 and one 32 ahead, an unsound one; training, silence and heartbeats. -/
theorem test_hyp_TahrFramesTrainingAndHeartbeats :
    (dieOn live true = true ∧ dieOn live false = true ∧ frameOk [] true = false ∧ frameOk (tahrFrame 1 0) true = true ∧ frameOk (tahrFrame 1 0) false = false) ∧
    (fieldLE (tahrFrame 1 0) 0 1 % 64 ≠ 0 ∧ (takeHeader true (tahrFrame 1 0) live).f.fe.rxNext = fieldLE (tahrFrame 1 0) 1 1) ∧
    (frameOk (tahrFrame 1 32) true = true ∧ (fieldLE (tahrFrame 1 32) 1 1 + 256 - (takeHeader true (tahrFrame 1 32) live).f.fe.rxNext) % 256 = 32) ∧
    (dieOn { live with f.state := .off } true = false) ∧ (∃ g, g ∈ ({ live with f.fe.unacked := [⟨1, 0, 0, 0, true, true, [], 3⟩] } : State).f.fe.unacked ∧ 3 ≤ g.sends) ∧
    Nat.testBit live.f.fe.retired 5 = false ∧ live.h.tahr.fe.train = true ∧ activeLanes live.h.tahr.fe ≠ 0 ∧
    ((linked [] []).f.fe.train = false ∧ ({ linked [] [] with time.now := 1000000 } : State).f.fe.lastTx + 128 ≤ fnow { linked [] [] with time.now := 1000000 }) ∧
    ((endOf (linked [] []) true).train = false ∧ (endOf (linked [] []) false).train = false) ∧
    ((takeInbox true (fun m => m.typ == 1) (linked [] [⟨1, 0, 0, [], 0⟩])).isSome = true ∧ (takeInbox false (fun m => m.typ == 1) (linked [⟨1, 0, 0, [], 0⟩] [])).isSome = true) ∧
    (({ live with time.now := 1000000 } : State).h.tahr.fe.lastHb + 1000000 ≤ ({ live with time.now := 1000000 } : State).time.now ∧ live.h.tahr.link = true) :=
  ⟨by decide +kernel, by decide +kernel, by decide +kernel, by decide +kernel, ⟨_, List.mem_singleton.2 rfl, by decide +kernel⟩, by decide +kernel⟩

/-- A message of TYPE with a payload, come to the field die. -/
def toField (typ origin : Nat) (p : Bytes) : State := linked [] [⟨typ, origin, 0, p, 0⟩]

/-- A message of TYPE with a payload, come to the host die. -/
def toHost (typ : Nat) (p : Bytes) : State := linked [⟨typ, 0, 0, p, 0⟩] []

/-- The entry of a section of 2 bytes with the hash of them, for an image transfer. -/
def entryFor (d : Bytes) : Bytes := [0, 0, 0, 1, 0, 0, 0, 0] ++ le 4 d.length ++ [0, 0, 0, 0] ++ padTo 32 (Config.sha256 d)

/-- The hypotheses of CrossingRequestsTakeEffect. -/
theorem test_hyp_CrossingRequestsTakeEffect :
    (dieOn (linked [] []) false = true ∧ (linked [] []).h.tahr.fe.train = false) ∧
    ((takeInbox true (fun m => m.typ == 2 && fieldLE m.payload 0 1 == 1) (toField 2 0 [1, 0])).isSome = true ∧
      (takeInbox false (fun m => m.typ == 2 && fieldLE m.payload 0 1 == 2) (toHost 2 [2, 0])).isSome = true) ∧
    (∃ m u, takeInbox true (fun m => m.typ == 3 && fieldLE m.payload 0 1 == 1) (toField 3 2 ([1, 1, 0, 0, 0, 0, 0, 0] ++ le 4 0x800004 ++ le 4 1)) = some (m, u) ∧
      remoteEntries m = [(0x800004, 1)] ∧ m.origin ≠ 4) ∧
    (takeInbox true (fun m => m.typ == 3 && fieldLE m.payload 0 1 == 2) (toField 3 2 [2, 0])).isSome = true ∧
    ((takeInbox true (fun m => m.typ == 6 && fieldLE m.payload 0 1 == 1) (toField 6 0 [1])).isSome = true ∧ (toField 6 0 [1]).f.hold = true) ∧
    (∃ m u, takeInbox true (fun m => m.typ == 6 && fieldLE m.payload 0 1 == 2) { toField 6 0 ([2, 0, 0, 0] ++ List.replicate 7 0 ++ [1] ++ List.replicate 44 0) with f.state := .fbuild } = some (m, u) ∧
      u.f.state = .fbuild ∧ m.payload.length = 56 ∧ fieldLE m.payload 11 1 = 1 ∧ fieldLE m.payload 16 4 ≤ 0x1000000) ∧
    (∃ m u, takeInbox true (fun m => m.typ == 6 && fieldLE m.payload 0 1 == 3)
        { toField 6 0 ([3, 0, 0, 0, 0, 0, 0, 0] ++ [7, 8]) with f.state := .fbuild, f.entries := [(0, entryFor [7, 8])], f.data := [(0, [])] } = some (m, u) ∧
      u.f.state = .fbuild ∧ (u.f.entries.find? (fun x => x.1 == fieldLE m.payload 2 2)).isSome = true ∧ (u.f.data.find? (fun x => x.1 == fieldLE m.payload 2 2)).isSome = true ∧
      fieldLE m.payload 4 4 = 0 ∧ m.payload.length - 8 = 2) ∧
    (takeInbox true (fun m => m.typ == 6 && fieldLE m.payload 0 1 == 4) (toField 6 0 [4])).isSome = true ∧
    (takeInbox true (fun m => m.typ == 6 && fieldLE m.payload 0 1 == 5) (toField 6 0 [5])).isSome = true ∧
    (takeInbox false (fun m => m.typ == 6) (toHost 6 [0])).isSome = true :=
  ⟨by decide, by decide, ⟨_, _, rfl, by decide, by decide⟩, by decide, by decide, ⟨_, _, rfl, rfl, by decide, by decide, by decide⟩,
    ⟨_, _, rfl, rfl, rfl, rfl, by decide, by decide⟩, by decide, by decide, by decide⟩

/-- An image transfer whose one section of two bytes is whole and has the hash its entry holds, whatever that hash is. -/
theorem test_hyp_CrossingRequestsTakeEffect_commit :
    fieldVerified { live with f.state := .fbuild, f.data := [(0, [7, 8])],
                              f.entries := [(0, le 4 0 ++ le 4 0 ++ le 4 2 ++ le 4 0 ++ padTo 32 (Config.sha256 [7, 8]))] } = true := by
  have l : (padTo 32 (Config.sha256 [7, 8])).length = 32 := by simp only [padTo, slice, List.length_append, List.length_replicate, List.drop_zero]; rw [List.length_take]; omega
  have h1 : ∀ h : Bytes, h.length = 32 → slice (le 4 0 ++ le 4 0 ++ le 4 2 ++ le 4 0 ++ h) 16 32 = h := by
    intro h l
    unfold slice
    dsimp only
    rw [show List.drop 16 (le 4 0 ++ le 4 0 ++ le 4 2 ++ le 4 0 ++ h) = h from rfl, List.take_of_length_le (by omega), l]
    exact List.append_nil h
  show ((2 == 2 && padTo 32 (Config.sha256 [7, 8]) == slice (le 4 0 ++ le 4 0 ++ le 4 2 ++ le 4 0 ++ padTo 32 (Config.sha256 [7, 8])) 16 32) && true) = true
  rw [h1 _ l]
  simp

/-- The hypotheses of CrossingMessagesAreSentAndTaken. -/
theorem test_hyp_CrossingMessagesAreSentAndTaken :
    (takeInbox false (fun m => m.typ == 4 && dueMsg (toHost 4 [0]) false m) (toHost 4 [0])).isSome = true ∧
    ((takeInbox false (fun m => m.typ == 9 && dueMsg (toHost 9 (List.replicate 20 0)) false m) (toHost 9 (List.replicate 20 0))).isSome = true ∧ fieldLE (List.replicate 20 0) 8 4 < 0xFFFF0000) ∧
    (({ live with f.flt.reports := [[1]] } : State).f.flt.reports = [[1]] ∧ minintOver { live with f.flt.reports := [[1]] } true 4 0 = true) ∧
    (({ live with f.meas.queue := [(0, [])] } : State).f.meas.queue = [(0, [])] ∧ 0 ≤ tickOf (fnow live) ∧ live.f.meas.lastSend = none) ∧
    (let s : State := { queued (16 * 47) [1] with h.tahr.credits := List.replicate 8 1 };
      nth s.h.tahr.credits 7 0 ≠ 0 ∧ minintOver s false 8 7 = true ∧ (scheduled s 47).isSome = true) ∧ nth live.h.tahr.credits 0 0 = 0 ∧
    (takeHead (queued (16 * 69) [0x10, 0x0F, 0, 0]) 69).isSome = true ∧ passesFs live 0x820020 (forced 0 24 1 1) ∧
    ({ live with f.fifo := [⟨16, 0, 0, [], 0⟩] } : State).f.fifo = [⟨16, 0, 0, [], 0⟩] ∧ live.f.fifo = [] ∧
    (let s : State := { live with f.state := .fbuild, f.digest := [1], f.newDigest := [1], f.aligned := true };
      s.f.state = .fbuild ∧ s.f.digest ≠ [] ∧ s.f.digest = s.f.newDigest ∧ s.f.aligned = true) ∧
    (let s : State := { linked [] [] with f.state := .alone, f.aligned := true };
      s.f.state = .alone ∧ s.f.digest = s.f.newDigest ∧ s.f.aligned = true ∧ s.f.fe.train = false ∧ fnow s < s.f.fe.lastHb + 1000000) := by unfold passesFs; decide

/-- The hypotheses of PermissionFollowsItsConditions, at the end of the rising instant and at the watchdog's deadline. -/
theorem test_hyp_PermissionFollowsItsConditions :
    (takeInbox true (fun m => m.typ == 5 && dueMsg (toField 5 0 [0]) true m) (toField 5 0 [0])).isSome = true ∧ passes live .mp 0x600004 1 ∧ dieOn live true = true ∧
    live.sys.holdLine = false ∧ fnow { live with time.now := 7 } % 10000 < 8 ∧
    (permitMet (withReg 0x820004 1 { live with f.hold := false, f.hostGrant := true }) = true ∧ ({ live with f.granted := true } : State).f.granted = true) ∧
    passesFs live 0x820004 1 ∧ passesFs live 0x82000C 0xA5C3 ∧ passesFs live 0x82000C 0 ∧
    (({ live with f.wdog := some 5, time.now := 5 } : State).f.wdog = some 5 ∧ 5 ≤ fnow { live with f.wdog := some 5, time.now := 5 }) ∧ live.f.wdog = none ∧ RegFile.wf live.regs = true := by unfold passes passesFs; decide

/-- The hypotheses of OnlyTheFsWritesPermit: a WRITE of the host port to FSUP.PERMIT. -/
theorem test_hyp_OnlyTheFsWritesPermit : Origin.hostSpi ≠ .fs ∧ hostModeStatus live .hostSpi = none ∧ whole 1 (hostTx 1 2 0 0x820004 [1]) live ∧
    txnWrites 1 (hostTx 1 2 0 0x820004 [1]) = [(0x820004, 1)] ∧ live.h.port.deferred = none := by unfold whole; decide +kernel

/-- A running channel that takes L samples for an output and closes its window after WIN outputs. -/
def chan (l outs win : Nat) : MChan := ⟨true, 0, 0, 1, l, MFilt.reset, MFilt.reset, MFilt.reset, 0, 0, outs, 0, 0, 0, 0, 0, 0, 0, 0, 0, 0, 0, 0, 0, win⟩

/-- A measurement graph of one channel without a pair in each cluster. -/
def graph : State := { live with
  h.img.image := imageWith [⟨6, 1, 0, 16, 0, 0, 0, 0, [[0, 0, 0xFF] ++ List.replicate 13 0]⟩], f.sects := [⟨6, 0, 1, 16, 0, 0, 0, 0, [[0, 0, 0xFF] ++ List.replicate 13 0]⟩]
  h.meas.chans := [(0, chan 2 0 1)], f.meas.chans := [(0, chan 2 1 1)] }

/-- The hypotheses of MeasurementChannelsAndCalibration. -/
theorem test_hyp_MeasurementChannelsAndCalibration :
    ((graphRec graph true 0).isSome = true ∧ (graphRec graph false 0).isSome = true ∧ KMap.get? graph.h.meas.chans 0 = some (chan 2 0 1) ∧ (chan 2 0 1).run = true ∧
      ([1, -1] : List Int).length = (chan 2 0 1).l ∧ (chan 2 0 1).outs < (chan 2 0 1).win) ∧
    (KMap.get? (measOf graph false).chans 0 = some (chan 2 1 1) ∧ (chan 2 1 1).win ≤ (chan 2 1 1).outs ∧ (chan 2 1 1).outs ≠ 0) ∧
    (∀ ch ∈ [0, 15], passes live .mp (chctlReg true ch) 1 ∧ passes live .mp (chwinReg true ch) 64) ∧
    (∀ ch ∈ [0, 127], passesFs live (chctlReg false ch) 1 ∧ passesFs live (chwinReg false ch) 64 ∧ passesRemote live .mp (chctlReg false ch) 1 ∧ passesRemote live .mp (chwinReg false ch) 64) ∧
    passesFs live 0x800010 7 ∧ passesRemote live .mp 0x800010 7 ∧ ({ live with f.meas.cal := some ⟨0, 2⟩ } : State).f.meas.cal = some ⟨0, 2⟩ ∧
    (let s : State := { live with f.meas.cal := some ⟨0, 3⟩, f.rep.islands := [(0x2100, ⟨0, 0, 0⟩), (0x2103, ⟨1, 0xFF, 0⟩)] };
      reserveOf s 0x21 = some 0x2103 ∧ servingIsland s 0x2100 = some 0x2100) ∧
    (({ live with f.rep.islands := [(0x2100, ⟨6, 0xFF, 0⟩)] } : State).f.rep.islands.find? (fun e => e.1 / 256 == 0x21 && e.2.role == 6)).isSome = true := by
  unfold passes passesFs passesRemote; decide

/-- The hypotheses of HostSenseAndTouch, with a press that has been held too long and one reading short of it. -/
theorem test_hyp_HostSenseAndTouch : passes live .mp 0x580004 1 ∧
    (({ live with h.meas.cal := some ⟨0, 1⟩ } : State).h.meas.cal = some ⟨0, 1⟩ ∧ live.h.meas.calAgain = []) ∧
    (nth ({ live with h.touch := [{ Touch.reset with reading := some (5, 0) }] } : State).h.touch 0 Touch.reset).reading = some (5, 0) ∧
    (touchRule (withReg 0x580300 10 (withReg 0x580304 0x02000211 live)) 0 { Touch.reset with first := false, st := 2 } 1000000 1000000000000).2 = 3 ∧
    (touchRule (withReg 0x580300 10 (withReg 0x580304 0x02000211 live)) 0 { Touch.reset with first := false, st := 3 } 5 0).2 = 0 ∧
    (let s := withReg 0x580304 0x80 (withReg 0x24 0x4000 asleep);
      3 < s.h.touch.length ∧ s.sys.mode = .standby ∧ bit (reg s 0x24) 14 = true ∧ bit (reg s (0x580304 + 0x10 * 0)) 7 = true ∧ (nth s.h.touch 0 Touch.reset).scanOk = false ∧
      (nth s.h.touch 0 Touch.reset).st ≠ 1 ∧ (-1000000 : Int) < (nth s.h.touch 0 Touch.reset).base + touchWake s 0) := by unfold passes; decide

/-- A master TDM port that runs, and a receiver that is about to lock and one about to end its block. -/
def ports : State := withReg 0x500000 2 { live with
  h.aud := { live.h.aud with
    tdm := { APort.reset with run := true } :: List.replicate 3 APort.reset
    bpt := [{ APort.reset with run := true }, APort.reset]
    bpr := [{ APort.reset with run := true, lastEdge := some 0, good := 192 }, { APort.reset with lock := true, whole := true, good := 192 }] } }

/-- A TDM port set for two slots of 16 bits in frames of 64 bit clocks at 48 kHz. -/
def tdmSet (n : Nat) : State := withReg (portBase n + 4) 2 (withReg (portBase n + 8) 64 (withReg (portBase n + 0xC) 48000 live))

/-- The hypotheses of AudioPortsKeepTheirFrames. -/
theorem test_hyp_AudioPortsKeepTheirFrames :
    ((portOf ports 0).run = true ∧ (portMaster ports 0 = true ∨ portMaster live 0 = false)) ∧
    (let s : State := { live with h.aud.tdm := [{ APort.reset with run := true, lastEdge := some 0 }] };
      (portOf s 0).run = true ∧ isLate s 0 = false ∧ (portOf s 0).lastEdge = some 0 ∧ (portOf s 0).good = 0 ∧ (portOf s 0).lock = false ∧ Nat.testBit (reg s (portBase 0)) 3 = false) ∧
    (∀ n ∈ [0, 3], passes (tdmSet n) .mp (0x500000 + 0x100 * n) 3) ∧
    (∀ x ∈ [0, 1], passes live .mp (0x500400 + 0x100 * x) (reg live (0x500400 + 0x100 * x) % 8 + 8) ∧ passes live .mp (0x500400 + 0x100 * x) (reg live (0x500400 + 0x100 * x) % 8 + 16)) ∧
    ((portOf ports 4).run = true ∧ tickOf (frameAt ports 4 (portOf ports 4).frame) ≤ curTick ports) ∧
    ((portOf ports 7).lock = true ∧ (portOf ports 7).whole = true ∧ (portOf ports 7).good = 192 ∧ 1 < ports.h.aud.bpr.length) ∧
    ((portOf ports 6).run = true ∧ (portOf ports 6).lock = false ∧ (portOf ports 6).stopReq = false ∧ (portOf ports 6).lastEdge.isSome = true ∧ (portOf ports 6).good = 192) := by
  unfold passes; decide

/-- The hypotheses of AafEndpointsAndCoefficients. -/
theorem test_hyp_AafEndpointsAndCoefficients :
    (let s : State := { live with h.aud.ep := [{ AEp.reset with talk := true, gather := [(0, [])] }] };
      (epOf s 0).talk = true ∧ max 1 (fmtSpp (epFmt s 0)) ≤ (epOf s 0).gather.length) ∧ (epOf live 0).talk = false ∧
    (∀ e ∈ [0, 7], (takeHead (queued (16 * (56 + e)) [1]) (56 + e)).isSome = true) ∧
    (let s := withReg (epReg 0 0) 2 { live with h.aud.ep := [{ AEp.reset with shown := [(0, [])], silent := false }], time.now := 2000000000 };
      (epOf s 0).shown = [(0, [])] ∧ (epOf s 0).silent = false ∧ Nat.testBit (reg s (epReg 0 0)) 1 = true ∧ 0 * fmtRate (epFmt s 0) + 2000000000 ≤ s.time.now * fmtRate (epFmt s 0)) ∧
    (∀ r ∈ [0, 255], passes live .mp (0x502000 + 4 * r) 0x1000) ∧ (∀ k ∈ [0, 127, 0x1000, 0x107F], passes live .mp (bqReg k + 0x14) 1) := by unfold passes; decide

/-- The hypotheses of AudioNodesFollowTheirSequences. -/
theorem test_hyp_AudioNodesFollowTheirSequences :
    passes live .mp 0x500E40 1 ∧ passes live .mp 0x500E00 1 ∧ passes live .mp 0x500E10 0 ∧
    (∀ k ∈ [2, 4, 5, 6], (outOf { live with h.aud.dac := [{ AOut.reset with st := k }, { AOut.reset with st := k }], h.aud.gi := 256 } 2).st = k) ∧
    (live.h.aud.cal = none ∧ live.h.aud.limCnt = 0) ∧ (({ live with h.aud.limCnt := 48, h.aud.gi := 48 } : State).h.aud.limCnt ≠ 0 ∧ 48 % 48 = 0) ∧
    KMap.get? ({ live with h.aud.inAt := [(0, 0)] } : State).h.aud.inAt 0 = some 0 ∧
    (let s := withReg 0x500D30 0x100 { live with h.aud.mic := [(0, 0), (0, 0), (0, 0), (5, 2)] };
      Nat.testBit (reg s (0x500D00 + 0x10 * 3)) 8 = true ∧ s.h.aud.mic.length = 4 ∧ nth s.h.aud.mic 3 (0, 0) = (5, 2)) ∧
    (passes live .mp 0x500F00 1 ∧ passes live .mp 0x500F00 2 ∧ passes live .mp 0x500F00 4) ∧ KMap.get? ({ live with h.aud.detBusy := [(2, 0)] } : State).h.aud.detBusy 2 = some 0 ∧
    ({ live with h.aud.bands := [⟨true, 0, 0, 4, 4, [], 0, 0⟩] } : State).h.aud.bands[0]? = some ⟨true, 0, 0, 4, 4, [], 0, 0⟩ ∧ passes live .mp 0x500F40 6 ∧
    ({ live with h.aud.cal := some ⟨0, false, 2, 0⟩ } : State).h.aud.cal = some ⟨0, false, 2, 0⟩ := by unfold passes; decide

/-- The hypotheses of FaultEventsAreTaken: sources of both dies, rows with an error before and without, and islands that serve and that do not. -/
theorem test_hyp_FaultEventsAreTaken :
    (passes live .mp 0x50040 0x5B ∧ passes live .mp 0x50000 1 ∧ passesFs live 0x810040 0x111 ∧ passesFs live 0x810000 1 ∧ passesRemote live .mp 0x810040 0x111 ∧ passesRemote live .mp 0x810000 1) ∧
    KMap.get? ({ live with h.rep.rowErr := [(511, 0)] } : State).h.rep.rowErr (0 * 512 + 511) = some 0 ∧
    (({ live with h.rep.rowPend := [(0, 3)] } : State).h.rep.rowPend = [(0, 3)] ∧ 8 ≤ KMap.getD ({ live with h.rep.rowsUsed := [(0, 8)] } : State).h.rep.rowsUsed 0 0) ∧
    ((islandOf { live with h.rep.islands := [(0x0700, ⟨0, 0, 0⟩)] } 0x0700).role = 0 ∧ replays 7 = true ∧ (islandOf { live with h.rep.islands := [(0x0500, ⟨0, 0, 0⟩)] } 0x0500).role = 0 ∧
      replays 5 = false) ∧ ((islandOf live 0x0500).role ≠ 0 ∧ (islandOf live 0x0500).role ≠ 5) := by unfold passes passesFs passesRemote; decide

/-- A device whose CAN duties have a spare island, at the end of a shed interval. -/
def shed (v : Option Visit) : State := withReg 0x60004 0x00010011 { live with
  h.rep.islands := [(0x0500, ⟨0, 0, 0⟩), (0x0518, ⟨1, 0xFF, 0⟩)], h.rep.visit := v, h.can := [{ Can.reset with state := 2 }], time.now := 1000000 }

/-- The hypotheses of VisitsAndReturnsRunTheirSteps. -/
theorem test_hyp_VisitsAndReturnsRunTheirSteps :
    (bit (reg (shed none) 0x60004) 0 = true ∧ (shed none).sys.mode.live = true ∧ (repOf (shed none) 0).visit = none ∧
      (repOf (shed none) 0).lastEnd + fieldOf (shed none) 0x60004 4 12 * 1000000 ≤ dieNow (shed none) false ∧ nextVisit (shed none) false = some 0x0500 ∧ fieldKind 5 = false) ∧
    (∀ k ∈ [2, 3, 4, 5, 6], (repOf (shed (some ⟨5, 0, k, 0x0518, 0, 0⟩)) 0).visit = some ⟨5, 0, k, 0x0518, 0, 0⟩) ∧
    (handoverPoint (shed none) 0x0500 = true ∧ servingIsland (shed none) 0x0500 = some 0x0500 ∧ noShadow 0x0D = true ∧ noShadow 5 = false) ∧
    (0 + msTicks (fieldOf (shed none) 0x60004 16 8) ≤ tickOf (dieNow (shed none) false)) ∧
    (passes live .mp 0x60008 (forced 0x0005 16 1 1) ∧ passes { live with h.rep.islands := [(0x0518, ⟨3, 0xFF, 0⟩)] } .mp 0x6000C (forced 0x1805 16 1 1)) ∧
    passes live .updateMsg 0x60044 3 ∧
    (repOf { live with h.rep.ret := some ⟨5, 0, 6, 0, 0x0518, 0⟩ } 0).ret = some ⟨5, 0, 6, 0, 0x0518, 0⟩ := by unfold passes; decide

/-- The hypotheses of BudgetArbitersGrantAndRefuse: a request that fits, one that does not, one past its time. -/
theorem test_hyp_BudgetArbitersGrantAndRefuse :
    (arbiterOn live false = true ∧ arbiterOn live true = true ∧ live.h.arb.q = []) ∧
    (let s : State := { live with h.arb.q := [⟨7, 0, 0, 0⟩], time.now := 16 };
      sortBy (budKey s false) ((arbOf s false).q.filter (fun x => decide (tickOf x.stamp ≤ budTick s false))) = [⟨7, 0, 0, 0⟩] ∧
      inUse (arbOf s false) + budCost s false 7 ≤ budLimit s false ∧ budLimit s false < inUse { arbOf s false with held := [⟨0, 0, 0, 1⟩] } ∧
      (arbOf s false).q.find? (budExpired s false (budTick s false)) = some ⟨7, 0, 0, 0⟩) := by decide

/-- A device with a debug session that grants everything. -/
def session : State := { live with h.dbg.open_ := true, h.dbg.grant := 31, h.dbg.until_ := 100, h.dbg.mpRun := true, f.fsRun := true, h.img.image := imageWith [],
                                   h.port.windows := [(4, 1)], f.windows := [(4, 1)] }

/-- The hypotheses of TapInstructionsLoadTheirRegisters. -/
theorem test_hyp_TapInstructionsLoadTheirRegisters :
    (session.h.dbg.open_ = true ∧ Nat.testBit session.h.dbg.grant 4 = true) ∧ ¬ (live.h.dbg.open_ = true ∧ Nat.testBit live.h.dbg.grant 4 = true) ∧
    (31 % 32 ≠ 0 ∧ ({ session with h.dbg.extest := true } : State).h.dbg.extest = true ∧ session.sys.inReset = none ∧ session.sys.mode ≠ .keep ∧ session.sys.mode ≠ .noSupply) ∧
    session.h.dbg.ir ≠ 0 ∧ dbgBusy session = false ∧ dbgBusy State.reset = true ∧ live.h.dbg.open_ = false ∧ (0x1E ∉ [0x00, 0x01, 0x02, 0x10, 0x11, 0x12, 0x13] ∧ 0x1E < 32) ∧
    padTo 256 [] = List.replicate 256 0 ∧ padTo 256 [1] ≠ List.replicate 256 0 ∧ session.h.dbg.token = none ∧ session.h.dbg.blockEnd = none := by decide +kernel

/-- The hypotheses of SessionsGrantDebugAccess. -/
theorem test_hyp_SessionsGrantDebugAccess :
    (let s : State := { spS (job 0 0 1 0 none) with h.dbg.token := some [] };
      tokenJob s = some (job 0 0 1 0 none) ∧ s.h.dbg.token = some []) ∧ ({ live with h.dbg.blockEnd := some 0 } : State).h.dbg.blockEnd = some 0 ∧
    (({ session with time.now := 100 } : State).h.dbg.open_ = true ∧ ({ session with time.now := 100 } : State).h.dbg.until_ ≤ 100) ∧
    (sessionOpen session = true ∧ sessionOpen { session with time.now := 96 } = false ∧ hostModeStatus session .debug = none) ∧ sessionOpen live = false ∧ dbgBusy session = false ∧
    (Nat.testBit session.h.dbg.grant (b2n true) = true ∧ hartThere session true = true ∧ hartThere session false = true ∧ halted { session with h.dbg.haltFs := true } true = true ∧
      halted session false = false ∧ session.h.dbg.cmdMp = 0) ∧ Nat.testBit ({ session with h.dbg.grant := 1 } : State).h.dbg.grant (b2n true) = false ∧
    (Nat.testBit session.h.dbg.grant 2 = true ∧ Nat.testBit session.h.dbg.grant 3 = true ∧ (regAt 0x24).isSome = true ∧ isRemote 0x24 = false ∧ (regAt 0x820004).isSome = true ∧
      fsReaches 0x820004 = true ∧ session.h.tahr.link = true ∧ remoteBusy session .debug = false ∧ runGrant session false = true ∧ runGrant session true = true) ∧
    sbaFsStatus { session with h.img.image := some ⟨0, 1, 2, 1, 0, 0, [], [⟨0x0A, 0, 0, 4, 0, 0, 0, 0, [[4, 0x81, 2, 0], [4, 0x0F, 2, 0]]⟩]⟩, f.matrix := [[4, 0x81, 2, 0]] } 0x810000 1 = none ∧
    hostWriteStatus { session with h.img.image := some ⟨0, 1, 2, 1, 0, 0, [], [⟨0x0A, 0, 0, 4, 0, 0, 0, 0, [[4, 0xF0, 2, 0]]⟩]⟩ } .debug 0xF00004 1 0 = none := by decide

/-! ## Values of the spec's worked examples -/

/-- The CRC word of the READ of chapter 05's worked example. -/
theorem test_crc_word : (hostTx 3 0x21 0 0 []).crc = 0xCF3F0000 := by decide +kernel

/-- The status header after a discarded first attempt, and the one of the FETCH, in chapter 05's worked example (R202). -/
theorem test_status_header :
    statusHeader { live with h.port.prevSeq := 0x21, h.port.presult := 1, h.port.discnt := 1 } = 0x21011400 ∧
    statusHeader { live with h.port.prevSeq := 0x21, h.port.rdy := true } = 0x21000480 := by decide

/-- The response buffer of that example: SEQ, OK, READ, one word; the effect stamp; SYS.ID. -/
theorem test_read_sys_id :
    (match exec (.read (hostTx 3 0x21 0 0 [])) { live with time.now := 0x100000F80 } with
     | .next s => (match exec .deferredComplete s with | .next t => t.h.port.resp | _ => [])
     | _ => []) = [0x21003001, 0x00000F80, 0x00000001, 0x82560A01] := by decide +kernel

/-- The entry of chapter 06's worked example, bytes 0x00 to 0x17. -/
theorem test_journal_entry :
    jHead ⟨0x100000F80, 0x412, 1, 1, 0, 1, le 4 0x24 ++ le 4 9, [], true, false, 0⟩ =
      [0x80, 0x0F, 0, 0, 1, 0, 0, 0, 0x12, 4, 0, 0, 1, 1, 0, 1, 0x24, 0, 0, 0, 9, 0, 0, 0] := by decide

/-- The bit timing of chapter 10's worked example stands; a data rate beyond 8 Mbit/s does not. -/
theorem test_can_timing : canTimingOk 0x10101FC1 0x0014A741 = true ∧ canTimingOk 0x10101FC1 0x00000041 = false := by decide

/-- The second of wake events, and what SYS.WAKESRC shows, in chapter 02's worked example and its variant. -/
theorem test_wakesrc :
    (let s : State := { live with sys.wake.seen := 0x11, sys.wake.second := 0, sys.wake.primary := 4 };
      standing .mp 0x28 s = 0x00110004) ∧
    (let s : State := { live with sys.wake.seen := 0x11, sys.wake.second := 4, sys.wake.primary := 0 };
      standing .mp 0x28 s = 0x00110400) := by decide

/-- Block stamps of chapter 16's worked example: frames 16 and 32 of a 48 kHz master port. -/
theorem test_frame_lattice :
    frameAt (tdmSet 0) 0 16 - frameAt (tdmSet 0) 0 0 = 333333 ∧ frameAt (tdmSet 0) 0 32 - frameAt (tdmSet 0) 0 0 = 666666 := by decide

/-- The tick of event 4 in chapter 18's worked example. -/
theorem test_tick_of_event : curTick { live with time.now := 0x204C4B400 } = 0x40989680 := by decide

/-- The table gives its rows no bits, so no word spells a command. -/
theorem test_no_words (n w : Nat) : decodeTableWord n w = none := rfl

/-- A command placed in front of an empty queue is the one the next step runs. -/
theorem test_step_takes_front : step { State.reset with pending := [.bufferPressureEnd] } = exec .bufferPressureEnd State.reset := rfl

end Sys2Proof.Tests
end

section
/-! Fault sources, ECC events and island checks (O56): what a register write that sets off a fault or goes to the field die leaves, and what an ECC event and a failed check of an island do to the collectors and the repair controllers. -/

namespace Sys2Proof.Laws

open Sys2Proof Sys2Proof.Machine

/-! ## Writes -/

/-- A write of a field-die register by an origin of the host die that passes its checks goes over the link as one request (R617); only the writer's windows change beside it. -/
theorem masterWrite_wroteRemote (s : State) (o : Origin) (a v : Nat) (hp : passesRemote s o a v) (hv : v < 2 ^ 32) :
    wrote s (remoteSend o 2 [(a, v)] 0) (masterWrite o a v s) := by
  obtain ⟨hmaster, hfs, hremote, hmode, hchecks, hlink⟩ := hp
  obtain ⟨w1, w2, hw⟩ := windowAfter_shape s o a v s
  have hsent : (remoteWrites o [(a, v)] 0 s).1 = remoteSend o 2 [(a, v)] 0 (windowAfter s o a v s) := by
    simp [remoteWrites, hmode, checkRemoteWrites, hchecks, hlink]
  have hmw : masterWrite o a v s = closeHost o (remoteSend o 2 [(a, v)] 0 (windowAfter s o a v s)) := by
    have htoNat : (BitVec.ofNat 32 v).toNat = v := by rw [BitVec.toNat_ofNat, Nat.mod_eq_of_lt hv]
    rw [masterWrite, if_pos hmaster, busWrite, if_neg hfs, if_pos hremote, htoNat, hsent]
  obtain ⟨w1', w2', hc⟩ := closeHost_shape o (remoteSend o 2 [(a, v)] 0 (windowAfter s o a v s))
  refine ⟨windowAfter s o a v s, ?_, ?_⟩
  · rw [hw]
    exact ⟨rfl, fun _ _ _ => rfl, id⟩
  · rw [hmw, hc]

/-- A host-die register whose write stands in the register file and prepares nothing: where its checks pass, the write stores the value and sets off the register's effect on that state. -/
theorem masterWrite_stores (s : State) (o : Origin) (a v : Nat) (E : State → State) (hp : passes s o a v) (hv : v < 2 ^ 32)
    (hstore : storesElsewhere a = false) (hbefore : ∀ old u, beforeWrite a old v u = u)
    (heffect : ∀ old u, regEffect false o a old v u = E u) :
    wrote s (fun u => E (stored false o a v u)) (masterWrite o a v s) :=
  masterWrite_wrote s o a v _ hp hv fun d u hd => by rw [heffect, written_stored o d a v u hd hstore (hbefore _ u)]

/-- The same for a store of the FS on the field die. -/
theorem masterWrite_storesFs (s : State) (a v : Nat) (E : State → State) (hp : passesFs s a v) (hv : v < 2 ^ 32)
    (hstore : storesElsewhere a = false) (hbefore : ∀ old u, beforeWrite a old v u = u)
    (heffect : ∀ old u, regEffect true .fs a old v u = E u) :
    wroteFs a v (fun u => E (stored true .fs a v u)) s (masterWrite .fs a v s) :=
  masterWrite_wroteFs s a v _ hp hv fun d hd => by rw [heffect, written_stored .fs d a v s hd hstore (hbefore _ s)]

/-! ## The collectors and the repair controllers -/

theorem raise_host (src detail : Nat) (s : State) (h : src < 0x100) :
    raise src detail s = { s with h.flt.pend := s.h.flt.pend ++ [⟨curTick s, src, detail % 256, s.time.now, false⟩] } := if_pos h

theorem raise_field (src detail : Nat) (s : State) (h : ¬ src < 0x100) :
    raise src detail s = { s with f.flt.pend := s.f.flt.pend ++ [⟨tickOf (fnow s), src, detail % 256, fnow s, false⟩] } := if_neg h

@[simp] theorem repOf_raise (src detail k : Nat) (s : State) : repOf (raise src detail s) k = repOf s k := by
  obtain ⟨p1, p2, e⟩ := raise_shape src detail s
  rw [e]
  rfl

@[simp] theorem repOf_setRep (k : Nat) (r : Repair) (s : State) : repOf (setRep k r s) k = r := by
  unfold repOf setRep
  split <;> rfl

/-! ## ECC events (R811, R812) -/

/-- A second corrected error of a row within 1 s: the row's replacement is asked for. -/
theorem sramCorrected_again (arr row x : Nat) (s : State) (hx : KMap.get? s.h.rep.rowErr (arr * 512 + row) = some x)
    (hsoon : s.time.now < x + 1000000000) :
    sramCorrected false arr row s = { raise 0x0A2 0 s with
      h.rep.rowErr := KMap.del s.h.rep.rowErr (arr * 512 + row), h.rep.rowPend := s.h.rep.rowPend ++ [(arr, row)] } := by
  have hx' : KMap.get? (repOf (raise 0x0A2 0 s) 0).rowErr (arr * 512 + row) = some x := hx
  have hsoon' : dieNow (raise 0x0A2 0 s) false < x + 1000000000 := hsoon
  simp only [sramCorrected, Bool.false_eq_true, if_false, hx', if_pos hsoon']
  rfl

/-- A corrected error of a row without one within the last second: its time is noted. -/
theorem sramCorrected_first (arr row : Nat) (s : State)
    (hold : ∀ x, KMap.get? s.h.rep.rowErr (arr * 512 + row) = some x → x + 1000000000 ≤ s.time.now) :
    sramCorrected false arr row s = { raise 0x0A2 0 s with h.rep.rowErr := KMap.put s.h.rep.rowErr (arr * 512 + row) s.time.now } := by
  cases hx : KMap.get? s.h.rep.rowErr (arr * 512 + row) with
  | none =>
    have hx' : KMap.get? (repOf (raise 0x0A2 0 s) 0).rowErr (arr * 512 + row) = none := hx
    simp only [sramCorrected, Bool.false_eq_true, if_false, hx']
    rfl
  | some x =>
    have hx' : KMap.get? (repOf (raise 0x0A2 0 s) 0).rowErr (arr * 512 + row) = some x := hx
    have hlate : ¬ dieNow (raise 0x0A2 0 s) false < x + 1000000000 := Nat.not_lt.mpr (hold x hx)
    simp only [sramCorrected, Bool.false_eq_true, if_false, hx', if_neg hlate]
    rfl

/-- Every corrected error of the host die waits at its collector. -/
theorem sramCorrected_pend (arr row : Nat) (s : State) :
    (sramCorrected false arr row s).h.flt.pend = s.h.flt.pend ++ [⟨curTick s, 0x0A2, 0, s.time.now, false⟩] := by
  by_cases h : ∃ x, KMap.get? s.h.rep.rowErr (arr * 512 + row) = some x ∧ s.time.now < x + 1000000000
  · obtain ⟨x, hx, hsoon⟩ := h
    rw [sramCorrected_again arr row x s hx hsoon]
    rfl
  · rw [sramCorrected_first arr row s fun x hx => Nat.not_lt.mp fun hsoon => h ⟨x, hx, hsoon⟩]
    rfl

/-- A row asked for where the array has no spare row left: it stays in use. -/
theorem sramReplace_exhausted (arr row : Nat) (r : List (Nat × Nat)) (s : State) (hp : s.h.rep.rowPend = (arr, row) :: r)
    (hfull : 8 ≤ KMap.getD s.h.rep.rowsUsed arr 0) : sramReplace false s = { s with h.rep.rowPend := r } := by
  have hp' : (repOf s 0).rowPend = (arr, row) :: r := hp
  have hfull' : 8 ≤ KMap.getD (repOf s 0).rowsUsed arr 0 := hfull
  simp only [sramReplace, Bool.false_eq_true, if_false, hp', if_pos hfull']
  rfl

/-- A row asked for where a spare row is left: the spare row is taken, and the ageing map has it with CAUSE 4. -/
theorem sramReplace_spare (arr row : Nat) (r : List (Nat × Nat)) (s : State) (hp : s.h.rep.rowPend = (arr, row) :: r)
    (hleft : KMap.getD s.h.rep.rowsUsed arr 0 < 8) :
    sramReplace false s = ageAdd 2 4 arr row { s with
      h.rep.rowPend := r, h.rep.rowsUsed := KMap.put s.h.rep.rowsUsed arr (KMap.getD s.h.rep.rowsUsed arr 0 + 1) } := by
  have hp' : (repOf s 0).rowPend = (arr, row) :: r := hp
  have hleft' : ¬ 8 ≤ KMap.getD (repOf s 0).rowsUsed arr 0 := Nat.not_le.mpr hleft
  simp only [sramReplace, Bool.false_eq_true, if_false, hp', if_neg hleft']
  rfl

/-! ## Failed checks of an island (R794, R797) -/

/-- An island that neither serves nor shadows: its source is raised and nothing else happens. -/
theorem islandCheck_idle (code : Nat) (again : Bool) (s : State) (hserve : (islandOf s code).role ≠ 0) (hshadow : (islandOf s code).role ≠ 5) :
    islandCheck code again s = raise (checkSrc (code / 256)) (islandOf s code).duty s := by
  simp only [islandCheck, if_neg hshadow, if_pos hserve]

/-- The duty of a serving island, as its code. -/
def dutyOf (s : State) (code : Nat) : Nat := code / 256 * 256 + (islandOf s code).duty

/-- A serving island of a kind that replays, while its duty has no replay that failed again: the duty is listed for replay, and the replay is counted. -/
theorem islandCheck_replay (code : Nat) (again : Bool) (s : State) (hserve : (islandOf s code).role = 0) (hkind : replays (code / 256) = true)
    (hfresh : again = false ∨ (repOf s (code / 256)).replay.contains (dutyOf s code) = false) :
    islandCheck code again s = setRep (code / 256)
      { repOf s (code / 256) with
        replay := if (repOf s (code / 256)).replay.contains (dutyOf s code) then (repOf s (code / 256)).replay
          else (repOf s (code / 256)).replay ++ [dutyOf s code] }
      (bump (raise (checkSrc (code / 256)) (islandOf s code).duty s) 0x6001C 0 16 1) := by
  have hfirst : ¬ (again = true ∧ (repOf s (code / 256)).replay.contains (dutyOf s code) = true) := by
    rcases hfresh with h | h
    · exact fun c => Bool.false_ne_true (h.symm.trans c.1)
    · exact fun c => Bool.false_ne_true (h.symm.trans c.2)
  have hshadow : (islandOf s code).role ≠ 5 := by omega
  unfold dutyOf at hfirst ⊢
  simp only [islandCheck, if_neg hshadow, if_neg (not_not.mpr hserve), if_pos hkind, if_neg hfirst, repOf_raise]

/-- After such a check the duty is listed for replay, and every island keeps its role. -/
theorem islandCheck_replay_lists (code : Nat) (again : Bool) (s : State) (hserve : (islandOf s code).role = 0) (hkind : replays (code / 256) = true)
    (hfresh : again = false ∨ (repOf s (code / 256)).replay.contains (dutyOf s code) = false) :
    dutyOf s code ∈ (repOf (islandCheck code again s) (code / 256)).replay ∧
      (repOf (islandCheck code again s) (code / 256)).islands = (repOf s (code / 256)).islands := by
  rw [islandCheck_replay code again s hserve hkind hfresh, repOf_setRep]
  refine ⟨?_, rfl⟩
  dsimp only
  split
  case isTrue hlisted => exact List.contains_iff_mem.mp hlisted
  case isFalse => exact List.mem_append_right _ (List.mem_singleton_self _)

/-- A serving island of a kind with spares that does not replay: its jobs run again and its duty moves. -/
theorem islandCheck_move (code : Nat) (again : Bool) (s : State) (hserve : (islandOf s code).role = 0) (hkind : replays (code / 256) = false)
    (h4 : code / 256 ≠ 0x04) (h11 : code / 256 ≠ 0x11) :
    islandCheck code again s =
      let u := raise (checkSrc (code / 256)) (islandOf s code).duty s
      moveDuty (dieNow u (fieldKind (code / 256))) (dutyOf s code) 3 0 7 (rerunJobs (dutyOf s code) u) := by
  have hshadow : (islandOf s code).role ≠ 5 := by omega
  unfold dutyOf
  simp only [islandCheck, if_neg hshadow, if_neg (not_not.mpr hserve), hkind, Bool.false_eq_true, if_false,
    if_neg (not_or.mpr ⟨h4, h11⟩)]

/-! ## The statement -/

/-- Settles O56: the laws of a register write for the writes of each die, and one equation for each branch of the ECC and island-check operations. -/
theorem faultEventsAreTaken : Obligations.FaultEventsAreTaken := by
  unfold Obligations.FaultEventsAreTaken
  refine ⟨?inject, ?clear, ?injectFs, ?clearFs, ?injectRemote, ?clearRemote, ?lockstep, fun _ _ => rfl, ?corrected, ?replaced,
    fun _ _ => ⟨rfl, fun _ => rfl⟩, ?serving, ?idle⟩
  case inject => exact fun s o v hp => ⟨_, rfl, masterWrite_stores s o _ _ _ hp v.isLt rfl (fun _ _ => rfl) fun _ _ => rfl⟩
  case clear => exact fun s o hp => ⟨_, rfl, masterWrite_stores s o _ _ _ hp (by decide) rfl (fun _ _ => rfl) fun _ _ => rfl⟩
  case injectFs => exact fun s v hp => ⟨_, rfl, masterWrite_storesFs s _ _ _ hp v.isLt rfl (fun _ _ => rfl) fun _ _ => rfl⟩
  case clearFs => exact fun s hp => ⟨_, rfl, masterWrite_storesFs s _ _ _ hp (by decide) rfl (fun _ _ => rfl) fun _ _ => rfl⟩
  case injectRemote => exact fun s o v hp => ⟨_, rfl, masterWrite_wroteRemote s o _ _ hp v.isLt⟩
  case clearRemote => exact fun s o hp => ⟨_, rfl, masterWrite_wroteRemote s o _ _ hp (by decide)⟩
  case lockstep =>
    exact fun s => ⟨congrArg Host.Outcome.next (raise_host 0x05B 0 s (by decide)), congrArg Host.Outcome.next (raise_field 0x111 0 s (by decide))⟩
  case corrected =>
    intro s arr row hrow
    have hexec : exec (.sramCorrected false arr row) s = .next (sramCorrected false arr row s) := by
      show Host.Outcome.next (sramCorrected false arr (row % 512) s) = _
      rw [Nat.mod_eq_of_lt hrow]
    refine ⟨_, hexec, sramCorrected_pend arr row s, fun x hx hsoon => ?_, fun hold => ?_⟩
    · rw [sramCorrected_again arr row x s hx hsoon]
    · rw [sramCorrected_first arr row s hold]
      exact ⟨rfl, rfl⟩
  case replaced =>
    exact fun s arr row r hp => ⟨fun hfull => congrArg Host.Outcome.next (sramReplace_exhausted arr row r s hp hfull),
      fun hleft => congrArg Host.Outcome.next (sramReplace_spare arr row r s hp hleft)⟩
  case serving =>
    exact fun s code again hserve => ⟨fun hkind hfresh => ⟨_, rfl, islandCheck_replay_lists code again s hserve hkind hfresh⟩,
      fun hkind h4 h11 => congrArg Host.Outcome.next (islandCheck_move code again s hserve hkind h4 h11)⟩
  case idle =>
    exact fun s code again hserve hshadow => congrArg Host.Outcome.next (islandCheck_idle code again s hserve hshadow)

end Sys2Proof.Laws
end

section
/-! What every step keeps (O2, O3, O4, O7): the invariant, the hold line, time and the queue of commands, each from what one command keeps (Laws/KeepsExec.lean). -/

namespace Sys2Proof.Laws

open Sys2Proof Sys2Proof.Machine

/-! ## The invariant of a run -/

/-- No fixed thing is asked for: what every command allows. -/
def Fix.nothing : Fix := ⟨False, False, False, False, False, fun _ _ => True⟩

/-- Only SYSCNT is asked to stand. -/
def Fix.onlyNow : Fix := { Fix.nothing with now := True }

theorem allows_nothing (c : Instr) : allows Fix.nothing c := by
  unfold allows
  split <;> simp [Fix.nothing]

theorem allows_onlyNow (c : Instr) (hend : c ≠ .resetEnd) (htick : ∀ codes, c ≠ .tickCommit codes) : allows Fix.onlyNow c := by
  unfold allows
  split
  case h_1 => exact absurd rfl hend
  case h_2 codes => exact absurd rfl (htick codes)
  all_goals simp [Fix.onlyNow, Fix.nothing]

/-- A change that keeps the canonical forms and the pins keeps the invariant. -/
theorem inv_of_keeps {q : Fix} {s t : State} (k : Keeps q s t) (h : s.inv) : t.inv := by
  obtain ⟨hregs, hflash, hpins⟩ := h
  exact ⟨k.holds.regs hregs, k.holds.cells hflash, k.pins hpins⟩

theorem exec_keeps_inv {c : Instr} {s t : State} (h : s.inv) (e : exec c s = .next t) : t.inv :=
  inv_of_keeps (keeps_exec (allows_nothing c) e (keeps_refl _ s)) h

theorem step_keeps_inv {s t : State} (h : s.inv) (e : step s = .next t) : t.inv := by
  unfold step at e
  split at e
  case h_1 =>
    cases e
    exact h
  case h_2 c rest _ => exact exec_keeps_inv (s := { s with pending := rest }) h e

/-- Pins that show the mode assert the hold line outside RUN and DEGRADED, and in a reset (R55). -/
theorem holdLine_of_pinsShow {t : State} (h : pinsShow t) (hm : (t.sys.mode ≠ .run ∧ t.sys.mode ≠ .degraded) ∨ t.sys.inReset ≠ none) :
    t.sys.holdLine = true := by
  obtain ⟨hline, _⟩ := h
  rw [hline]
  rcases hm with ⟨hrun, hdeg⟩ | hreset
  · have hlive : t.sys.mode.live = false := by
      cases hmode : t.sys.mode <;> simp_all [Mode.live]
    simp [hlive]
  · simp [Option.isSome_iff_ne_none.mpr hreset]

theorem reset_inv : State.reset.inv := ⟨by decide, by decide, by decide, by decide⟩

/-- At reset every register reads 0 but TIM.TRACECTL. -/
theorem reg_reset (a : Nat) : reg State.reset a = if a = 0x30024 then 0x5000 else 0 := by
  have hget : KMap.get? regsReset a = if a = 0x30024 then some 0x5000 else none := by
    simp only [regsReset, KMap.get?, eq_comm (a := a)]
  show ((KMap.get? regsReset a).getD 0).toNat = _
  rw [hget]
  split <;> rfl

/-- Settles O2: the invariant and the register file at reset are lemmas of their own; the rest is read off the reset values. -/
theorem resetLeavesSpecState : Obligations.ResetLeavesSpecState :=
  ⟨reset_inv, rfl, rfl, rfl, rfl, rfl, rfl, rfl, rfl, rfl, rfl, rfl, rfl, rfl, reg_reset⟩

/-- Settles O3, from what every command keeps. -/
theorem everyStepKeepsInvariant : Obligations.EveryStepKeepsInvariant :=
  fun _ _ h e => step_keeps_inv h e

/-- Settles O4: the invariant says it of the pins. -/
theorem holdLineAssertedOutsideRun : Obligations.HoldLineAssertedOutsideRun :=
  ⟨reset_inv, fun _ _ h e =>
    have hinv := step_keeps_inv h e
    have ⟨_, _, hpins⟩ := hinv
    ⟨hinv, holdLine_of_pinsShow hpins⟩⟩

/-- Settles O7, from what every command keeps with SYSCNT asked to stand. -/
theorem onlyTickAndResetEndMoveTime : Obligations.OnlyTickAndResetEndMoveTime := by
  unfold Obligations.OnlyTickAndResetEndMoveTime
  intro c s t e
  refine ⟨(keeps_exec (allows_nothing c) e (keeps_refl _ s)).holds.pending, fun hend htick => ?_⟩
  exact (keeps_exec (allows_onlyNow c hend htick) e (keeps_refl _ s)).holds.now trivial

end Sys2Proof.Laws
end

section
/-! Resets and supplies (O11 to O14): the register file after a reset, the state a host-die and a field-die reset leave, and the modes that the supplies lead to. -/

namespace Sys2Proof.Laws

open Sys2Proof Sys2Proof.Machine

/-! ## The register file after a reset -/

theorem get?_filter_key {α : Type} (m : KMap α) (p : Nat → Bool) (b : Nat) :
    KMap.get? (m.filter fun e => !p e.1) b = if p b then none else KMap.get? m b := by
  induction m with
  | nil => simp [KMap.get?]
  | cons x r ih =>
    obtain ⟨k, v⟩ := x
    by_cases hk : p k = true
    · rw [List.filter_cons_of_neg (by simp [hk]), ih]
      by_cases hkb : k = b
      · simp [← hkb, hk]
      · simp [KMap.get?, hkb]
    · rw [List.filter_cons_of_pos (by simp [hk])]
      by_cases hkb : k = b
      · simp [KMap.get?, ← hkb, hk]
      · simp [KMap.get?, hkb, ih]

theorem get?_put_same {α : Type} (m : KMap α) (k : Nat) (v : α) : KMap.get? (KMap.put m k v) k = some v := by
  induction m with
  | nil => simp [KMap.put, KMap.get?]
  | cons x r ih =>
    obtain ⟨a, w⟩ := x
    unfold KMap.put
    split
    case isTrue => simp [KMap.get?]
    case isFalse =>
      split
      case isTrue => simp [KMap.get?]
      case isFalse hne => simp [KMap.get?, hne, ih]

/-- Registers dropped from the file read 0, and the others stand. -/
theorem regFile_get_dropRegs (m : KMap Word) (p : Nat → Bool) (b : Nat) :
    RegFile.get (dropRegs m p) b = if p b then 0 else RegFile.get m b := by
  unfold RegFile.get dropRegs
  rw [get?_filter_key]
  split <;> rfl

/-- The host die reinitialised (R68): its registers read 0 but TIM.TRACECTL, and the field die's stand. -/
theorem reg_reinitHost (s : State) (a : Nat) :
    reg (reinitHost s) a = if isHostReg a then (if a = 0x30024 then 0x5000 else 0) else reg s a := by
  have hregs : (reinitHost s).regs = RegFile.set (dropRegs s.regs isHostReg) 0x30024 0x5000 := rfl
  unfold reg
  rw [hregs]
  by_cases ha : a = 0x30024
  · have hget : RegFile.get (RegFile.set (dropRegs s.regs isHostReg) 0x30024 0x5000) 0x30024 = 0x5000 := by
      unfold RegFile.get RegFile.set
      rw [if_neg (by decide), get?_put_same]
      rfl
    rw [ha, hget]
    rfl
  · rw [regFile_get_set_ne _ _ _ _ ha, regFile_get_dropRegs, if_neg ha]
    split <;> rfl

/-- The field die reset (R67): its registers read 0, and the host die's stand. -/
theorem reg_fieldReset (st : FState) (keepLink : Bool) (s : State) (a : Nat) :
    reg (fieldReset st keepLink s) a = if isFieldReg a then 0 else reg s a := by
  have hkeys : (decide (0x20000000 ≤ a) || (decide (0x800000 ≤ a % 0x1000000) && decide (a % 0x1000000 < 0x830000) &&
      decide (a < 0x20000000))) = isFieldReg a := by
    unfold isFieldReg
    by_cases hlow : a < 0x20000000
    · simp [hlow]
    · simp [Nat.not_lt.mp hlow]
  unfold reg fieldReset
  dsimp only
  rw [regFile_get_dropRegs, hkeys]
  split <;> rfl

/-! ## The pins of the modes that do not forward -/

/-- Without the supply of the host die, SAFE_OUT has no drive (R81). -/
theorem modePins_unpowered (s : State) (h : s.sys.mode = .keep ∨ s.sys.mode = .noSupply) :
    modePins s = { s with sys.holdLine := true, sys.safeOut := .hiZ } := by
  rcases h with h | h <;> simp [modePins, h, Mode.live]

/-- In a powered mode other than RUN and DEGRADED, SAFE_OUT is high and the hold line asserted (R55, R81). -/
theorem modePins_safe (s : State) (h : s.sys.mode = .build ∨ s.sys.mode = .hold ∨ s.sys.mode = .standby) :
    modePins s = { s with sys.holdLine := true, sys.safeOut := .high } := by
  rcases h with h | h | h <;> simp [modePins, h, Mode.live]

/-! ## Host-die resets -/

/-- A host-die reset of a die that is not in reset, with the DEBUG window on the field die closed (R66 to R70). -/
theorem resetTaken_hostReset (cause : Nat) (s : State) (h : s.sys.inReset = none) :
    resetTaken cause s (dropFieldDebug (hostReset cause s)) := by
  unfold hostReset
  rw [h]
  exact ⟨rfl, rfl, rfl, rfl, rfl, rfl, rfl, rfl, rfl, rfl, rfl, rfl, reg_reinitHost s⟩

theorem hostReset_h (cause : Nat) (s : State) (h : s.sys.inReset = none) : (hostReset cause s).h = HostDie.reset := by
  unfold hostReset
  rw [h]
  rfl

theorem hostReset_refOk (cause : Nat) (s : State) : (hostReset cause s).sys.refOk = s.sys.refOk := by
  unfold hostReset
  split <;> rfl

/-- A power-on reset senses the supplies as given, and empties the wake record (Table MOD-15). -/
theorem hostReset_por (s : State) (h : s.sys.inReset = none) :
    (hostReset causePor s).sys.vsupH = s.sys.vsupH ∧ (hostReset causePor s).sys.vio18 = s.sys.vio18 ∧
      (hostReset causePor s).sys.wake.primary = 0x1F ∧ (hostReset causePor s).sys.wake.second = 0x1F ∧
      (hostReset causePor s).sys.wake.seen = 0 := by
  unfold hostReset
  rw [h]
  exact ⟨rfl, rfl, rfl, rfl, rfl⟩

theorem poweredReset_powered (cause : Nat) (s : State) (hkeep : s.sys.mode ≠ .keep) (hno : s.sys.mode ≠ .noSupply) :
    poweredReset cause s = dropFieldDebug (hostReset cause s) := if_neg (not_or.mpr ⟨hkeep, hno⟩)

/-- The host RESET command carries no payload (Table HOST-2). -/
theorem len_of_whole_reset {x : Txn} {s : State} (h : whole 10 x s) : x.len = 0 := by
  obtain ⟨_, _, hfields⟩ := h
  simp only [fieldsOk, Bool.and_eq_true, beq_iff_eq] at hfields
  obtain ⟨⟨_, hlen⟩, _⟩ := hfields
  exact hlen

/-- Settles O11: every source runs `hostReset` on a die that is not in reset. -/
theorem hostResetSourcesReset : Obligations.HostResetSourcesReset := by
  unfold Obligations.HostResetSourcesReset
  refine ⟨fun s hin hkeep hno => ?powered, fun s vio18 hin hvsup => ?por⟩
  case powered =>
    have taken : ∀ cause, ∃ t, Host.Outcome.next (poweredReset cause s) = (.next t : Out) ∧ resetTaken cause s t ∧ t.h = HostDie.reset :=
      fun cause => ⟨_, congrArg _ (poweredReset_powered cause s hkeep hno), resetTaken_hostReset cause s hin, hostReset_h cause s hin⟩
    refine ⟨taken 2, taken 8, ?clock, taken 32, ?command⟩
    case clock =>
      have hexec : exec .clockMonitorReset s = .next (dropFieldDebug (hostReset 16 { s with sys.refOk := false })) :=
        congrArg Host.Outcome.next ((if_neg (not_or.mpr ⟨hkeep, hno⟩)).trans (poweredReset_powered 16 { s with sys.refOk := false } hkeep hno))
      exact ⟨_, hexec, resetTaken_hostReset 16 { s with sys.refOk := false } hin, hostReset_h 16 { s with sys.refOk := false } hin, hostReset_refOk _ _⟩
    case command =>
      intro x hx
      have hexec : exec (.reset x) s = .next (answered x s (dropFieldDebug (hostReset 4 (received x s)))) := by
        show Host.Outcome.next (hostTxn 10 x (poweredReset causeHostCmd) s) = _
        rw [hostTxn_whole hx, poweredReset_powered _ (received x s) hkeep hno]
        rfl
      refine ⟨_, hexec, resetTaken_hostReset 4 (received x s) hin, ?_⟩
      have hh := hostReset_h 4 (received x s) hin
      show { (hostReset 4 (received x s)).h with port.miso := (misoWords s x.len).take (x.clocks / 32) } = _
      rw [hh, len_of_whole_reset hx]
  case por =>
    have hexec : exec (.powerOnReset vio18) s = .next (dropFieldDebug (hostReset 1 { s with sys.vsupH := true, sys.vio18 := vio18 })) := by
      show Host.Outcome.next (if _ then _ else _) = _
      rw [if_neg (by simp [hvsup])]
      rfl
    refine ⟨_, hexec, resetTaken_hostReset 1 { s with sys.vsupH := true, sys.vio18 := vio18 } hin, hostReset_h 1 { s with sys.vsupH := true, sys.vio18 := vio18 } hin, ?_⟩
    exact hostReset_por { s with sys.vsupH := true, sys.vio18 := vio18 } hin

/-! ## The end of a reset -/

theorem testBit_lor_64 (c : Nat) : Nat.testBit (Nat.lor c 64) 6 = true := by
  show Nat.testBit (c ||| 64) 6 = true
  rw [Nat.testBit_or, show Nat.testBit 64 6 = true by decide, Bool.or_true]

/-- Settles O12: the keeper domain is lost or it is not, and a new challenge is drawn beside (R863). -/
theorem resetEndStartsSyscnt : Obligations.ResetEndStartsSyscnt := by
  unfold Obligations.ResetEndStartsSyscnt
  intro s c hin
  have hexec : exec .resetEnd s = .next (newChallenge (resetEnd { s with sys.refOk := true })) := by
    show Host.Outcome.next (if _ then _ else _) = _
    rw [if_neg (by simp [hin])]
  obtain ⟨fr, g, ch, hchal⟩ := newChallenge_shape (resetEnd { s with sys.refOk := true })
  refine ⟨_, hexec, ?_⟩
  rw [hchal]
  simp only [resetEnd, hin]
  rw [modePins_safe _ (.inl rfl)]
  cases hlost : s.keeper.lost
  · exact ⟨rfl, Nat.or_zero c, nofun, rfl, rfl, rfl, rfl, rfl, rfl, rfl, rfl, rfl, rfl, rfl⟩
  · exact ⟨rfl, rfl, fun _ => testBit_lor_64 c, rfl, rfl, rfl, rfl, rfl, rfl, rfl, rfl, rfl, rfl, rfl⟩

/-! ## Supplies -/

theorem keeperGone_loseKeeper (s : State) : keeperGone s (loseKeeper s) := by
  unfold keeperGone loseKeeper
  by_cases h : s.keeper.rootState = 3 <;> simp [h]

/-- The keeper counter once SYSCNT has stopped into it (R77). -/
def stoppedCtr (s : State) : Nat := if s.time.running then s.time.now / 2 ^ 15 else s.keeper.ctr

/-- The machine as VSUP_H leaves it, before the mode that VKEEP decides. -/
def unsupplied (s : State) : State :=
  { reinitHost s with sys.vsupH := false, sys.inReset := none, time.running := false, keeper.ctr := stoppedCtr s, sys.wake := Wake.reset }

theorem supplyLoss_kept (s : State) (h : s.sys.vsupH = true) (hk : s.sys.vkeep = true) :
    supplyLoss s = { unsupplied s with sys.mode := .keep, sys.holdLine := true, sys.safeOut := .hiZ } := by
  have hpins := modePins_unpowered { unsupplied s with sys.mode := .keep } (.inl rfl)
  simp only [supplyLoss, h, Bool.not_true, Bool.false_eq_true, if_false]
  exact (if_pos hk).trans hpins

theorem supplyLoss_lost (s : State) (h : s.sys.vsupH = true) (hk : s.sys.vkeep = false) :
    supplyLoss s = { loseKeeper { unsupplied s with sys.mode := .noSupply } with sys.holdLine := true, sys.safeOut := .hiZ } := by
  have hpins := modePins_unpowered (loseKeeper { unsupplied s with sys.mode := .noSupply }) (.inr rfl)
  simp only [supplyLoss, h, Bool.not_true, Bool.false_eq_true, if_false]
  exact (if_neg fun e : (unsupplied s).sys.vkeep = true => Bool.false_ne_true (hk.symm.trans e)).trans hpins

/-- Settles O13: one equation for each supply that goes or comes back. -/
theorem suppliesMoveTheMode : Obligations.SuppliesMoveTheMode := by
  unfold Obligations.SuppliesMoveTheMode
  refine ⟨fun s hvsup => ⟨_, rfl, ?vsupH⟩, fun s hvsup => ?vkeepLost, fun s hvsup hmode => ?vkeep, fun s hstop hmode hlost => ?oscillator⟩
  case vsupH =>
    cases hk : s.sys.vkeep
    · rw [supplyLoss_lost s hvsup hk]
      exact ⟨rfl, rfl, rfl, rfl, rfl, rfl, rfl, rfl, rfl, rfl, rfl, keeperGone_loseKeeper s⟩
    · rw [supplyLoss_kept s hvsup hk]
      exact ⟨rfl, rfl, rfl, rfl, rfl, rfl, rfl, rfl, rfl, rfl, rfl, rfl⟩
  case vkeepLost =>
    have hexec : exec .keeperLoss s = .next { loseKeeper { s with sys.vkeep := false, sys.mode := .noSupply } with
        sys.holdLine := true, sys.safeOut := .hiZ } := by
      show Host.Outcome.next (if _ then _ else _) = _
      rw [if_neg (by simp [hvsup]), modePins_unpowered _ (.inr rfl)]
    exact ⟨_, hexec, rfl, rfl, keeperGone_loseKeeper s, rfl, rfl, rfl, rfl, rfl, rfl, rfl, rfl⟩
  case vkeep =>
    show Host.Outcome.next (if _ then _ else _) = _
    rw [if_neg (by simp [hvsup]), if_pos hmode, modePins_unpowered _ (.inl rfl)]
  case oscillator =>
    exact congrArg Host.Outcome.next (if_neg (by simp [hstop, hmode, hlost]))

/-! ## The field die -/

theorem fieldResetTaken_fieldReset (st : FState) (s : State) : fieldResetTaken st s.sys.vsupF s (fieldReset st false s) :=
  ⟨rfl, reg_fieldReset st false s⟩

/-- Settles O14: each source runs `fieldReset` with its own state and supply. -/
theorem fieldResetsTakeEffect : Obligations.FieldResetsTakeEffect := by
  unfold Obligations.FieldResetsTakeEffect
  refine ⟨fun s h => ?on, fun s h => ?monitor, fun s h => ?ends, fun s h => ?lost⟩
  case on => exact ⟨_, congrArg Host.Outcome.next (if_pos h), fieldResetTaken_fieldReset .wait { s with sys.vsupF := true }⟩
  case monitor => exact ⟨_, congrArg Host.Outcome.next (if_neg h), fieldResetTaken_fieldReset .inReset s⟩
  case ends => exact congrArg Host.Outcome.next (if_pos h)
  case lost => exact ⟨_, congrArg Host.Outcome.next (if_neg h), fieldResetTaken_fieldReset .off { s with sys.vsupF := false }⟩

end Sys2Proof.Laws
end

section
/-! BUILD's first slot, the entry into STANDBY and the wake arbiter (O15, O19, O20, O21): one equation or shape for each operation, from which the statements are read off. -/

namespace Sys2Proof.Laws

open Sys2Proof Sys2Proof.Machine

/-! ## BUILD begins (R101, R129) -/

/-- A BUILD that has not begun: out of reset, with no slot being tried and no missing image reported. -/
theorem buildIdle_facts {s : State} (h : buildIdle s = true) :
    s.sys.mode = .build ∧ s.sys.inReset = none ∧ s.h.img.trying = none ∧ s.sys.noImg = false := by
  simp only [buildIdle, Bool.and_eq_true, beq_iff_eq, Option.isNone_iff_eq_none, Bool.not_eq_true'] at h
  obtain ⟨⟨⟨⟨⟨⟨⟨hmode, hin⟩, htry⟩, _⟩, _⟩, _⟩, _⟩, himg⟩ := h
  exact ⟨hmode, hin, htry, himg⟩

/-- What BUILD notes as it begins, before a slot is tried. -/
def buildBegun (s : State) : State :=
  { s with
    sys.buildAt := s.time.now, h.keys.rt := [], h.keys.slots := [], h.keys.roles := []
    h.img.codeA := if headerCode s 0 = 0 then 1 else headerCode s 0, h.img.codeB := if headerCode s 1 = 0 then 1 else headerCode s 1
    h.img.firstB := (slotOrder s).head? == some 1, h.img.rest := slotOrder s }

theorem buildStart_idle {s : State} (h : buildIdle s = true) : buildStart s = tryNext (buildBegun s) := by
  unfold buildStart
  rw [if_neg (by simp [h])]
  rfl

/-- BUILD without a slot left to try ends in HOLD: the journal is not loaded then, and keeper and field die stand (R129). -/
theorem buildHold_shape (s : State) (h : s.sys.mode = .build) :
    ∃ j ms rg, buildHold s = { s with
      h.jrn := j, regs := rg, h.img.trying := none, h.img.rest := [], h.img.committed := false, h.img.buildMs := ms, h.img.image := none
      sys.mode := .hold, sys.noImg := true, sys.holdLine := true, sys.safeOut := .high } := by
  unfold buildHold enterHold
  dsimp only [loadChainHead]
  rw [h]
  dsimp only
  rw [modePins_safe _ (.inr (.inl rfl))]
  exact ⟨_, _, _, rfl⟩

/-- Settles O15, by the slots whose headers pass. -/
theorem buildStartTriesFirstSlot : Obligations.BuildStartTriesFirstSlot := by
  unfold Obligations.BuildStartTriesFirstSlot
  intro s hidle
  obtain ⟨hmode, hin, htry, himg⟩ := buildIdle_facts hidle
  have hexec : exec .buildStart s = .next (tryNext (buildBegun s)) :=
    congrArg Host.Outcome.next ((if_pos ⟨hmode, hin⟩).trans (buildStart_idle hidle))
  refine ⟨_, hexec, ?_⟩
  have hrest : (buildBegun s).h.img.rest = slotOrder s := rfl
  unfold tryNext
  rw [hrest]
  cases hord : slotOrder s with
  | cons k r =>
    obtain ⟨fe, rg, e, _⟩ := trySlot_shape k r (buildBegun s)
    dsimp only
    rw [e]
    exact ⟨rfl, rfl, rfl, rfl, rfl, rfl, rfl, rfl, hmode, himg, rfl, rfl⟩
  | nil =>
    obtain ⟨j, ms, rg, e⟩ := buildHold_shape (buildBegun s) hmode
    dsimp only
    rw [e]
    exact ⟨rfl, rfl, rfl, rfl, rfl, rfl, rfl, rfl, rfl, rfl, rfl, rfl, rfl⟩

/-! ## The entry into STANDBY (R62, R63) -/

/-- The store of a write to SYS.CTRL leaves SYS.STBYCFG and SYS.WAKEEN, which the entry reads. -/
theorem written_sysCtrl (o : Origin) (d : RegDef) (u : State) :
    ∃ rg, written false o d 0x14 1 u = { u with regs := rg } ∧ RegFile.get rg 0x20 = RegFile.get u.regs 0x20 ∧
      RegFile.get rg 0x24 = RegFile.get u.regs 0x24 := by
  obtain ⟨h20, h24⟩ : 0x20 ≠ storeKey false d o 0x14 ∧ 0x24 ≠ storeKey false d o 0x14 := by
    show 0x20 ≠ bankKey d o 0x14 ∧ 0x24 ≠ bankKey d o 0x14
    unfold bankKey
    split <;> omega
  exact ⟨_, rfl, regFile_get_set_ne _ _ _ _ h20, regFile_get_set_ne _ _ _ _ h24⟩

/-- What a write of 1 to SYS.CTRL.SLEEP sets off in RUN and DEGRADED. -/
theorem regEffect_sleep (o : Origin) (old : Nat) (u : State) (h : u.sys.mode.live = true) :
    regEffect false o 0x14 old 1 u = endSession (enterStandby o.code u) := by
  have hset : (bit 1 0 && u.sys.mode.live) = true := by rw [h]; rfl
  show (if (bit 1 0 && u.sys.mode.live) = true then endSession (enterStandby o.code u) else u) = _
  rw [if_pos hset]

/-- STANDBY just entered from `s`: the fields the entry sets, a closed debug session, and every part of the machine that may change beside them as it is in `t` (R62, R63, R866). -/
def standbyEntered (s t : State) : Prop :=
  t = { s with
    free := t.free, h.sp.gens := t.h.sp.gens, h.dbg := t.h.dbg, h.port.windows := t.h.port.windows, f.windows := t.f.windows
    h.img.holds := t.h.img.holds, f.holds := t.f.holds, h.jrn := t.h.jrn, keeper.jrnLast := t.keeper.jrnLast
    keeper.jrnAck := t.keeper.jrnAck, keeper.jrnValid := t.keeper.jrnValid, regs := t.regs, h.tahr.fe := t.h.tahr.fe
    sys.mode := .standby, sys.holdLine := true, sys.safeOut := .high, sys.entering := true
    sys.drainAt := s.time.now + fieldOf s 0x20 0 8 * 1000000
    sys.wake := { Wake.reset with recording := true, armed := true, pulse := s.sys.wake.pulse, out := s.sys.wake.out }
    h.listeners := (List.range 8).map (fun i => ⟨bit (reg s 0x24) (1 + i), 0, false⟩) } ∧
  t.h.dbg.open_ = false

/-- The entry into STANDBY from a state that differs from `s` by a write's journal part, with a debug session ended and the write's windows and holds put in. -/
theorem standbyEntered_enterStandby (s : State) (origin : Nat) (j : Journal) (k1 k2 : Nat) (k3 : Bool) (rg : KMap Word) (w1 w2 h1 h2 : KMap Nat)
    (hlive : s.sys.mode.live = true) (h20 : RegFile.get rg 0x20 = RegFile.get s.regs 0x20) (h24 : RegFile.get rg 0x24 = RegFile.get s.regs 0x24) :
    standbyEntered s (withTail w1 w2 h1 h2 (endSession (enterStandby origin (withJournal j k1 k2 k3 rg s)))) := by
  obtain ⟨j', k1', k2', k3', rg', fe, henter, _⟩ := enterStandby_shape origin (withJournal j k1 k2 k3 rg s) hlive
  have hdrain : fieldOf (withJournal j k1 k2 k3 rg s) 0x20 0 8 = fieldOf s 0x20 0 8 := congrArg (fun w : Word => bits w.toNat 0 8) h20
  have hwakeen : reg (withJournal j k1 k2 k3 rg s) 0x24 = reg s 0x24 := congrArg BitVec.toNat h24
  rw [hdrain, hwakeen] at henter
  rw [henter]
  obtain ⟨fr, g, db, v1, v2, hend, hopen, _⟩ := endSession_shape _
  rw [hend]
  exact ⟨rfl, hopen⟩

/-- A write of 1 to SYS.CTRL.SLEEP, once the journal has taken it, enters STANDBY. -/
theorem standbyEntered_sleep (s : State) (o : Origin) (d : RegDef) (old : Nat) (j : Journal) (k1 k2 : Nat) (k3 : Bool) (rg : KMap Word)
    (w1 w2 h1 h2 : KMap Nat) (hlive : s.sys.mode.live = true) (hregs : ∀ b, b ≠ 0x4C → RegFile.get rg b = RegFile.get s.regs b) :
    standbyEntered s (withTail w1 w2 h1 h2 (regEffect false o 0x14 old 1 (written false o d 0x14 1 (withJournal j k1 k2 k3 rg s)))) := by
  obtain ⟨rg1, hwritten, h20, h24⟩ := written_sysCtrl o d (withJournal j k1 k2 k3 rg s)
  have hstored : written false o d 0x14 1 (withJournal j k1 k2 k3 rg s) = withJournal j k1 k2 k3 rg1 s := hwritten
  rw [hstored, regEffect_sleep o old (withJournal j k1 k2 k3 rg1 s) hlive]
  exact standbyEntered_enterStandby s o.code j k1 k2 k3 rg1 w1 w2 h1 h2 hlive (h20.trans (hregs 0x20 (by decide)))
    (h24.trans (hregs 0x24 (by decide)))

/-- A register whose write passes its checks is in the register map. -/
theorem regAt_of_passes {s : State} {o : Origin} {a v : Nat} (h : passes s o a v) : ∃ d, regAt a = some d := by
  obtain ⟨_, _, _, _, hstatus⟩ := h
  cases hd : regAt a with
  | some d => exact ⟨d, rfl⟩
  | none => simp [hostWriteStatus, hd] at hstatus

/-- SYS.CTRL.SLEEP written by a bus master enters STANDBY (R62). -/
theorem standbyEntered_masterWrite (s : State) (o : Origin) (hp : passes s o 0x14 1) (hlive : s.sys.mode.live = true) :
    standbyEntered s (masterWrite o 0x14 1 s) := by
  obtain ⟨d, hd⟩ := regAt_of_passes hp
  obtain ⟨j, k1, k2, k3, rg, w1, w2, h1, h2, hregs, _, e⟩ := masterWrite_shape s o 0x14 1 d hp hd (by decide)
  rw [e]
  exact standbyEntered_sleep s o d _ j k1 k2 k3 rg w1 w2 h1 h2 hlive hregs

/-- The host SLEEP operation enters STANDBY and answers OK (R62, R216). -/
theorem standbyEntered_runSleep (s : State) (hp : passes s .hostSpi 0x14 1) (hlive : s.sys.mode.live = true) :
    ∃ u, standbyEntered s u ∧ runSleep s = { u with h.port.presult := 0, h.port.prevDeferred := false } := by
  obtain ⟨d, hd⟩ := regAt_of_passes hp
  obtain ⟨_, _, _, hmode, hstatus⟩ := hp
  obtain ⟨j, k1, k2, k3, rg, w1, w2, h1, h2, hregs, _, e⟩ := hostWrite_shape s .hostSpi 0x14 1 d hmode hstatus hd
  refine ⟨_, standbyEntered_sleep s .hostSpi d (peekReg (withJournal j k1 k2 k3 rg s) false .hostSpi d 0x14) j k1 k2 k3 rg w1 w2 h1 h2 hlive hregs, ?_⟩
  unfold runSleep
  rw [e]
  rfl

/-- Settles O19: both ways write SYS.CTRL.SLEEP, and what the entry leaves is said once. -/
theorem sleepEntersStandby : Obligations.SleepEntersStandby := by
  unfold Obligations.SleepEntersStandby
  refine ⟨fun s o hp hlive => ⟨_, rfl, ?register⟩, fun s x hx hp hlive => ?command⟩
  case register =>
    obtain ⟨e, hopen⟩ := standbyEntered_masterWrite s o hp hlive
    rw [e]
    exact ⟨rfl, rfl, rfl, rfl, rfl, rfl, rfl, hopen, rfl, rfl, rfl, rfl, rfl⟩
  case command =>
    obtain ⟨u, ⟨e, hopen⟩, hrun⟩ := standbyEntered_runSleep (received x s) hp hlive
    refine ⟨_, congrArg Host.Outcome.next (hostTxn_whole hx), ?_⟩
    rw [hrun, e]
    exact ⟨rfl, rfl, rfl, rfl, rfl, rfl, rfl, rfl, hopen⟩

/-! ## The end of the entry (R62, R857) -/

/-- The slots of one host controller lost: its state and its count change. -/
theorem loseSlot_shape (n k : Nat) (c : Can) (s : State) (h : n < 24) :
    ∃ cs rg, setCan (bump s (canReg n 0x28) 16 16 k) n c = { s with h.can := cs, regs := rg } := by
  obtain ⟨rg, e, _⟩ := bump_shape s (canReg n 0x28) 16 16 k
  rw [e, setCan_host _ n c h]
  exact ⟨s.h.can.set n c, rg, rfl⟩

/-- The frames of CAN slots lost change the host controllers and their counts only. -/
theorem loseSlots_shape (s : State) : ∃ cs rg, loseSlots s = { s with h.can := cs, regs := rg } := by
  unfold loseSlots
  refine List.foldlRecOn (List.range 24) _ (motive := fun (t : State) => ∃ cs rg, t = { s with h.can := cs, regs := rg })
    ⟨s.h.can, s.regs, rfl⟩ ?_
  rintro t ⟨cs, rg, e⟩ n hn
  dsimp only
  split
  case isTrue => exact ⟨cs, rg, e⟩
  case isFalse =>
    obtain ⟨cs', rg', e'⟩ := loseSlot_shape n (usedSlots (canOf t n)).length { canOf t n with slots := List.replicate 8 none, wire := none } t
      (List.mem_range.mp hn)
    rw [e', e]
    exact ⟨cs', rg', rfl⟩

theorem purgeAll_empty (s : State) (h : s.h.fab.queues = []) : purgeAll s = s := by
  unfold purgeAll
  rw [h]
  rfl

/-- The wake domain of the host die over a die without power: what the end of the entry leaves of it. -/
def wakeDomain (u : State) : State :=
  { u with
    sys.entering := false
    h := { HostDie.reset with
      listeners := u.h.listeners, touch := u.h.touch, eth := { EthAll.reset with ports := u.h.eth.ports }, lin := u.h.lin, port := u.h.port } }

theorem finishStandby_entering (s : State) (hmode : s.sys.mode = .standby) (hent : s.sys.entering = true) :
    finishStandby s = modePins (wakeDomain (loseSlots (purgeAll s))) := by
  unfold finishStandby
  rw [if_neg (by simp [hmode, hent])]
  rfl

/-- Settles O20: the queues are purged where they are not empty, and the units outside the wake domain are at their reset values in any case. -/
theorem standbyDrainCompletes : Obligations.StandbyDrainCompletes := by
  unfold Obligations.StandbyDrainCompletes
  intro s hmode hent hdone
  have hexec : exec .standbyDrainEnd s = .next (modePins (wakeDomain (loseSlots (purgeAll s)))) := by
    rw [← finishStandby_entering s hmode hent]
    exact congrArg Host.Outcome.next (if_pos (hdone.imp List.isEmpty_iff.mpr id))
  refine ⟨_, hexec, rfl, rfl, rfl, rfl, fun hempty => ?_⟩
  obtain ⟨c, rg, e⟩ := loseSlots_shape s
  rw [purgeAll_empty s hempty, e, modePins_safe (wakeDomain { s with h.can := c, regs := rg }) (.inr (.inr hmode))]
  exact ⟨hmode, rfl, rfl, rfl, rfl, rfl, rfl, rfl⟩

/-! ## Wake (R82 to R87) -/

theorem noteSecond_undecided (w : Wake) (h : w.decided = false) : noteSecond w = w := by
  simp [noteSecond, wakeSecond, h]

/-- The second source is all that is noted beside. -/
theorem noteSecond_shape (w : Wake) : ∃ c t, noteSecond w = { w with second := c, t2 := t } := by
  unfold noteSecond
  split
  · exact ⟨_, _, rfl⟩
  · exact ⟨w.second, w.t2, rfl⟩

/-- An enabled event while the record is open becomes a candidate. -/
theorem wakeEvent_recorded (src : Nat) (t : Stamp) (s : State) (hrec : s.sys.wake.recording = true) (hen : wakeEnabled s src = true)
    (hsrc : src ≤ 31) :
    wakeEvent src t s = { s with
      sys.wake := noteSecond { s.sys.wake with seen := Nat.lor s.sys.wake.seen (2 ^ src), cands := s.sys.wake.cands ++ [(src, t)] } } := by
  unfold wakeEvent
  rw [if_neg (by simp [hrec, hen, hsrc])]

/-- Before the decision there is no second source to note. -/
theorem wakeEvent_undecided (src : Nat) (t : Stamp) (s : State) (hrec : s.sys.wake.recording = true) (hen : wakeEnabled s src = true)
    (hsrc : src ≤ 31) (hdec : s.sys.wake.decided = false) :
    wakeEvent src t s = { s with
      sys.wake.seen := Nat.lor s.sys.wake.seen (2 ^ src), sys.wake.cands := s.sys.wake.cands ++ [(src, t)] } := by
  rw [wakeEvent_recorded src t s hrec hen hsrc,
    noteSecond_undecided { s.sys.wake with seen := Nat.lor s.sys.wake.seen (2 ^ src), cands := s.sys.wake.cands ++ [(src, t)] } hdec]

theorem wakeEvent_closed (src : Nat) (t : Stamp) (s : State) (hrec : s.sys.wake.recording = false) : wakeEvent src t s = s := by
  unfold wakeEvent
  rw [if_pos (by simp [hrec])]

/-- A status that neither refuses nor fails is noted without a count. -/
theorem hostStatus_quiet (st : Nat) (s : State) (h : refusing st = false) :
    hostStatus st s = { s with h.port.presult := st, h.port.prevDeferred := false } := by
  unfold hostStatus
  rw [if_neg (by simp [h])]

/-- A RESUME that is not refused: its status is noted beside the wake event (R87). -/
theorem runResume_answers (st : Nat) (s : State) (hst : resumeStatus s.time.now s = st) (hquiet : refusing st = false) :
    runResume s = { wakeEvent 0 s.time.now s with h.port.presult := st, h.port.prevDeferred := false } := by
  unfold runResume
  rw [hst, hostStatus_quiet st _ hquiet]

/-- The wake record as a decision for the candidate `p` sets it, before a second source is noted (R83, R86). -/
def wakeChosen (s : State) (p : Nat × Stamp) : Wake :=
  { s.sys.wake with
    decided := true, armed := false, primary := p.1, t1 := p.2
    pulse := if p.1 = 0 then s.sys.wake.pulse else some (s.time.now + fieldOf s 0x20 8 8 * 100000)
    out := s.sys.wake.out || p.1 != 0 }

/-- The decision over a complete entry with a candidate past the horizon: the host die is reinitialised into BUILD (R68, R85). -/
theorem wakeDecide_decides (s : State) (c : Nat × Stamp) (r : List (Nat × Stamp)) (hmode : s.sys.mode = .standby) (hent : s.sys.entering = false)
    (hdec : s.sys.wake.decided = false) (hrec : s.sys.wake.recording = true) (hcands : s.sys.wake.cands = c :: r)
    (hpast : ∃ x ∈ c :: r, tickOf x.2 + 2 ≤ sysTick s) :
    ∃ l, wakeDecide s = { reinitHost s with
      sys.wake := noteSecond (wakeChosen s (r.foldl earlier c)), sys.mode := .build, sys.rstCause := 256, sys.buildAt := s.time.now
      sys.holdLine := true, sys.safeOut := .high, h.listeners := l } := by
  have hany : s.sys.wake.cands.any (fun c => decide (tickOf c.2 + 2 ≤ sysTick s)) = true := by
    rw [hcands]
    simpa using hpast
  unfold wakeDecide
  dsimp only
  rw [if_neg (by simp [hmode, hent, hdec, hrec]), if_neg (by simp [hany])]
  split
  case h_1 hnone => cases hnone.symm.trans hcands
  case h_2 c' r' hsome =>
    cases hsome.symm.trans hcands
    rw [modePins_safe _ (.inl rfl)]
    exact ⟨_, rfl⟩

/-- Settles O21: an event recorded, a decision made, a pulse ended and a RESUME answered, each from its own equation. -/
theorem wakeArbiterDecides : Obligations.WakeArbiterDecides := by
  unfold Obligations.WakeArbiterDecides
  refine ⟨?event, ?decision, ?pulse, ?resume, ?late⟩
  case event => exact fun s src stamp hrec hen hsrc => congrArg Host.Outcome.next (wakeEvent_recorded src stamp s hrec hen hsrc)
  case decision =>
    intro s c r hmode hent hdec hrec hcands hpast
    obtain ⟨l, e⟩ := wakeDecide_decides s c r hmode hent hdec hrec hcands hpast
    have hexec : exec .wakeDecision s = .next (newChallenge (wakeDecide s)) := by
      refine congrArg Host.Outcome.next (if_pos ⟨?_, hmode⟩)
      rw [e]
    refine ⟨_, hexec, ?_⟩
    obtain ⟨fr, g, ch, hchal⟩ := newChallenge_shape (wakeDecide s)
    obtain ⟨c2, t2, hsecond⟩ := noteSecond_shape (wakeChosen s (r.foldl earlier c))
    have hout : ∀ n : Nat, n ≠ 0 → (s.sys.wake.out || n != 0) = true := fun n hn => by simp [hn]
    rw [hchal, e, hsecond]
    refine ⟨rfl, rfl, rfl, rfl, rfl, hrec, rfl, rfl, fun hne => ⟨hout _ hne, if_neg hne⟩, rfl, rfl, rfl, rfl, rfl, rfl⟩
  case pulse =>
    intro s p hp hdue
    show Host.Outcome.next (pulseEnd s) = _
    unfold pulseEnd
    rw [hp]
    exact congrArg Host.Outcome.next (if_pos hdue)
  case resume =>
    intro s x hx hmode hrec hdec hcands
    have hstatus : resumeStatus s.time.now (received x s) = 0x10 := by
      simp [resumeStatus, received, hmode, hdec, hcands]
    have hrun : runResume (received x s) = { received x s with
        sys.wake.seen := Nat.lor s.sys.wake.seen 1, sys.wake.cands := [(0, s.time.now)], h.port.presult := 0x10, h.port.prevDeferred := false } := by
      have hfirst : (received x s).sys.wake.cands = [] := hcands
      rw [runResume_answers 0x10 (received x s) hstatus rfl, wakeEvent_undecided 0 _ (received x s) hrec rfl (by decide) hdec, hfirst]
      rfl
    exact congrArg Host.Outcome.next ((hostTxn_whole hx).trans (congrArg (answered x s) hrun))
  case late =>
    intro s x hx hlive hrec
    have hstatus : resumeStatus s.time.now (received x s) = 0x12 := by
      cases hm : s.sys.mode <;> simp_all [resumeStatus, received, Mode.live]
    have hrun : runResume (received x s) = { received x s with h.port.presult := 0x12, h.port.prevDeferred := false } := by
      rw [runResume_answers 0x12 (received x s) hstatus rfl, wakeEvent_closed 0 _ (received x s) hrec]
    exact congrArg Host.Outcome.next ((hostTxn_whole hx).trans (congrArg (answered x s) hrun))

end Sys2Proof.Laws
end

section
/-! Time alignment, remote accesses and image transfer across the link (O47): the row of a message that is in the inbox runs its handler, and the handler has one equation for each case. -/

namespace Sys2Proof.Laws

open Sys2Proof Sys2Proof.Machine

/-! ## Fields of a part of a message -/

theorem slice_drop (bs : Bytes) (a off n : Nat) : slice (bs.drop a) off n = slice bs (a + off) n := by
  simp only [slice, List.drop_drop]

/-- The bytes from an offset to the end. -/
theorem slice_end (bs : Bytes) (a n : Nat) (h : bs.length = a + n) : slice bs a n = bs.drop a := by
  have hlen : (bs.drop a).length = n := by simp [h]
  simp [slice, ← hlen]

/-- A field of the section table entry that an IMAGE ENTRY message carries from its byte 8 on (Table TAHR-3). -/
theorem fieldLE_entry (p : Bytes) (off n : Nat) (h : p.length = 56) : fieldLE (slice p 8 48) off n = fieldLE p (8 + off) n := by
  unfold fieldLE
  rw [slice_end p 8 48 h, slice_drop]

/-! ## Messages taken -/

/-- An IMAGE message of an OP in the inbox of the field die is handled. -/
theorem imageMsg_found {op : Nat} {run : XMsg → State → State} {s u : State} {m : XMsg}
    (h : takeInbox true (fun m => m.typ == 6 && fieldLE m.payload 0 1 == op) s = some (m, u)) : imageMsg op run s = run m u := by
  unfold imageMsg
  rw [h]

theorem execTimesyncRx_field {s u : State} {m : XMsg} (arr : Nat)
    (h : takeInbox true (fun m => m.typ == 2 && fieldLE m.payload 0 1 == 1) s = some (m, u)) :
    exec (.timesyncRx true arr) s = .next (timesyncAtField m arr u) := by
  simp only [exec, execTimesyncRx, if_true, h]

theorem execTimesyncRx_host {s u : State} {m : XMsg} (arr : Nat)
    (h : takeInbox false (fun m => m.typ == 2 && fieldLE m.payload 0 1 == 2) s = some (m, u)) :
    exec (.timesyncRx false arr) s = .next (timesyncAtHost m arr u) := by
  simp only [exec, execTimesyncRx, Bool.false_eq_true, if_false, h]

theorem execRemoteRead_found {s u : State} {m : XMsg}
    (h : takeInbox true (fun m => m.typ == 3 && fieldLE m.payload 0 1 == 1) s = some (m, u)) :
    exec .remoteRead s = .next (remoteReadExec m u) := by
  simp only [exec, execRemoteRead, h]

theorem execRemoteWrite_found {s u : State} {m : XMsg}
    (h : takeInbox true (fun m => m.typ == 3 && fieldLE m.payload 0 1 == 2) s = some (m, u)) :
    exec .remoteWrite s = .next (remoteWriteExec m u) := by
  simp only [exec, execRemoteWrite, h]

theorem execImageResult_found {s u : State} {m : XMsg} (h : takeInbox false (fun m => m.typ == 6) s = some (m, u)) :
    exec .imageResult s = .next (imageResult m u) := by
  simp only [exec, execImageResult, h]

/-! ## Time alignment (R620, R621) -/

theorem timesyncRequest_syncT1 (s : State) : (timesyncRequest s).h.tahr.syncT1 = s.time.now := by
  unfold timesyncRequest
  dsimp only
  generalize _ ++ le 8 (ofSigned 64 s.h.tahr.ofs) = p
  obtain ⟨fe, rg, e, _⟩ := sendMsg_host 2 0 s.time.now p { s with h.tahr.syncT1 := s.time.now }
  rw [e]

/-! ## Remote reads (R213, R872) -/

/-- The addresses of a read request's one entry. -/
def readRun (a n : Nat) : List Nat := (List.range (min 256 n)).map (fun i => a + 4 * i)

theorem remoteReadExec_master {m : XMsg} {a n : Nat} {r : List (Nat × Nat)} (u : State) (hent : remoteEntries m = (a, n) :: r) (ho : m.origin ≠ 4) :
    remoteReadExec m u = remoteReply m.origin (fieldLE m.payload 2 2) 0 0 (fnow u) (readWords true (originOf m.origin) (readRun a n) u).2
      (readWords true (originOf m.origin) (readRun a n) u).1 := by
  simp only [remoteReadExec, hent, List.headD_cons, if_neg ho, readRun]

theorem remoteReadExec_debug {m : XMsg} {a n : Nat} {r : List (Nat × Nat)} (u : State) (hent : remoteEntries m = (a, n) :: r) (ho : m.origin = 4) :
    remoteReadExec m u = remoteReply 4 (fieldLE m.payload 2 2) 0 0 (fnow u)
      ((readRun a n).map (fun x => BitVec.ofNat 32 (peekAt true .debug u x))) u := by
  simp only [remoteReadExec, hent, List.headD_cons, if_pos ho, readRun]

/-! ## The field die's image (R98, R124) -/

/-- A field start message in a state that accepts it (R98). -/
theorem fieldStart_accepted (m : XMsg) (u : State)
    (h : u.f.state = .wait ∨ u.f.state = .fbuild ∨ u.f.state = .alone ∨ (u.f.state = .frun ∨ u.f.state = .fhold) ∧ u.f.hold = true) :
    fieldStart m u =
      { fieldReset .fbuild true u with f.newDigest := slice m.payload 8 48, f.fe.train := true, h.tahr.fe.train := true } := by
  unfold fieldStart
  refine if_pos ?_
  rcases h with h | h | h | ⟨h | h, hold⟩ <;> simp [*]

theorem fieldStart_dropped (m : XMsg) (u : State) (h : u.f.state = .frun ∨ u.f.state = .fhold) (hold : u.f.hold = false) :
    fieldStart m u = bump u 0x82002C 0 16 1 := by
  unfold fieldStart
  refine if_neg ?_
  rcases h with h | h <;> simp [*]

/-- A section table entry for the field die, of a length it has room for. -/
theorem imageEntry_taken (m : XMsg) (u : State) (hstate : u.f.state = .fbuild) (hlen : m.payload.length = 56)
    (hdie : fieldLE m.payload 11 1 = 1 ∨ fieldLE m.payload 11 1 = 2) (hsize : fieldLE m.payload 16 4 ≤ 0x1000000) :
    imageEntry m u = { u with
      f.entries := u.f.entries.filter (fun x => x.1 != fieldLE m.payload 2 2) ++ [(fieldLE m.payload 2 2, slice m.payload 8 48)]
      f.data := u.f.data.filter (fun x => x.1 != fieldLE m.payload 2 2) ++ [(fieldLE m.payload 2 2, [])] } := by
  have hentry : ¬ (m.payload.length ≠ 56 ∨ 2 < fieldLE (slice m.payload 8 48) 3 1 ∨ fieldLE (slice m.payload 8 48) 3 1 = 0) := by
    rw [show fieldLE (slice m.payload 8 48) 3 1 = fieldLE m.payload 11 1 from fieldLE_entry _ 3 1 hlen]
    omega
  have hroom : ¬ fieldLE (slice m.payload 8 48) 8 4 > 0x1000000 := by
    rw [show fieldLE (slice m.payload 8 48) 8 4 = fieldLE m.payload 16 4 from fieldLE_entry _ 8 4 hlen]
    omega
  simp only [imageEntry, hstate, ne_eq, not_true_eq_false, if_false, if_neg hentry, if_neg hroom]

/-- Section bytes put in at their index. -/
def withSection (i : Nat) (d : Bytes) (u : State) : State :=
  { u with f.data := u.f.data.map (fun x => if x.1 = i then (i, d) else x) }

/-- Bytes that continue a section of the field die and stay within it: a whole section is checked against its HASH. -/
theorem imageData_continues {m : XMsg} {u : State} {i j : Nat} {e d : Bytes} (hstate : u.f.state = .fbuild)
    (hentry : u.f.entries.find? (fun x => x.1 == fieldLE m.payload 2 2) = some (i, e))
    (hdata : u.f.data.find? (fun x => x.1 == fieldLE m.payload 2 2) = some (j, d)) (hoff : fieldLE m.payload 4 4 = d.length)
    (hfits : d.length + (m.payload.length - 8) ≤ fieldLE e 8 4) :
    imageData m u =
      let whole := d ++ m.payload.drop 8
      let w := withSection (fieldLE m.payload 2 2) whole u
      if whole.length = fieldLE e 8 4 then
        sendResult (if padTo 32 (Config.sha256 whole) = slice e 16 32 then 0 else 1) (fieldLE m.payload 2 2) w
      else w := by
  simp only [imageData, hstate, ne_eq, not_true_eq_false, if_false, hentry, hdata, hoff, if_neg (Nat.not_lt.mpr hfits), withSection]

theorem stageField_newDigest (sects : List Sect) (s : State) : (stageField sects s).f.newDigest = s.f.newDigest := rfl

/-- The sections that the field die was told of, parsed. -/
def toldSections (u : State) : List Sect :=
  u.f.entries.map (fun p =>
    parseSect (fieldLE p.2 0 2) (fieldLE p.2 2 1) (fieldLE p.2 3 1) (match u.f.data.find? (fun d => d.1 == p.1) with | some d => d.2 | none => []))

theorem imageCommit_verified (u : State) (hstate : u.f.state = .fbuild) (hver : fieldVerified u = true) :
    imageCommit u =
      let w := stageField (toldSections u) u
      { w with f.digest := w.f.newDigest, f.matrix := recs w 0x0A 0, f.flt.active := true, f.flt.rings := [] } := by
  unfold imageCommit
  rw [if_neg (by simp [hstate, hver])]
  rfl

theorem imageCommit_unverified (u : State) (hver : fieldVerified u = false) : imageCommit u = u := by
  unfold imageCommit
  rw [if_pos (by simp [hver])]

/-! ## Results at the host die (R76, R124) -/

theorem raise_img (src detail : Nat) (s : State) : (raise src detail s).h.img = s.h.img := by
  obtain ⟨p1, p2, e⟩ := raise_shape src detail s
  rw [e]

theorem sendImage_img (op idx off : Nat) (rest : Bytes) (s : State) : (sendImage op idx off rest s).h.img = s.h.img := by
  obtain ⟨fe, rg, e, _⟩ := sendImage_shape op idx off rest s
  rw [e]

/-- A result counts toward the slot or leaves its code; the commit it may set off changes the image's notes no further. -/
theorem imageResult_img (m : XMsg) (s : State) :
    (imageResult m s).h.img = if fieldLE m.payload 0 1 = 0 then { s.h.img with fieldOk := s.h.img.fieldOk + 1 }
      else { s.h.img with fieldCode := fieldLE m.payload 0 1 } := by
  unfold imageResult
  by_cases hr : fieldLE m.payload 0 1 = 0
  · simp only [if_pos hr]
    (repeat' split) <;> simp only [raise_img, sendImage_img]
  · simp only [if_neg hr]
    (repeat' split) <;> simp only [raise_img, sendImage_img]

/-! ## The statement -/

/-- Settles O47: each message is taken from its inbox, and what handles it has an equation for each case. -/
theorem crossingRequestsTakeEffect : Obligations.CrossingRequestsTakeEffect := by
  unfold Obligations.CrossingRequestsTakeEffect
  refine ⟨?start, ?atField, ?atHost, ?remoteRead, ?remoteWrite, ?fieldStart, ?entry, ?data, ?commit, ?abort, ?result⟩
  case start =>
    intro s hon htrain
    exact ⟨_, congrArg Host.Outcome.next (if_pos (by simp [hon, htrain])), timesyncRequest_syncT1 s⟩
  case atField => exact fun s u m arr h => execTimesyncRx_field arr h
  case atHost =>
    refine fun s u m arr h => ⟨fun hn => ?_, fun hn => ?_⟩
    · exact (execTimesyncRx_host arr h).trans (congrArg Host.Outcome.next (if_neg (not_not.mpr hn)))
    · exact (execTimesyncRx_host arr h).trans (congrArg Host.Outcome.next (if_pos hn))
  case remoteRead =>
    refine fun s u m a n r h hent => ⟨fun ho => ?_, fun ho => ?_⟩
    · exact (execRemoteRead_found h).trans (congrArg Host.Outcome.next (remoteReadExec_master u hent ho))
    · exact (execRemoteRead_found h).trans (congrArg Host.Outcome.next (remoteReadExec_debug u hent ho))
  case remoteWrite => exact fun s u m h => (execRemoteWrite_found h).trans rfl
  case fieldStart =>
    refine fun s u m h => ⟨fun hacc => ⟨_, congrArg Host.Outcome.next (imageMsg_found h), ?_⟩, fun ⟨hstate, hhold⟩ => ?_⟩
    · rw [fieldStart_accepted m u hacc]
      exact ⟨rfl, rfl, rfl, rfl, rfl, rfl⟩
    · exact congrArg Host.Outcome.next ((imageMsg_found h).trans (fieldStart_dropped m u hstate hhold))
  case entry =>
    exact fun s u m h hstate hlen hdie hsize =>
      congrArg Host.Outcome.next ((imageMsg_found h).trans (imageEntry_taken m u hstate hlen hdie hsize))
  case data =>
    intro s u m i j e d h hstate hentry hdata hoff hfits
    have hrun := (imageMsg_found (run := imageData) h).trans (imageData_continues hstate hentry hdata hoff hfits)
    exact ⟨fun hpart => congrArg Host.Outcome.next (hrun.trans (if_neg (Nat.ne_of_lt hpart))),
      fun hwhole => congrArg Host.Outcome.next (hrun.trans (if_pos hwhole))⟩
  case commit =>
    intro s u m h hstate
    refine ⟨fun hver => ⟨_, congrArg Host.Outcome.next (imageMsg_found h), ?_⟩, fun hver => ?_⟩
    · rw [imageCommit_verified u hstate hver]
      exact ⟨stageField_newDigest (toldSections u) u, rfl⟩
    · exact congrArg Host.Outcome.next ((imageMsg_found h).trans (imageCommit_unverified u hver))
  case abort => exact fun s u m h => congrArg Host.Outcome.next (imageMsg_found h)
  case result =>
    refine fun s u m h => ⟨fun hbad => ⟨_, execImageResult_found h, ?_⟩, fun hok => ⟨_, execImageResult_found h, ?_⟩⟩
    · rw [imageResult_img, if_neg hbad]
      exact ⟨rfl, rfl⟩
    · rw [imageResult_img, if_pos hok]

end Sys2Proof.Laws
end

section
/-! Reports, records and bodies sent across the link, and FRUN entry (O48): what each send and each message taken does, and the parts of the field die that FRUN entry touches. -/

namespace Sys2Proof.Laws

open Sys2Proof Sys2Proof.Machine

/-! ## Reports at the host die (R245, R779) -/

theorem execFieldFaultReport_found {s u : State} {m : XMsg}
    (h : takeInbox false (fun m => m.typ == 4 && dueMsg s false m) s = some (m, u)) : exec .fieldFaultReport s = .next (handleReport m u) := by
  simp only [exec, execFieldFaultReport, h]

theorem execFieldJournalReport_found {s u : State} {m : XMsg}
    (h : takeInbox false (fun m => m.typ == 9 && dueMsg s false m) s = some (m, u)) : exec .fieldJournalReport s = .next (journalReport m u) := by
  simp only [exec, execFieldJournalReport, h]

/-- The journal's entries of a register write that the field die reports. -/
def reportJournalled (m : XMsg) (u : State) : State :=
  jChange (fieldLE m.payload 0 8) (fieldLE m.payload 16 1)
    [(1, fieldLE m.payload 17 1, le 4 (fieldLE m.payload 8 4) ++ le 4 (fieldLE m.payload 12 4))] u

/-- A register write reported: journalled, and a write of level 2 by a governed origin holds the register (R140, R245). -/
theorem journalReport_write (m : XMsg) (u : State) (h : fieldLE m.payload 8 4 < 0xFFFF0000) :
    journalReport m u =
      if fieldLE m.payload 17 1 = 2 ∧ Origin.governed (originOf (fieldLE m.payload 16 1)) = true then
        { reportJournalled m u with h.img.holds := KMap.put (reportJournalled m u).h.img.holds (fieldLE m.payload 8 4) (fieldLE m.payload 16 1) }
      else reportJournalled m u := by
  unfold journalReport
  exact if_neg (Nat.not_le.mpr h)

theorem jChange_f (stamp origin : Nat) (es : List (Nat × Nat × Bytes)) (s : State) : (jChange stamp origin es s).f = s.f := by
  obtain ⟨j, k1, k2, k3, rg, e, _⟩ := jChange_shape stamp origin es s
  rw [e]
  rfl

/-! ## Reports and records of the field die (R662, R778) -/

theorem sendReport_sends {s : State} {p : Bytes} {r : List Bytes} (hq : s.f.flt.reports = p :: r)
    (hstate : s.f.state = .frun ∨ s.f.state = .fhold ∨ s.f.state = .alone) (hint : minintOver s true 4 0 = true) :
    sendReport s = fieldSend 4 0 p { s with f.flt.reports := r } := by
  unfold sendReport
  rw [hq]
  exact if_pos ⟨hstate, hint⟩

/-- The head of the record queue taken at its tick, 1,000 ticks after the one before. -/
def recordTaken (r : List (Nat × Bytes)) (s : State) : State := { s with f.meas.queue := r, f.meas.lastSend := some (tickOf (fnow s)) }

/-- A record that is due: dropped and counted in ALONE without its hold bit, and sent or held otherwise (R629, R678). -/
theorem recordSend_due {s : State} {t : Nat} {b : Bytes} {r : List (Nat × Bytes)} (hq : s.f.meas.queue = (t, b) :: r)
    (ht : t ≤ tickOf (fnow s)) (hlast : ∀ x, s.f.meas.lastSend = some x → x + 1000 ≤ tickOf (fnow s)) :
    recordSend s =
      if s.f.state = .alone then
        (if bit (reg s 0x820014) 1 then fieldSend 7 0 b (bump (recordTaken r s) 0x800024 0 16 1) else bump (recordTaken r s) 0x800024 24 8 1)
      else fieldSend 7 0 b (bump (recordTaken r s) 0x800024 0 16 1) := by
  have hdue : ¬ ((match s.f.meas.lastSend with | some x => decide (tickOf (fnow s) < x + 1000) | none => false) || decide (tickOf (fnow s) < t)) = true := by
    have hlate : decide (tickOf (fnow s) < t) = false := by simpa using ht
    rw [hlate, Bool.or_false]
    cases hx : s.f.meas.lastSend with
    | none => simp
    | some x => simpa using hlast x hx
  unfold recordSend
  dsimp only
  rw [hq]
  exact if_neg hdue

/-! ## Frames and bodies sent by the host die (R613, R614) -/

theorem fcanToField_sends {s u : State} {n : Nat} {f : Frame} (hcredit : nth s.h.tahr.credits n 0 ≠ 0) (hint : minintOver s false 8 n = true)
    (hf : scheduled s (40 + n) = some (f, u)) :
    fcanToField n s = (sendMsg false 8 0 u.time.now ([byte n, 0, 0, 0] ++ f.bytes) (useCredit n u)).1 := by
  unfold fcanToField
  rw [if_neg (by simp [hcredit, hint]), hf]

theorem fcanToField_noCredit {s : State} {n : Nat} (h : nth s.h.tahr.credits n 0 = 0) : fcanToField n s = s := by
  unfold fcanToField
  rw [if_pos (.inl h)]

/-- The body at the head of port 69: sent under its origin and type, or refused and counted. -/
theorem catalogueSend_taken {s u : State} {f : Frame} (h : takeHead s 69 = some (f, u)) :
    catalogueSend s = match inportOrigin f.inport with
      | some o =>
        if 4 ≤ f.bytes.length ∧ 0x0F10 ≤ fieldLE f.bytes 0 2 ∧ fieldLE f.bytes 0 2 ≤ 0x0F3F
        then (sendMsg false (fieldLE f.bytes 0 2 - 0x0F00) o u.time.now (f.bytes.drop 4) u).1
        else bump u 0x600014 0 16 1
      | none => bump u 0x600014 0 16 1 := by
  unfold catalogueSend
  rw [h]
  cases ho : inportOrigin f.inport with
  | none => simp only [ho]
  | some o =>
    by_cases hc : 4 ≤ f.bytes.length ∧ 0x0F10 ≤ fieldLE f.bytes 0 2 ∧ fieldLE f.bytes 0 2 ≤ 0x0F3F
    · have hn : ¬ (f.bytes.length < 4 ∨ fieldLE f.bytes 0 2 < 0x0F10 ∨ 0x0F3F < fieldLE f.bytes 0 2) := by omega
      simp only [ho, if_pos hc, if_neg hn]
    · have hn : f.bytes.length < 4 ∨ fieldLE f.bytes 0 2 < 0x0F10 ∨ 0x0F3F < fieldLE f.bytes 0 2 := by omega
      simp only [ho, if_neg hc, if_pos hn]

/-! ## The FS's mailbox (R615) -/

theorem bit_forced (v : Word) (i : Nat) : bit (forced v i 1 1) i = true :=
  beq_iff_eq.mpr (show bits (forced v i 1 1) i 1 = 1 from bits_putBits v.toNat i 1 1)

/-- A write of FSUP.TXCTL with SEND sends the body. -/
theorem regEffect_txctl (old v : Nat) (u : State) (h : bit v 24 = true) : regEffect true .fs 0x820020 old v u = fsSend v u := by
  show (if bit v 24 = true then fsSend v u else u) = _
  rw [if_pos h]

theorem clearRc_shape (fs : Bool) (d : RegDef) (o : Origin) (a : Nat) (s : State) : ∃ rg, clearRc fs d o a s = { s with regs := rg } := by
  unfold clearRc
  dsimp only
  split
  · exact ⟨s.regs, rfl⟩
  · split
    · exact ⟨s.regs, rfl⟩
    · exact ⟨_, rfl⟩

/-- A read of FSUP.RXPOP by the FS pops the receive FIFO, with no effect beside on anything but registers. -/
theorem masterRead_rxpop (s : State) :
    ∃ rg, masterRead .fs 0x820024 s =
      { (match s.f.fifo with | [] => s | m :: r => { s with f.fifo := r, f.rbuf := padTo 1024 m.payload }) with regs := rg } := by
  obtain ⟨d, hd⟩ := Option.isSome_iff_exists.mp (show (regAt 0x820024).isSome = true by decide)
  have hread : masterRead .fs 0x820024 s = clearRc true d .fs 0x820024 (popEffect 0x820024 s) := by
    show (readReg true .fs 0x820024 s).1 = _
    unfold readReg
    rw [hd]
  obtain ⟨rg, e⟩ := clearRc_shape true d .fs 0x820024 (popEffect 0x820024 s)
  rw [hread, e]
  exact ⟨rg, rfl⟩

/-! ## FRUN entry (R74, R596, R630) -/

theorem canInitEffect_field (n : Nat) (old new : Bool) (s : State) (h : 24 ≤ n) : ∃ cs, canInitEffect n old new s = { s with f.can := cs } := by
  have hset : ∀ c, setCan s n c = { s with f.can := s.f.can.set (n - 24) c } := fun c => if_neg (Nat.not_lt.mpr h)
  have hport : ∀ u, canPortState n u = u := fun u => if_neg (Nat.not_lt.mpr h)
  unfold canInitEffect
  dsimp only
  simp only [hport, hset]
  (repeat' split) <;> exact ⟨_, rfl⟩

/-- The measurement channels of the field die start, and nothing beside them changes. -/
theorem startAll_field (s : State) : ∃ m, startAll false s = { s with f.meas := m } := by
  unfold startAll
  refine List.foldlRecOn _ _ (motive := fun (t : State) => ∃ m, t = { s with f.meas := m }) ⟨s.f.meas, rfl⟩ ?_
  rintro t ⟨m, e⟩ r _
  split
  case isFalse => exact ⟨m, e⟩
  case isTrue =>
    unfold startChan
    split
    · exact ⟨m, e⟩
    · rw [e]
      exact ⟨_, rfl⟩

/-- The held messages released: the link takes them. -/
theorem releaseHeld_shape (s : State) : ∃ fe, releaseHeld s = { s with f.held := [], f.fe := fe } := by
  unfold releaseHeld
  refine List.foldlRecOn _ _ (motive := fun (t : State) => ∃ fe, t = { s with f.held := [], f.fe := fe }) ⟨s.f.fe, rfl⟩ ?_
  rintro t ⟨fe, e⟩ m _
  obtain ⟨fe', e'⟩ := enqueueMsg_field m.typ m.origin (fnow t) m.payload t
  rw [e', e]
  exact ⟨fe', rfl⟩

/-- The field die as it enters FRUN from FBUILD, before its units start. -/
def frunBegun (s : State) : State :=
  { s with f.state := .frun, f.wdog := some (fnow s + wdInterval s), f.wdExpired := false, f.statusNext := 0 }

/-- The FCAN controllers whose INIT is 0 begin integration. -/
def startFcans (s : State) : State :=
  (List.range 8).foldl (fun s n => if bit (reg s (canReg (24 + n) 0)) 0 then s else canInitEffect (24 + n) true false s) s

theorem startFcans_shape (s : State) : ∃ cs, startFcans s = { s with f.can := cs } := by
  unfold startFcans
  refine List.foldlRecOn _ _ (motive := fun (t : State) => ∃ cs, t = { s with f.can := cs }) ⟨s.f.can, rfl⟩ ?_
  rintro t ⟨cs, e⟩ n _
  split
  case isTrue => exact ⟨cs, e⟩
  case isFalse =>
    obtain ⟨cs', e'⟩ := canInitEffect_field (24 + n) true false t (Nat.le_add_right 24 n)
    rw [e', e]
    exact ⟨cs', rfl⟩

theorem frunEntry_fresh (s : State) (hstate : s.f.state = .fbuild) (hsome : s.f.digest ≠ []) (hdigest : s.f.digest = s.f.newDigest)
    (halign : s.f.aligned = true) :
    frunEntry s = permitUpdate (hartStart true (releaseHeld (startAll false (startFcans (frunBegun s))))) := by
  have hfresh : (s.f.state == .fbuild && !s.f.digest.isEmpty && s.f.digest == s.f.newDigest && s.f.aligned) = true := by
    simp [hstate, ← hdigest, halign, hsome]
  unfold frunEntry
  exact if_pos hfresh

theorem frunEntry_back (s : State) (hstate : s.f.state = .alone) (hdigest : s.f.digest = s.f.newDigest) (halign : s.f.aligned = true)
    (htrain : s.f.fe.train = false) (hhb : fnow s < s.f.fe.lastHb + 1000000) :
    frunEntry s = permitUpdate (releaseHeld { s with f.state := .frun }) := by
  have hfresh : ¬ (s.f.state == .fbuild && !s.f.digest.isEmpty && s.f.digest == s.f.newDigest && s.f.aligned) = true := by
    simp [hstate]
  have hback : (s.f.state == .alone && s.f.aligned && !s.f.fe.train && s.f.digest == s.f.newDigest &&
      decide (fnow s < s.f.fe.lastHb + 1000000)) = true := by
    simp [hstate, hdigest, halign, htrain, hhb]
  unfold frunEntry
  exact (if_neg hfresh).trans (if_pos hback)

/-- What starts with FRUN leaves the state and the watchdog of the field die. -/
theorem frunEntry_fresh_state (s : State) :
    let t := permitUpdate (hartStart true (releaseHeld (startAll false (startFcans (frunBegun s)))))
    t.f.state = .frun ∧ t.f.wdog = some (fnow s + wdInterval s) := by
  obtain ⟨cs, hcan⟩ := startFcans_shape (frunBegun s)
  obtain ⟨m, hmeas⟩ := startAll_field (startFcans (frunBegun s))
  obtain ⟨fe, hheld⟩ := releaseHeld_shape (startAll false (startFcans (frunBegun s)))
  obtain ⟨g, hpermit⟩ := permitUpdate_shape (hartStart true (releaseHeld (startAll false (startFcans (frunBegun s)))))
  rw [hpermit, hheld, hmeas, hcan]
  exact ⟨rfl, rfl⟩

/-! ## The statement -/

/-- Settles O48: each row is one equation of the operation that it runs. -/
theorem crossingMessagesAreSentAndTaken : Obligations.CrossingMessagesAreSentAndTaken := by
  unfold Obligations.CrossingMessagesAreSentAndTaken
  refine ⟨fun _ _ _ h => execFieldFaultReport_found h, ?journal, ?report, ?record, ?fcan, ?noCredit, ?catalogue, ?send, ?pop, ?empty, ?fresh, ?back⟩
  case journal =>
    intro s u m h hwrite
    refine ⟨_, execFieldJournalReport_found h, ?_⟩
    rw [journalReport_write m u hwrite]
    split
    case isTrue hold => exact ⟨rfl, jChange_f _ _ _ u, fun _ _ => get?_put_same _ _ _⟩
    case isFalse hfree => exact ⟨rfl, jChange_f _ _ _ u, fun hlevel hgov => absurd ⟨hlevel, hgov⟩ hfree⟩
  case report => exact fun s p r hq hstate hint => congrArg Host.Outcome.next (sendReport_sends hq hstate hint)
  case record =>
    intro s t b r hq ht hlast
    have hsend := recordSend_due hq ht hlast
    refine ⟨fun halone hbit => ?_, fun hsent => ?_⟩
    · refine congrArg Host.Outcome.next (hsend.trans ((if_pos halone).trans (if_neg ?_)))
      rw [bit_testBit, hbit]
      exact Bool.false_ne_true
    · refine congrArg Host.Outcome.next (hsend.trans ?_)
      by_cases halone : s.f.state = .alone
      · refine (if_pos halone).trans (if_pos ?_)
        rw [bit_testBit]
        exact hsent.resolve_left (not_not.mpr halone)
      · exact if_neg halone
  case fcan =>
    exact fun s u n f hn hcredit hint hf => congrArg Host.Outcome.next ((if_pos hn).trans (fcanToField_sends hcredit hint hf))
  case noCredit =>
    intro s n hcredit
    show Host.Outcome.next (if n < 8 then fcanToField n s else s) = _
    rw [fcanToField_noCredit hcredit, ite_self]
  case catalogue => exact fun s u f h => congrArg Host.Outcome.next (catalogueSend_taken h)
  case send =>
    exact fun s v hp => ⟨_, rfl, masterWrite_storesFs s 0x820020 _ _ hp (putBits_lt _ 24 1 1 v.isLt (by decide)) rfl (fun _ _ => rfl)
      fun old u => regEffect_txctl old _ u (bit_forced v 24)⟩
  case pop =>
    intro s m r hfifo
    obtain ⟨rg, e⟩ := masterRead_rxpop s
    refine ⟨_, rfl, ?_⟩
    rw [e, hfifo]
    exact ⟨rfl, rfl⟩
  case empty =>
    intro s hfifo
    obtain ⟨rg, e⟩ := masterRead_rxpop s
    refine ⟨_, rfl, ?_⟩
    rw [e, hfifo]
    exact ⟨rfl, rfl⟩
  case fresh =>
    intro s hstate hsome hdigest halign
    exact ⟨_, congrArg Host.Outcome.next (frunEntry_fresh s hstate hsome hdigest halign), frunEntry_fresh_state s⟩
  case back =>
    exact fun s hstate hdigest halign htrain hhb => congrArg Host.Outcome.next (frunEntry_back s hstate hdigest halign htrain hhb)

end Sys2Proof.Laws
end

section
/-! The fuses and BUILD's end (O5, O16, O17, O18): the fuses move one way from what every command keeps; one equation or shape for each step of BUILD and of RUN entry, and for a fuse blown. -/

namespace Sys2Proof.Laws

open Sys2Proof Sys2Proof.Machine

/-! ## The fuses under every step -/

/-- Every command moves the fuses one way. -/
theorem exec_otpForward {c : Instr} {s t : State} (e : exec c s = .next t) : otpForward s.otp t.otp :=
  (keeps_exec (allows_nothing c) e (keeps_refl _ s)).holds.fuses

/-- Settles O5: an idle step leaves the fuses, and any other runs a command. -/
theorem fusesMoveOneWay : Obligations.FusesMoveOneWay := by
  unfold Obligations.FusesMoveOneWay
  intro s t e
  unfold step at e
  split at e
  case h_1 =>
    cases e
    exact otpForward_refl s.otp
  case h_2 c rest _ => exact exec_otpForward (s := { s with pending := rest }) e

/-! ## A slot that fails, and BUILD at its limit (R128, R129) -/

/-- A slot's code set: only its own field of IMG.BOOTSTAT changes. -/
theorem setCode_shape (k c : Nat) (s : State) :
    ∃ a b, setCode k c s = { s with h.img.codeA := a, h.img.codeB := b } ∧ (if k = 0 then a else b) = c := by
  unfold setCode
  by_cases hk : k = 0
  · exact ⟨c, s.h.img.codeB, if_pos hk, if_pos hk⟩
  · exact ⟨s.h.img.codeA, c, if_neg hk, if_neg hk⟩

/-- With a slot left, BUILD tries it (R101). -/
theorem tryNext_cons (s : State) {j : Nat} {r : List Nat} (h : s.h.img.rest = j :: r) :
    ∃ fe rg, tryNext s = { s with
      h.img.trying := some j, h.img.rest := r, h.tahr.fe := fe, h.tahr.startSent := true, h.img.fieldCode := 0, h.img.fieldOk := 0, regs := rg } := by
  obtain ⟨fe, rg, e, _⟩ := trySlot_shape j r s
  unfold tryNext
  rw [h]
  exact ⟨fe, rg, e⟩

/-- With none left, BUILD ends in HOLD (R129). -/
theorem tryNext_nil (s : State) (h : s.h.img.rest = []) (hmode : s.sys.mode = .build) :
    ∃ j ms rg, tryNext s = { s with
      h.jrn := j, regs := rg, h.img.trying := none, h.img.rest := [], h.img.committed := false, h.img.buildMs := ms, h.img.image := none
      sys.mode := .hold, sys.noImg := true, sys.holdLine := true, sys.safeOut := .high } := by
  unfold tryNext
  rw [h]
  exact buildHold_shape s hmode

theorem slotFail_failed {s : State} {k : Nat} (hmode : s.sys.mode = .build) (htry : s.h.img.trying = some k) (hcom : s.h.img.committed = false)
    (hcode : slotCode s k s.h.img.fieldCode ≠ 0) :
    slotFail s = tryNext (setCode k (slotCode s k s.h.img.fieldCode) { s with h.img.trying := none }) := by
  unfold slotFail
  rw [htry]
  exact if_neg (by simp [hmode, hcom, hcode])

theorem buildTimeout_trying {s : State} {k : Nat} (hmode : s.sys.mode = .build) (htry : s.h.img.trying = some k)
    (hlimit : s.sys.buildAt + 500000000 ≤ s.time.now) : buildTimeout s = buildHold (setCode k 0x0E s) := by
  unfold buildTimeout
  rw [if_neg (by simp [hmode, hlimit]), htry]

/-- Settles O16: the other slot is tried where there is one, and BUILD ends in HOLD otherwise. -/
theorem failedSlotEndsOrGoesOn : Obligations.FailedSlotEndsOrGoesOn := by
  unfold Obligations.FailedSlotEndsOrGoesOn
  refine ⟨fun s k hmode htry hcom hcode => ?failed, fun s k hmode htry hlimit => ?limit⟩
  case failed =>
    refine ⟨_, congrArg Host.Outcome.next (slotFail_failed hmode htry hcom hcode), ?_⟩
    obtain ⟨a, b, hset, hab⟩ := setCode_shape k (slotCode s k s.h.img.fieldCode) { s with h.img.trying := none }
    rw [hset]
    cases hrest : s.h.img.rest with
    | cons j r =>
      obtain ⟨fe, rg, e⟩ := tryNext_cons { s with h.img.trying := none, h.img.codeA := a, h.img.codeB := b } hrest
      rw [e]
      exact ⟨hab, rfl, rfl, hmode⟩
    | nil =>
      obtain ⟨j, ms, rg, e⟩ := tryNext_nil { s with h.img.trying := none, h.img.codeA := a, h.img.codeB := b } hrest hmode
      rw [e]
      exact ⟨hab, rfl, rfl, rfl, rfl⟩
  case limit =>
    refine ⟨_, congrArg Host.Outcome.next (buildTimeout_trying hmode htry hlimit), ?_⟩
    obtain ⟨a, b, hset, hab⟩ := setCode_shape k 0x0E s
    obtain ⟨j, ms, rg, e⟩ := buildHold_shape { s with h.img.codeA := a, h.img.codeB := b } hmode
    rw [hset, e]
    exact ⟨hab, rfl, rfl, rfl, rfl⟩

/-! ## The commit of BUILD (R122 to R127) -/

/-- What the commit of slot `k` does: its code is 0, its image takes effect, a loss or detection kept by the keeper sets SYS.INTSTAT.KEY, and the field die is told. -/
def slotCommitted (k : Nat) (s : State) : State :=
  sendImage 4 0 0 [] (
    let u := commitHost (parseImage k (slotImage s k)) (setCode k 0 { s with h.img.trying := none, h.img.rest := [], h.img.committed := true })
    if u.keeper.tampReport || u.keeper.lostReport then setInt 7 u else u)

theorem buildCommit_ready {s : State} {k : Nat} (hmode : s.sys.mode = .build) (htry : s.h.img.trying = some k) (hcom : s.h.img.committed = false)
    (hfield : s.h.img.fieldOk = (fieldEntries (slotImage s k)).length ∨ fieldAbsent s = true) :
    buildCommit s = if slotCode s k s.h.img.fieldCode = 0 then slotCommitted k s else s := by
  have hready : (decide (s.h.img.fieldOk = (fieldEntries (slotImage s k)).length) || fieldAbsent s) = true := by simpa using hfield
  unfold buildCommit
  rw [htry]
  by_cases hcode : slotCode s k s.h.img.fieldCode = 0
  · rw [if_pos hcode]
    exact if_neg (by simp only [hmode, hcom, hready, hcode]; simp)
  · rw [if_neg hcode]
    exact if_pos (.inr (.inr (.inr hcode)))

/-! ## RUN entry (R75, R88, R126, R264) -/

/-- In RUN and DEGRADED, out of reset and EXTEST, the hold line is released and SAFE_OUT low (R55, R81). -/
theorem modePins_live (s : State) (h : s.sys.mode.live = true) (hin : s.sys.inReset = none) (hext : s.h.dbg.extest = false) :
    modePins s = { s with sys.holdLine := false, sys.safeOut := .low } := by
  cases hm : s.sys.mode <;> simp_all [modePins, Mode.live]

/-- The IMAGE entry of a BUILD loads the journal (R264). -/
theorem journalImage_shape (im : Image) (s : State) :
    ∃ ms j k1 k2 k3 rg, journalImage im s = withJournal j k1 k2 k3 rg { s with h.img.buildMs := ms } ∧ j.loaded = true := by
  unfold journalImage
  dsimp only
  generalize le 4 im.gen ++ le 2 im.svn ++ im.digest.take 2 = data
  have hloaded := jPut_loaded s.time.now 5 3 im.slot (s.sys.rstCause % 256) data { s with h.img.buildMs := buildMs s, h.jrn.loaded := true }
  obtain ⟨j, k1, k2, k3, rg, e, _⟩ :=
    jPut_shape s.time.now 5 3 im.slot (s.sys.rstCause % 256) data { s with h.img.buildMs := buildMs s, h.jrn.loaded := true }
  rw [e] at hloaded ⊢
  exact ⟨buildMs s, j, k1, k2, k3, rg, rfl, hloaded⟩

/-- RUN begun from BUILD: the mode with its pins, the end of the wake record, and the MP at ENTRY; the journal has the change. -/
theorem startRun_shape (s : State) (hmode : s.sys.mode = .build) (hin : s.sys.inReset = none) (hext : s.h.dbg.extest = false) :
    ∃ j k1 k2 k3 rg, startRun s = withJournal j k1 k2 k3 rg { s with
        sys.degOrigin := 5, sys.mode := .run, sys.holdLine := false, sys.safeOut := .low, sys.wake.recording := false
        h.dbg.haltMp := false, h.dbg.lrMp := false, h.dbg.mpRun := true, h.dbg.mpAt := entryOf s false } ∧
      j.loaded = s.h.jrn.loaded := by
  have hne : s.sys.mode ≠ .run := by simp [hmode]
  obtain ⟨j, k1, k2, k3, rg, e, _, _, hl⟩ := setMode_shape .run 5 { s with sys.degOrigin := 5 } hne
  unfold startRun
  rw [e, modePins_live (withJournal j k1 k2 k3 rg { s with sys.degOrigin := 5, sys.mode := .run }) rfl hin hext]
  exact ⟨j, k1, k2, k3, rg, rfl, hl⟩

/-- The TC10 state of ports 6 to 9 set to NORMAL at RUN entry (R466), with the states of the ports noted. -/
def startT1 (s : State) : State := notePorts ((List.range 4).foldl (fun s i => setT1 (6 + i) 0 s) s)

theorem startT1_shape (s : State) : ∃ e fab rg, startT1 s = { s with h.eth := e, h.fab := fab, regs := rg } := by
  have hfold : ∃ e fab rg, (List.range 4).foldl (fun s i => setT1 (6 + i) 0 s) s = { s with h.eth := e, h.fab := fab, regs := rg } := by
    refine List.foldlRecOn _ _ (motive := fun (t : State) => ∃ e fab rg, t = { s with h.eth := e, h.fab := fab, regs := rg })
      ⟨s.h.eth, s.h.fab, s.regs, rfl⟩ ?_
    rintro t ⟨e, fab, rg, ht⟩ i _
    obtain ⟨tx, bl, rg', ht', _⟩ := setT1_shape (6 + i) 0 t
    rw [ht', ht]
    exact ⟨_, _, rg', rfl⟩
  obtain ⟨e, fab, rg, ht⟩ := hfold
  unfold startT1
  rw [ht]
  exact ⟨e, _, rg, rfl⟩

theorem runEntry_committed {s : State} {im : Image} (hmode : s.sys.mode = .build) (hcom : s.h.img.committed = true) (him : s.h.img.image = some im)
    (hfield : fmode s = 3 ∨ fieldAbsent s = true) :
    runEntry s = wantFuses im (startT1 (startRun (rootEntries (journalImage im s)))) := by
  have hthere : (fmode s == 3 || fieldAbsent s) = true := by simpa using hfield
  unfold runEntry
  rw [him]
  exact if_neg (by simp only [hmode, hcom, hthere]; simp)

/-- Settles O17: the commit is one equation, and RUN entry is read off the shapes of its steps. -/
theorem buildCommitsAndRunBegins : Obligations.BuildCommitsAndRunBegins := by
  unfold Obligations.BuildCommitsAndRunBegins
  refine ⟨fun s k hmode htry hcom hfield => congrArg Host.Outcome.next (buildCommit_ready hmode htry hcom hfield),
    fun s im hmode hin hext hcom him hfield => ⟨_, congrArg Host.Outcome.next (runEntry_committed hmode hcom him hfield), ?_⟩⟩
  obtain ⟨ms, j1, a1, b1, c1, rg1, hjournal, hload1⟩ := journalImage_shape im s
  obtain ⟨j2, kp, rg2, hroot, hload2⟩ := rootEntries_shape (journalImage im s)
  rw [hjournal] at hroot hload2
  obtain ⟨j3, a3, b3, c3, rg3, hrun, hload3⟩ := startRun_shape (rootEntries (journalImage im s)) (by rw [hjournal, hroot]; exact hmode)
    (by rw [hjournal, hroot]; exact hin) (by rw [hjournal, hroot]; exact hext)
  obtain ⟨e, fab, rg4, hports⟩ := startT1_shape (startRun (rootEntries (journalImage im s)))
  obtain ⟨r1, r2, hfuses⟩ := wantFuses_shape im (startT1 (startRun (rootEntries (journalImage im s))))
  rw [hjournal, hroot] at hload3
  rw [hfuses, hports, hrun, hjournal, hroot]
  exact ⟨rfl, rfl, rfl, rfl, rfl, rfl, hload3.trans (hload2.trans hload1), him, rfl, rfl, rfl, rfl⟩

/-! ## A fuse blown (R120, R121, R536) -/

/-- Only the fuses are asked to stand. -/
def Fix.onlyFuses : Fix := { Fix.nothing with otp := True }

/-- An update message that takes effect leaves the fuses: the epoch fuse is blown before it. -/
theorem updCommit_otp (m : Bytes) (epoch : Nat) (ops : List Bytes) (s : State) : (updCommit m epoch ops s).otp = s.otp :=
  (keeps_updCommit (keeps_refl Fix.onlyFuses s) id fun _ => trivial).holds.otp trivial

/-- A fuse of the image blown with its leave: one step of the floor, or the other key slot's revocation. -/
theorem imageFuse_granted {s : State} {im : Image} (him : s.h.img.image = some im) (hleave : holdsLeave s false 7 0 = true) :
    imageFuse s = (
      let u := giveLeave false 7 0 s
      if s.h.img.floorPend then { u with otp.floor := min 64 (s.otp.floor + 1), h.img.floorPend := decide (min 64 (s.otp.floor + 1) < im.svn) }
      else if s.h.img.revokePend then
        { u with otp.revoked1 := s.otp.revoked1 || im.keysel == 0, otp.revoked0 := s.otp.revoked0 || im.keysel != 0, h.img.revokePend := false }
      else u) := by
  unfold imageFuse
  rw [him]
  refine (if_neg (by simp [hleave])).trans ?_
  obtain ⟨a1, a2, hgive⟩ := giveLeave_shape false 7 0 s
  rw [hgive]
  dsimp only
  by_cases hkey : im.keysel = 0
  · simp [hkey]
  · have hother : (im.keysel == 0) = false := by simp [hkey]
    simp only [hkey, hother, bne, Bool.not_false, Bool.or_true, Bool.or_false, if_false]

/-- The epoch fuse blown, with its leave given back. -/
def epochBlown (s : State) : State := giveLeave false 7 1 { s with otp.epoch := min 32 (s.otp.epoch + 1) }

theorem epochBlown_otp (s : State) : (epochBlown s).otp = { s.otp with epoch := min 32 (s.otp.epoch + 1) } := rfl

theorem rootFuse_granted {s : State} (hleave : holdsLeave s false 7 1 = true) :
    rootFuse s = match s.h.keys.rootMsg with
      | none => epochBlown s
      | some m => match updOps m with
        | none => { epochBlown s with h.keys.rootMsg := none }
        | some ops => updCommit m s.otp.epoch ops { epochBlown s with h.keys.rootMsg := none } := by
  unfold rootFuse
  exact if_neg (by simp [hleave])

/-- Settles O18: each fuse is one equation, and the message that follows the epoch fuse leaves the fuses. -/
theorem fusesBlowWithLeave : Obligations.FusesBlowWithLeave := by
  unfold Obligations.FusesBlowWithLeave
  refine ⟨fun s im him hleave => congrArg Host.Outcome.next (imageFuse_granted him hleave), fun s hleave hmsg => congrArg Host.Outcome.next ?idle,
    fun s m hleave hmsg => ⟨_, congrArg Host.Outcome.next (rootFuse_granted hleave), ?message⟩⟩
  case idle =>
    refine (if_pos rfl).trans ?_
    rw [rootFuse_granted hleave, hmsg]
    rfl
  case message =>
    rw [hmsg]
    dsimp only
    cases updOps m with
    | none => exact epochBlown_otp s
    | some ops => exact (updCommit_otp m s.otp.epoch ops _).trans (epochBlown_otp s)

end Sys2Proof.Laws
end

section
/-! Unlock windows, expert holds and plain registers (O27): a write of a bus master as one application on the state with its journal entry, what it leaves of windows and holds, and the registers whose write sets off nothing. -/

namespace Sys2Proof.Laws

open Sys2Proof Sys2Proof.Machine

/-! ## A write as one application -/

/-- A write of a host-die register that passes its checks is applied to the state with the journal's part put in; then the host port's windows close. -/
theorem masterWrite_applies (s : State) (o : Origin) (a v : Nat) (hp : passes s o a v) (hv : v < 2 ^ 32) :
    ∃ j k1 k2 k3 rg, masterWrite o a v s = closeHost o (applyWrite false o a v (withJournal j k1 k2 k3 rg s)) := by
  obtain ⟨d, hd⟩ := regAt_of_passes hp
  obtain ⟨hmaster, hfs, hremote, hmode, hstatus⟩ := hp
  obtain ⟨j, k1, k2, k3, rg, hj, _⟩ := jChange_shape s.time.now o.code (writeEntries s o d a v) s
  have htoNat : (BitVec.ofNat 32 v).toNat = v := by rw [BitVec.toNat_ofNat, Nat.mod_eq_of_lt hv]
  have hwrites : (hostWrites o [(a, v)] s).1 = applyWrite false o a v (jChange s.time.now o.code (writeEntries s o d a v) s) := by
    simp [hostWrites, hmode, checkHostWrites, hstatus, hd]
  refine ⟨j, k1, k2, k3, rg, ?_⟩
  rw [masterWrite, if_pos hmaster, busWrite, if_neg hfs, hremote, if_neg Bool.false_ne_true, htoNat, hwrites, hj]

theorem stored_shape (fs : Bool) (o : Origin) (a v : Nat) (u : State) : ∃ rg, stored fs o a v u = { u with regs := rg } := by
  unfold stored
  split
  · exact ⟨_, rfl⟩
  · exact ⟨u.regs, rfl⟩

/-- The windows of the host die's blocks once the host port's transaction ends (R226). -/
theorem closeHost_windows (o : Origin) (s : State) :
    (closeHost o s).h.port.windows = if o = .hostSpi then KMap.del s.h.port.windows o.code else s.h.port.windows := by
  unfold closeHost
  by_cases ho : o = .hostSpi
  · rw [if_pos ho, if_pos ho, ho]
    rfl
  · rw [if_neg ho, if_neg ho]

/-- An effect that the state after a write's journal part shows in another way is the same write. -/
theorem wrote_congr {s t : State} {G G' : State → State} (h : wrote s G t) (hG : ∀ u, beside [] s u → G u = G' u) : wrote s G' t := by
  obtain ⟨u, hu, ht⟩ := h
  exact ⟨u, hu, by rw [← hG u hu]; exact ht⟩

/-! ## Unlock windows (R225) -/

theorem windowLength_ne_zero (o : Origin) : windowLength o ≠ 0 := by cases o <;> decide

/-- A write of SYS.UNLOCK applied: the value stored, and the writer's window set; no hold is placed by it. -/
theorem applyWrite_unlock (o : Origin) (v : Nat) (u : State) (d : RegDef) (hd : regAt 0x40 = some d) :
    applyWrite false o 0x40 v u = setWindow false o (if v = unlockKey then windowLength o else 0) (stored false o 0x40 v u) := by
  unfold applyWrite stored placeHold
  rw [hd]
  exact if_pos (by simp [isUnlock])

theorem setWindow_windows (o : Origin) (v : Nat) (u : State) :
    (setWindow false o (if v = unlockKey then windowLength o else 0) u).h.port.windows =
      if v = unlockKey then KMap.put u.h.port.windows o.code (windowLength o) else KMap.del u.h.port.windows o.code := by
  by_cases hv : v = unlockKey
  · simp [setWindow, hv, windowLength_ne_zero o]
  · simp [setWindow, hv]

/-- The windows that a write of SYS.UNLOCK leaves. -/
theorem masterWrite_unlock_windows (s : State) (o : Origin) (v : Nat) (hp : passes s o 0x40 v) (hv : v < 2 ^ 32) :
    (masterWrite o 0x40 v s).h.port.windows =
      (let w := if v = unlockKey then KMap.put s.h.port.windows o.code (windowLength o) else KMap.del s.h.port.windows o.code
       if o = .hostSpi then KMap.del w o.code else w) := by
  obtain ⟨d, hd⟩ := regAt_of_passes hp
  obtain ⟨j, k1, k2, k3, rg, happ⟩ := masterWrite_applies s o 0x40 v hp hv
  obtain ⟨rg', hstored⟩ := stored_shape false o 0x40 v (withJournal j k1 k2 k3 rg s)
  rw [happ, closeHost_windows, applyWrite_unlock o v _ d hd, setWindow_windows, hstored]
  rfl

/-! ## Expert holds (R140, R142) -/

theorem governed_of_busMaster (o : Origin) : busMaster o = true → Origin.governed o = true := by
  cases o <;> decide

/-- A hold is placed by a level 2 write of a register of the host die that has no bank (R140). -/
theorem placeHold_host (o : Origin) (d : RegDef) (a : Nat) (s : State) (hbank : d.bank = false) (hunlock : isUnlock a = false) (hgov : Origin.governed o = true) :
    placeHold false o d a s = { s with
      h.img.holds := if permLevel s o (blockOf a) = 2 then KMap.put s.h.img.holds a o.code else s.h.img.holds } := by
  unfold placeHold
  by_cases hlevel : permLevel s o (blockOf a) = 2 <;> simp [hbank, hunlock, hgov, levelOf, hlevel]

/-- The writer's hold on register `r` ended in a list of holds; another's stays. -/
def holdEnded (o : Origin) (r : Nat) (m : KMap Nat) : KMap Nat := if KMap.getD m r 0 = o.code then KMap.del m r else m

/-- What a write of IMG.RELEASE sets off: the named register's hold of the writer ends on both dies (R142). -/
def releaseHold (o : Origin) (v : Nat) (u : State) : State :=
  { u with h.img.holds := holdEnded o (bits v 2 22 * 4) u.h.img.holds, f.holds := holdEnded o (bits v 2 22 * 4) u.f.holds }

theorem regAt_imgRelease_bank {d : RegDef} (hd : regAt 0x40040 = some d) : d.bank = false := by
  have hmap : (regAt 0x40040).map (·.bank) = some false := rfl
  rw [hd] at hmap
  exact Option.some.inj hmap

theorem masterWrite_release_wrote (s : State) (o : Origin) (v : Nat) (hp : passes s o 0x40040 v) (hv : v < 2 ^ 32) :
    wrote s (fun u => stored false o 0x40040 v u) (masterWrite o 0x40040 v s) :=
  masterWrite_stores s o 0x40040 v (releaseHold o v) hp hv rfl (fun _ _ => rfl) (fun _ _ => rfl)

/-- The holds that a write of IMG.RELEASE leaves: the named one ended, and its own placed as by any write. -/
theorem masterWrite_release_holds (s : State) (o : Origin) (v : Nat) (hp : passes s o 0x40040 v) (hv : v < 2 ^ 32) :
    let t := masterWrite o 0x40040 v s
    let ends := holdEnded o (bits v 2 22 * 4)
    t.f.holds = ends s.f.holds ∧
    t.h.img.holds = if permLevel s o (blockOf 0x40040) = 2 then KMap.put (ends s.h.img.holds) 0x40040 o.code else ends s.h.img.holds := by
  obtain ⟨d, hd⟩ := regAt_of_passes hp
  obtain ⟨j, k1, k2, k3, rg, happ⟩ := masterWrite_applies s o 0x40040 v hp hv
  obtain ⟨hmaster, _⟩ := hp
  obtain ⟨rg', hstored⟩ := stored_shape false o 0x40040 v (withJournal j k1 k2 k3 rg s)
  have hset : applyWrite false o 0x40040 v (withJournal j k1 k2 k3 rg s) =
      placeHold false o d 0x40040 (windowAfter (withJournal j k1 k2 k3 rg s) o 0x40040 v
        (releaseHold o v (stored false o 0x40040 v (withJournal j k1 k2 k3 rg s)))) := by
    unfold applyWrite stored
    rw [hd]
    rfl
  obtain ⟨w1, w2, hwindow⟩ := windowAfter_shape (withJournal j k1 k2 k3 rg s) o 0x40040 v
    (releaseHold o v (stored false o 0x40040 v (withJournal j k1 k2 k3 rg s)))
  obtain ⟨w1', w2', hclose⟩ := closeHost_shape o (applyWrite false o 0x40040 v (withJournal j k1 k2 k3 rg s))
  dsimp only
  rw [happ, hclose, hset, placeHold_host o d 0x40040 _ (regAt_imgRelease_bank hd) rfl (governed_of_busMaster o hmaster), hwindow, hstored]
  exact ⟨rfl, rfl⟩

/-- What a write of IMG.RELEASEREC sets off: the writer's hold on the named record ends (R142). -/
def releaseRec (o : Origin) (v : Nat) (u : State) : State :=
  let k := liveKey (bits v 0 7) (bits v 16 16)
  if KMap.getD u.h.img.recHolds k 0 = o.code then { u with h.img.recHolds := KMap.del u.h.img.recHolds k } else u

/-- The holds on records are those from before the write: neither the journal nor the store of the value touches them. -/
theorem releaseRec_stored {s u : State} (o : Origin) (v : Nat) (h : beside [] s u) :
    releaseRec o v (stored false o 0x40048 v u) =
      (let k := liveKey (bits v 0 7) (bits v 16 16)
       let w := stored false o 0x40048 v u
       if KMap.getD s.h.img.recHolds k 0 = o.code then { w with h.img.recHolds := KMap.del s.h.img.recHolds k } else w) := by
  obtain ⟨hu, _⟩ := h
  obtain ⟨rg, hstored⟩ := stored_shape false o 0x40048 v u
  have hrec : (stored false o 0x40048 v u).h.img.recHolds = s.h.img.recHolds := by
    rw [hstored, hu]
  unfold releaseRec
  rw [hrec]

/-! ## Plain registers (R138) -/

/-- A plain register is none whose value stands elsewhere. -/
theorem plain_stores {a : Nat} (h : plain a = true) : storesElsewhere a = false := by
  simp only [plain, Bool.and_eq_true, Bool.not_eq_true'] at h
  obtain ⟨⟨_, hstore⟩, _⟩ := h
  exact hstore

/-- The plain registers from AUD on are those of HSNS. -/
theorem plain_high {a : Nat} (hlow : ¬ a < 0x500000) (h : plain a = true) : 0x580010 ≤ a ∧ a < 0x580200 := by
  have h1 : ¬ a < 0x100000 := by omega
  have h2 : ¬ a < 0x400000 := by omega
  have h3 : ¬ a < 0x420000 := by omega
  have h4 : ¬ a < 0x440000 := by omega
  simp only [plain, h1, h2, h3, h4, hlow, if_false, Bool.and_eq_true, decide_eq_true_eq] at h
  exact h.2

/-- No plain register holds a gain or a coefficient. -/
theorem plain_before {a : Nat} (h : plain a = true) (old v : Nat) (u : State) : beforeWrite a old v u = u := by
  have hrange : a < 0x500000 ∨ 0x580010 ≤ a := by
    by_cases hlow : a < 0x500000
    · exact .inl hlow
    · exact .inr (plain_high hlow h).1
  unfold beforeWrite
  rw [if_neg (by omega), if_neg (by omega), if_neg (by omega)]

/-- A plain register of the blocks below FAB sets off nothing. -/
theorem effectLow_plain {a : Nat} (hlow : a < 0x100000) (h : plain a = true) (o : Origin) (v : Nat) (u : State) : effectLow o a v u = u := by
  have hstore := plain_stores h
  simp only [storesElsewhere, Bool.or_eq_false_iff, beq_eq_false_iff_ne] at hstore
  obtain ⟨⟨⟨⟨⟨⟨hofsl, hofsh⟩, htamp⟩, _⟩, _⟩, _⟩, _⟩ := hstore
  simp only [plain, hlow, if_true, Bool.and_eq_true, Bool.not_eq_true', List.contains_eq_mem, decide_eq_false_iff_not, List.mem_cons,
    List.not_mem_nil, or_false, not_or] at h
  obtain ⟨_, h14, h1C, h60, hrate, hrel, hrec, hflt, hinj, hshed, hret, hage⟩ := h
  simp only [effectLow, h14, h1C, h60, hrate, hofsl, hofsh, hrel, hrec, hflt, hinj, hshed, hret, hage, htamp, if_false]

/-- A plain register of FAB, GTW, CAN or LIN sets off nothing. -/
theorem effectNet_plain {a : Nat} (hlow : ¬ a < 0x100000) (hhigh : a < 0x440000) (h : plain a = true) (o : Origin) (old v : Nat) (u : State) :
    effectNet false o a old v u = u := by
  unfold effectNet
  by_cases hgtw : a < 0x400000
  · simp only [plain, hlow, hgtw, if_true, if_false, Bool.and_eq_true, Bool.not_eq_true', Bool.or_eq_false_iff, beq_eq_false_iff_ne] at h
    obtain ⟨_, ⟨⟨hplane, hlt⟩, hgbl⟩, hgbh⟩ := h
    have hoffl : (a - 0x100000) % 0x1000 ≠ 0x98 := by omega
    have hoffh : (a - 0x100000) % 0x1000 ≠ 0x9C := by omega
    simp only [hplane, hlt, hoffl, hoffh, hgtw, if_true, if_false, ite_self]
  · have hplane : a ≠ 0x10C000 := by omega
    have hlt : a ≠ 0x210004 := by omega
    have hfab : ¬ a < 0x200000 := by omega
    by_cases hcan : a < 0x420000
    · simp only [plain, hlow, hgtw, hcan, if_true, if_false, Bool.and_eq_true, bne_iff_ne] at h
      obtain ⟨_, hctl, habort⟩ := h
      simp only [hplane, hfab, hlt, hgtw, hcan, hctl, habort, if_true, if_false, ite_self]
    · simp only [plain, hlow, hgtw, hcan, hhigh, if_true, if_false, Bool.and_eq_true, bne_iff_ne] at h
      obtain ⟨_, hlin⟩ := h
      simp only [hplane, hfab, hlt, hgtw, hcan, hlin, if_false]

/-- A plain register of ETH sets off nothing. -/
theorem effectEth_plain {a : Nat} (hlow : ¬ a < 0x440000) (hhigh : a < 0x500000) (h : plain a = true) (v : Nat) (u : State) :
    effectEth a v u = u := by
  have h1 : ¬ a < 0x100000 := by omega
  have h2 : ¬ a < 0x400000 := by omega
  have h3 : ¬ a < 0x420000 := by omega
  simp only [plain, h1, h2, h3, hlow, hhigh, if_true, if_false, Bool.and_eq_true, Bool.not_eq_true', Bool.or_eq_false_iff, beq_eq_false_iff_ne,
    bne_iff_ne, Bool.and_eq_false_iff, decide_eq_false_iff_not] at h
  obtain ⟨_, ⟨⟨hmdio, ⟨⟨hctl, ht1⟩, hplca⟩, hplca2⟩, hcredit⟩, hsa⟩ := h
  unfold effectEth
  dsimp only
  rw [if_neg hmdio, if_neg hctl, if_neg ht1, if_neg (by omega), if_neg (by omega), if_neg (by omega)]

/-- A plain register of HSNS sets off nothing. -/
theorem effectHigh_plain {a : Nat} (hlow : 0x580010 ≤ a) (hhigh : a < 0x580200) (old v : Nat) (u : State) : effectHigh a old v u = u := by
  unfold effectHigh
  iterate 12 rw [if_neg (by omega)]

/-- A write of a plain register sets off nothing beside the value it leaves. -/
theorem regEffect_plain {a : Nat} (h : plain a = true) (o : Origin) (old v : Nat) (u : State) : regEffect false o a old v u = u := by
  unfold regEffect
  by_cases h1 : a < 0x100000
  · rw [if_pos h1, effectLow_plain h1 h]
  by_cases h2 : a < 0x440000
  · rw [if_neg h1, if_pos h2, effectNet_plain h1 h2 h]
  by_cases h3 : a < 0x500000
  · rw [if_neg h1, if_neg h2, if_pos h3, effectEth_plain h2 h3 h]
  · obtain ⟨hfrom, hto⟩ := plain_high h3 h
    rw [if_neg h1, if_neg h2, if_neg h3, if_neg (by omega), effectHigh_plain hfrom hto]

/-! ## The statement -/

/-- Settles O27: each register's write is one application, whose windows and holds are read off. -/
theorem windowsHoldsAndPlainRegisters : Obligations.WindowsHoldsAndPlainRegisters := by
  unfold Obligations.WindowsHoldsAndPlainRegisters
  refine ⟨fun s o v hp => ⟨_, rfl, ?unlock, ?windows⟩, fun s o field => ?expire, fun s o v hp => ⟨_, rfl, ?release, ?holds⟩,
    fun s o v hp => ⟨_, rfl, ?record⟩, fun s o a v hp hplain => ⟨_, rfl, ?plain⟩⟩
  case unlock => exact masterWrite_stores s o 0x40 v.toNat id hp v.isLt rfl (fun _ _ => rfl) (fun _ _ => rfl)
  case windows => exact masterWrite_unlock_windows s o v.toNat hp v.isLt
  case expire => cases field <;> rfl
  case release => exact masterWrite_release_wrote s o v.toNat hp v.isLt
  case holds => exact masterWrite_release_holds s o v.toNat hp v.isLt
  case record =>
    exact wrote_congr (masterWrite_stores s o 0x40048 v.toNat (releaseRec o v.toNat) hp v.isLt rfl (fun _ _ => rfl) (fun _ _ => rfl))
      fun u hu => releaseRec_stored o v.toNat hu
  case plain =>
    exact masterWrite_stores s o a v.toNat id hp v.isLt (plain_stores hplain) (fun old u => plain_before hplain old v.toNat u)
      (fun old u => regEffect_plain hplain o old v.toNat u)

end Sys2Proof.Laws
end

section
/-! The queue of commands and the commit of a tick (O1, O22): a step runs one command, and a tick committed moves SYSCNT to the start of the next. -/

namespace Sys2Proof.Laws

open Sys2Proof Sys2Proof.Machine

/-! ## The queue (log entry 1) -/

theorem step_cons (c : Instr) (rest : List Instr) (s : State) : step { s with pending := c :: rest } = exec c { s with pending := rest } := rfl

theorem step_idle {s : State} (h : s.pending = []) : step s = .next s := by
  unfold step
  rw [h]

/-- Settles O1: the two branches of `step`. -/
theorem stepRunsFrontCommand : Obligations.StepRunsFrontCommand :=
  ⟨step_cons, fun _ h => step_idle h⟩

/-! ## The commit of a tick (R163) -/

/-- No domain's commit moves SYSCNT, a reset of the host die among them. -/
theorem commitTick_now (j : Nat) (s : State) : (commitTick j s).time.now = s.time.now :=
  (keeps_commitTick (keeps_refl Fix.onlyNow s)).holds.now trivial

theorem audioTick_now (codes : List Int) (s : State) : (audioTick codes s).time.now = s.time.now :=
  (keeps_audioTick (keeps_refl Fix.onlyNow s)).holds.now trivial

theorem intPins_time (s : State) : (intPins s).time = s.time := rfl

/-- The timebase one tick further stands at the start of that tick, whether or not a rate takes effect. -/
theorem advanceTime_now (s : State) : (advanceTime s).time.now = (s.time.now / 8 + 1) * 8 := by
  unfold advanceTime
  dsimp only
  split
  case isTrue => split <;> rfl
  case isFalse => rfl

theorem tickCommit_running {s : State} (codes : List Int) (h : s.time.running = true) :
    tickCommit codes s = (
      let u := commitTick (curTick s) s
      intPins (if u.time.running then audioTick codes (advanceTime u) else u)) := by
  unfold tickCommit
  exact if_neg (by simp [h])

theorem tickCommit_stopped {s : State} (codes : List Int) (h : s.time.running = false) : tickCommit codes s = s := by
  unfold tickCommit
  exact if_pos (by simp [h])

/-- A tick's commit leaves SYSCNT at the start of the next tick, or, where it has stopped SYSCNT, where it was. -/
theorem tickCommit_now {s : State} (codes : List Int) (h : s.time.running = true) :
    (tickCommit codes s).time.now = (s.time.now / 8 + 1) * 8 ∨
      ((tickCommit codes s).time.now = s.time.now ∧ (commitTick (curTick s) s).time.running = false) := by
  rw [tickCommit_running codes h]
  dsimp only
  rw [intPins_time]
  cases hrun : (commitTick (curTick s) s).time.running with
  | true =>
    left
    rw [if_pos rfl, audioTick_now, advanceTime_now, commitTick_now]
  | false =>
    right
    rw [if_neg Bool.false_ne_true, commitTick_now]
    exact ⟨rfl, rfl⟩

/-- Settles O22, by whether SYSCNT runs. -/
theorem tickCommits : Obligations.TickCommits := by
  unfold Obligations.TickCommits
  refine ⟨fun s codes hrun => ⟨?commit, _, rfl, tickCommit_now codes hrun⟩, fun s codes hstop => ?idle⟩
  case commit => exact congrArg Host.Outcome.next (tickCommit_running codes hrun)
  case idle => exact congrArg Host.Outcome.next (tickCommit_stopped codes hstop)

end Sys2Proof.Laws
end

section
/-! Writes of the timebase registers and of SYS.DEGCAUSE (O23), and what a read of TIM.NOWL loads. -/

namespace Sys2Proof.Laws

open Sys2Proof Sys2Proof.Machine

/-! ## Writes whose value stands elsewhere than in the register file -/

/-- A host-die register whose written value stands elsewhere: where its checks pass, the write sets off the register's effect alone. -/
theorem masterWrite_elsewhere (s : State) (o : Origin) (a v : Nat) (E : State → State) (hp : passes s o a v) (hv : v < 2 ^ 32)
    (hstore : storesElsewhere a = true) (hbefore : ∀ old u, beforeWrite a old v u = u)
    (heffect : ∀ old u, regEffect false o a old v u = E u) :
    wrote s E (masterWrite o a v s) :=
  masterWrite_wrote s o a v _ hp hv fun d u _ => by
    have hwritten : written false o d a v u = u := (if_pos hstore).trans (hbefore _ u)
    rw [heffect, hwritten]

theorem beside_time {A : List Nat} {s u : State} (h : beside A s u) : u.time = s.time := by
  obtain ⟨hu, _⟩ := h
  rw [hu]

/-- What an effect leaves of the timebase stands after the write. -/
theorem wrote_time {α : Type} {s t : State} {G : State → State} (view : Time → α) (h : wrote s G t) (hG : ∀ u, view (G u).time = view u.time) :
    view t.time = view s.time := by
  obtain ⟨u, hu, ht⟩ := h
  have htime : t.time = (G u).time := by rw [ht]
  rw [htime, hG, beside_time hu]

theorem stored_time (fs : Bool) (o : Origin) (a v : Nat) (u : State) : (stored fs o a v u).time = u.time := by
  obtain ⟨rg, e⟩ := stored_shape fs o a v u
  rw [e]

/-! ## TIM.RATE and TIM.PTPOFS (R152, R176, R177) -/

/-- What a write of TIM.PTPOFSH sets off: both halves take effect, the low one as held, or as it stands where none is held. -/
def ptpofsSet (v : Nat) (u : State) : State :=
  { u with time.ptpofs := v * 2 ^ 32 + u.time.ofslHeld.getD (u.time.ptpofs % 2 ^ 32), time.ofslHeld := none }

theorem masterWrite_rate (s : State) (o : Origin) (v : Nat) (hp : passes s o 0x30008 v) (hv : v < 2 ^ 32) :
    wrote s (fun u => { stored false o 0x30008 v u with time.rateNext := some (toSigned 32 v) }) (masterWrite o 0x30008 v s) :=
  masterWrite_stores s o 0x30008 v (fun u => { u with time.rateNext := some (toSigned 32 v) }) hp hv rfl (fun _ _ => rfl) (fun _ _ => rfl)

theorem masterWrite_ptpofsl (s : State) (o : Origin) (v : Nat) (hp : passes s o 0x3000C v) (hv : v < 2 ^ 32) :
    wrote s (fun u => { u with time.ofslHeld := some v }) (masterWrite o 0x3000C v s) :=
  masterWrite_elsewhere s o 0x3000C v _ hp hv rfl (fun _ _ => rfl) (fun _ _ => rfl)

/-- The half held is the one from before the write, whose journal part does not touch the timebase. -/
theorem masterWrite_ptpofsh (s : State) (o : Origin) (v : Nat) (hp : passes s o 0x30010 v) (hv : v < 2 ^ 32) :
    wrote s (fun u => { u with time.ptpofs := v * 2 ^ 32 + s.time.ofslHeld.getD (s.time.ptpofs % 2 ^ 32), time.ofslHeld := none })
      (masterWrite o 0x30010 v s) :=
  wrote_congr (masterWrite_elsewhere s o 0x30010 v (ptpofsSet v) hp hv rfl (fun _ _ => rfl) (fun _ _ => rfl)) fun u hu => by
    unfold ptpofsSet
    rw [beside_time hu]

/-! ## Reads that take effect (R10, R158) -/

/-- A register without RC fields: a read clears nothing. -/
def clearsNothing (d : RegDef) : Bool := d.fields.all (fun f => f.acc != .rc)

theorem clearRc_clearsNothing {d : RegDef} (h : clearsNothing d = true) (fs : Bool) (o : Origin) (a : Nat) (s : State) :
    clearRc fs d o a s = s := by
  have hfold : ∀ (l : List Field) (n : Nat), l.all (fun f => f.acc != .rc) = true →
      l.foldl (fun v f => if f.acc = .rc then putBits v f.lo f.width 0 else v) n = n := by
    intro l
    induction l with
    | nil => exact fun _ _ => rfl
    | cons f r ih =>
      intro n hl
      rw [List.all_cons, Bool.and_eq_true, bne_iff_ne] at hl
      rw [List.foldl_cons, if_neg hl.1, ih n hl.2]
  unfold clearRc
  dsimp only
  rw [if_pos (hfold d.fields _ h), ite_self]

/-- A read of a host-die register without RC fields by a bus master makes the register's pop or load and nothing else. -/
theorem masterRead_pops {o : Origin} {a : Nat} (s : State) (ho : busMaster o = true) (hfs : o ≠ .fs) (hremote : isRemote a = false)
    (hclear : (regAt a).map clearsNothing = some true) : masterRead o a s = popEffect a s := by
  obtain ⟨d, hd, hnone⟩ := Option.map_eq_some_iff.mp hclear
  have hread : masterRead o a s = (readReg false o a s).1 := by
    unfold masterRead
    rw [if_neg (by simp [ho]), if_neg hfs, if_neg (by simp [hremote])]
  rw [hread, readReg, hd]
  exact clearRc_clearsNothing hnone false o a _

/-! ## SYS.DEGCAUSE (R61) -/

/-- SYS.DEGCAUSE has no bank: a write of it stores at its own address. -/
theorem stored_degcause (o : Origin) (v : Nat) (u : State) : ∃ x, stored false o 0x1C v u = setReg u 0x1C x := by
  obtain ⟨d, hd, hbank⟩ := Option.map_eq_some_iff.mp (show (regAt 0x1C).map (·.bank) = some false by decide)
  have hkey : storeKey false d o 0x1C = 0x1C := by
    show bankKey d o 0x1C = 0x1C
    rw [bankKey, if_neg (by simp [hbank])]
  unfold stored
  rw [hd]
  dsimp only
  rw [hkey]
  exact ⟨_, rfl⟩

/-- A register among those named may change once more. -/
theorem beside_setReg {A : List Nat} {s u : State} {a : Nat} (v : Nat) (h : beside A s u) (ha : a ∈ A) : beside A s (setReg u a v) := by
  obtain ⟨hu, hregs, hwf⟩ := h
  refine ⟨by rw [hu]; rfl, fun b hb hA => ?_, fun hs => regFile_set_wf _ _ _ (hwf hs)⟩
  have hba : b ≠ a := fun e => hA (e ▸ ha)
  exact (regFile_get_set_ne u.regs a b _ hba).trans (hregs b hb hA)

/-- The windows and the holds may change once more. -/
theorem beside_withTail {A : List Nat} {s u : State} (w1 w2 h1 h2 : KMap Nat) (h : beside A s u) : beside A s (withTail w1 w2 h1 h2 u) := by
  obtain ⟨hu, hregs, hwf⟩ := h
  exact ⟨by rw [hu]; rfl, hregs, hwf⟩

theorem beside_nil {s u : State} (A : List Nat) (h : beside [] s u) : beside A s u := by
  obtain ⟨hu, hregs, hwf⟩ := h
  exact ⟨hu, fun b hb _ => hregs b hb List.not_mem_nil, hwf⟩

/-- A field of a register cleared reads 0. -/
theorem fieldOf_setField_zero (u : State) (a lo w : Nat) (hwf : RegFile.wf u.regs = true) (h : lo + w ≤ 32) :
    fieldOf (setField u a lo w 0) a lo w = 0 := by
  have hlt : putBits (reg u a) lo w 0 < 2 ^ 32 := putBits_lt _ lo w 0 (BitVec.isLt _) h
  unfold fieldOf setField
  rw [reg_setReg u a a _ hwf, if_pos rfl, Nat.mod_eq_of_lt hlt, bits_putBits, Nat.zero_mod]

/-- What a write of 1 to SYS.DEGCAUSE.REACT sets off: the field reads 0, and the writer's origin is noted (Table JRN-13). -/
def reactCleared (o : Origin) (u : State) : State := { setField u 0x1C 0 1 0 with sys.degOrigin := o.code }

theorem masterWrite_degcause (s : State) (o : Origin) (hwf : RegFile.wf s.regs = true) (hp : passes s o 0x1C 1) :
    ∃ u, beside [0x1C] s u ∧ fieldOf u 0x1C 0 1 = 0 ∧ masterWrite o 0x1C 1 s = { u with sys.degOrigin := o.code } := by
  obtain ⟨u, hu, ht⟩ := masterWrite_stores s o 0x1C 1 (reactCleared o) hp (by decide) rfl (fun _ _ => rfl) (fun _ _ => rfl)
  obtain ⟨x, hx⟩ := stored_degcause o 1 u
  have hstored : beside [0x1C] s (setReg u 0x1C x) := beside_setReg x (beside_nil [0x1C] hu) (List.mem_singleton_self _)
  have hregs : RegFile.wf (setReg u 0x1C x).regs = true := by
    obtain ⟨_, _, hkeep⟩ := hstored
    exact hkeep hwf
  obtain ⟨w1, w2, h1, h2, htail⟩ : ∃ w1 w2 h1 h2, masterWrite o 0x1C 1 s = withTail w1 w2 h1 h2 (reactCleared o (stored false o 0x1C 1 u)) :=
    ⟨_, _, _, _, ht⟩
  refine ⟨withTail w1 w2 h1 h2 (setField (setReg u 0x1C x) 0x1C 0 1 0), ?_, ?_, ?_⟩
  · exact beside_withTail _ _ _ _ (beside_setReg _ hstored (List.mem_singleton_self _))
  · exact fieldOf_setField_zero (setReg u 0x1C x) 0x1C 0 1 hregs (by decide)
  · rw [htail, hx]
    rfl

/-! ## The statement -/

/-- Settles O23: each write has its effect law, and the read of TIM.NOWL makes its load alone. -/
theorem timebaseAndDegcauseTakeEffect : Obligations.TimebaseAndDegcauseTakeEffect := by
  unfold Obligations.TimebaseAndDegcauseTakeEffect
  refine ⟨⟨fun s o v hp => ⟨_, rfl, ?rate⟩, fun s o v hp => ⟨_, rfl, ?low⟩, fun s o v hp => ⟨_, rfl, ?high⟩, fun s o hmaster hfs => ?nowl⟩,
    fun s o hwf hp => ?react⟩
  case rate =>
    have hwrote := masterWrite_rate s o v.toNat hp v.isLt
    refine ⟨hwrote, wrote_time Time.rate hwrote fun u => ?_⟩
    show (stored false o 0x30008 v.toNat u).time.rate = u.time.rate
    rw [stored_time]
  case low =>
    have hwrote := masterWrite_ptpofsl s o v.toNat hp v.isLt
    exact ⟨hwrote, wrote_time Time.ptpofs hwrote fun _ => rfl⟩
  case high => exact masterWrite_ptpofsh s o v.toNat hp v.isLt
  case nowl => exact congrArg Host.Outcome.next (masterRead_pops s hmaster hfs rfl rfl)
  case react =>
    obtain ⟨u, hbeside, hclear, hwrite⟩ := masterWrite_degcause s o hwf hp
    exact ⟨u, hbeside, hclear, congrArg Host.Outcome.next hwrite⟩

end Sys2Proof.Laws
end

section
/-! Events of the Ethernet ports (O39): frames received, collisions, PLCA writes, and the ring of transmit stamps. -/

namespace Sys2Proof.Laws

open Sys2Proof Sys2Proof.Machine

/-! ## Frames received (R167, R457, R459) -/

/-- A frame of a length that its port takes, in time and with a right FCS, that is no MAC control frame: what MACsec leaves of it is counted and submitted. -/
theorem ethReceive_good {p : Nat} {stamp : Stamp} {f : Bytes} {s : State} (hlate : isLate s stamp = false) (hmin : 60 ≤ f.length)
    (hmax : f.length + 4 ≤ fieldOf s (ethReg p 0) 16 14) (htype : fieldBE f 12 2 ≠ 0x8808) :
    ethReceive p stamp f true s = match macsecRx p f s with
      | (u, none) => u
      | (u, some b) => submitAt p stamp stamp 0 3 b false 0 (bump u (ethReg p 0x40) 0 32 1) := by
  have hlong : ¬ fieldOf s (ethReg p 0) 16 14 < f.length + 4 := by omega
  have hrunt : ¬ f.length + 4 < 64 := by omega
  cases hrx : macsecRx p f s with
  | mk u body => cases body <;> simp [ethReceive, hlong, hrunt, hlate, htype, hrx]

/-- A frame of such a length, in time but with a wrong FCS: counted, and entered as an errored body. -/
theorem ethReceive_badFcs {p : Nat} {stamp : Stamp} {f : Bytes} {s : State} (hlate : isLate s stamp = false) (hmin : 60 ≤ f.length)
    (hmax : f.length + 4 ≤ fieldOf s (ethReg p 0) 16 14) :
    ethReceive p stamp f false s = submitAt p stamp stamp 0 3 f true 0 (bump s (ethReg p 0x44) 0 16 1) := by
  have hlong : ¬ fieldOf s (ethReg p 0) 16 14 < f.length + 4 := by omega
  have hrunt : ¬ f.length + 4 < 64 := by omega
  have hlate' : isLate (bump s (ethReg p 0x44) 0 16 1) stamp = false := hlate
  simp [ethReceive, hlong, hrunt, hlate']

/-- A frame at a port of a running host die, by its stamp. -/
theorem execEthRxFrame_on {p : Nat} {s : State} (stamp : Nat) (f : Bytes) (ok : Bool) (hp : p ≤ 11) (hon : hostOn s = true) :
    exec (.ethRxFrame p stamp f ok) s = .next (if isLate s stamp then dropLate s else ethReceive p stamp f ok s) := by
  show Host.Outcome.next (if _ then _ else _) = _
  rw [if_neg (by simp [hon, hp])]

/-! ## Collisions (R469) -/

theorem ethCollide_sending {p : Nat} {f : Frame} {s : State} (hp : p = 10 ∨ p = 11) (hf : KMap.get? s.h.fab.txing p = some f) :
    ethCollide p s =
      if 16 ≤ (ethOf s p).attempts then
        setEth (bump { s with h.fab.txing := KMap.del s.h.fab.txing p } (ethReg p 0x50) 16 16 1) p { ethOf s p with attempts := 0, plcaRestart := false }
      else setEth s p { ethOf s p with attempts := (ethOf s p).attempts + 1 } := by
  unfold ethCollide
  rw [if_neg (by omega), hf]

/-! ## Registers of a port's page -/

theorem ethReg_page {off : Nat} (p : Nat) (h : off < 0x10000) : (ethReg p off - 0x440000) / 0x10000 = p := by
  unfold ethReg
  omega

theorem ethReg_offset {off : Nat} (p : Nat) (h : off < 0x10000) : (ethReg p off - 0x440000) % 0x10000 = off := by
  unfold ethReg
  omega

/-- The offsets of ETH.PLCA and ETH.PLCA2. -/
def plcaOff (second : Bool) : Nat := if second then 0x10 else 0x0C

theorem plcaOff_cases (second : Bool) : plcaOff second = 0xC ∨ plcaOff second = 0x10 := by cases second <;> decide

/-- A PLCA register's page lies in the ETH block. -/
theorem ethReg_plca_range {p : Nat} (second : Bool) (hp : p ≤ 11) : 0x440000 ≤ ethReg p (plcaOff second) ∧ ethReg p (plcaOff second) < 0x500000 := by
  have hoff := plcaOff_cases second
  unfold ethReg
  omega

theorem storesElsewhere_plca {p : Nat} (second : Bool) (hp : p ≤ 11) : storesElsewhere (ethReg p (plcaOff second)) = false := by
  obtain ⟨hlow, hhigh⟩ := ethReg_plca_range second hp
  have hoff := ethReg_offset p (off := plcaOff second) (by have := plcaOff_cases second; omega)
  have hcases := plcaOff_cases second
  simp only [storesElsewhere, Bool.or_eq_false_iff, Bool.and_eq_false_iff, beq_eq_false_iff_ne, decide_eq_false_iff_not]
  omega

/-- A write of a PLCA register restarts PLCA and sets off nothing else. -/
theorem regEffect_plca {p : Nat} (second : Bool) (hp : p ≤ 11) (o : Origin) (old v : Nat) (u : State) :
    regEffect false o (ethReg p (plcaOff second)) old v u = plcaEffect p u := by
  obtain ⟨hlow, hhigh⟩ := ethReg_plca_range second hp
  have hcases := plcaOff_cases second
  have hoff := ethReg_offset p (off := plcaOff second) (by omega)
  have hpage := ethReg_page p (off := plcaOff second) (by omega)
  unfold regEffect
  rw [if_neg (by omega), if_neg (by omega), if_pos hhigh]
  unfold effectEth
  dsimp only
  rw [hoff, hpage, if_neg (by omega), if_neg (by omega), if_neg (by omega), if_pos hcases]

theorem beforeWrite_below {a : Nat} (h : a < 0x502000) (old v : Nat) (u : State) : beforeWrite a old v u = u := by
  unfold beforeWrite
  rw [if_neg (by omega), if_neg (by omega), if_neg (by omega)]

theorem masterWrite_plca (s : State) (o : Origin) {p : Nat} (second : Bool) (v : Nat) (hp : p ≤ 11)
    (hpass : passes s o (ethReg p (plcaOff second)) v) (hv : v < 2 ^ 32) :
    wrote s (fun u => plcaEffect p (stored false o (ethReg p (plcaOff second)) v u)) (masterWrite o (ethReg p (plcaOff second)) v s) := by
  obtain ⟨_, hhigh⟩ := ethReg_plca_range second hp
  exact masterWrite_stores s o _ v (plcaEffect p) hpass hv (storesElsewhere_plca second hp)
    (fun old u => beforeWrite_below (by omega) old v u) (fun old u => regEffect_plca second hp o old v u)

/-! ## The ring of transmit stamps (R475) -/

theorem tstx0_clearsNothing {p : Nat} (hp : p ≤ 11) : (regAt (ethReg p 0x20)).map clearsNothing = some true := by
  have hall : ∀ p ≤ 11, (regAt (ethReg p 0x20)).map clearsNothing = some true := by decide
  exact hall p hp

/-- A read of ETH.TSTX0 pops the port's ring and loads the companion registers. -/
theorem popEffect_tstx0 {p : Nat} (hp : p ≤ 11) (s : State) :
    popEffect (ethReg p 0x20) s = match (ethOf s p).ring with
      | [] => setReg (setReg s (ethReg p 0x24) 0) (ethReg p 0x28) 0
      | r :: rest => setReg (setReg (setEth s p { ethOf s p with ring := rest }) (ethReg p 0x24) (r.stamp / 2 ^ 32)) (ethReg p 0x28)
          (pack [(0, 16, r.seqId), (16, 4, r.msgType), (20, 1, 1), (24, 8, r.domain)]) := by
  have hoff := ethReg_offset p (off := 0x20) (by decide)
  have hpage := ethReg_page p (off := 0x20) (by decide)
  have hrange : ethReg p 0x20 ≠ 0x30000 ∧ 0x440000 ≤ ethReg p 0x20 ∧ ethReg p 0x20 < 0x500000 := by
    unfold ethReg
    omega
  obtain ⟨hnowl, hlow, hhigh⟩ := hrange
  unfold popEffect
  dsimp only
  cases hring : (ethOf s p).ring <;> rw [if_neg hnowl, if_pos ⟨hlow, hhigh, hoff⟩, hpage, hring]

theorem masterRead_tstx0 {p : Nat} {o : Origin} (s : State) (hp : p ≤ 11) (hmaster : busMaster o = true) (hfs : o ≠ .fs) :
    masterRead o (ethReg p 0x20) s = popEffect (ethReg p 0x20) s := by
  have hlocal : isRemote (ethReg p 0x20) = false :=
    Bool.and_eq_false_iff.mpr (.inl (decide_eq_false (by unfold ethReg; omega)))
  exact masterRead_pops s hmaster hfs hlocal (tstx0_clearsNothing hp)

/-! ## The statement -/

/-- Settles O39: one equation for each event. -/
theorem ethernetPortsTakeEvents : Obligations.EthernetPortsTakeEvents := by
  unfold Obligations.EthernetPortsTakeEvents
  refine ⟨fun s p stamp f hp hon hlate hmin hmax htype => ?good, fun s p stamp f hp hon hlate hmin hmax => ?badFcs,
    fun s p stamp f ok hp hon hlate => ?late, fun s p sqi up an hp => ?link, fun s p f hp hf => ?collision,
    fun s o p b v hp hpass => ⟨_, rfl, ?plca⟩, fun s o p hp hmaster hfs => ?pop⟩
  case good =>
    rw [execEthRxFrame_on stamp f true hp hon, hlate, if_neg Bool.false_ne_true]
    exact congrArg Host.Outcome.next (ethReceive_good hlate hmin hmax htype)
  case badFcs =>
    rw [execEthRxFrame_on stamp f false hp hon, hlate, if_neg Bool.false_ne_true]
    exact congrArg Host.Outcome.next (ethReceive_badFcs hlate hmin hmax)
  case late => rw [execEthRxFrame_on stamp f ok hp hon, hlate, if_pos rfl]
  case link => exact congrArg Host.Outcome.next (if_neg (Nat.not_lt.mpr hp))
  case collision => exact congrArg Host.Outcome.next (ethCollide_sending hp hf)
  case plca => exact masterWrite_plca s o b v.toNat hp hpass v.isLt
  case pop => exact congrArg Host.Outcome.next ((masterRead_tstx0 s hp hmaster hfs).trans (popEffect_tstx0 hp s))

end Sys2Proof.Laws
end

section
/-! The one writer of the boot flash and of the fuses (O6), and what programming and erasing leave of each byte (O10). -/

namespace Sys2Proof.Laws

open Sys2Proof Sys2Proof.Machine

/-! ## One writer (R120, R121, R234, R536) -/

/-- Only the boot flash is asked to stand. -/
def Fix.onlyFlash : Fix := { Fix.nothing with flash := True }

theorem allows_onlyFlash (c : Instr) (hflash : ∀ ok, c ≠ .flashOpComplete ok) : allows Fix.onlyFlash c := by
  unfold allows
  split
  case h_3 ok => exact absurd rfl (hflash ok)
  all_goals simp [Fix.onlyFlash, Fix.nothing]

theorem allows_onlyFuses (c : Instr) (hfuse : ∀ root, c ≠ .otpFuseProgrammed root) : allows Fix.onlyFuses c := by
  unfold allows
  split
  case h_8 root => exact absurd rfl (hfuse root)
  all_goals simp [Fix.onlyFuses, Fix.nothing]

/-- Settles O6, from what every command keeps with the flash, or the fuses, asked to stand. -/
theorem flashAndFusesHaveOneWriter : Obligations.FlashAndFusesHaveOneWriter := by
  unfold Obligations.FlashAndFusesHaveOneWriter
  intro c s t e
  refine ⟨fun hflash => ?_, fun hfuse => ?_⟩
  · exact (keeps_exec (allows_onlyFlash c hflash) e (keeps_refl _ s)).holds.flash trivial
  · exact (keeps_exec (allows_onlyFuses c hfuse) e (keeps_refl _ s)).holds.otp trivial

/-! ## Programming and erasing (R234) -/

/-- A byte read after a run is programmed: the bits of the run cleared in it, if it lies in the run. -/
theorem flash_get_program (bs : Bytes) : ∀ (f : Flash) (a b : Nat), Flash.wf f = true →
    (f.program a bs).get b = if a ≤ b ∧ b < a + bs.length then f.get b &&& nth bs (b - a) 0xFF else f.get b := by
  induction bs with
  | nil => exact fun f a b _ => (if_neg (by simp)).symm
  | cons x r ih =>
    intro f a b hwf
    have hrest : (f.program a (x :: r)).get b = ((f.set a (f.get a &&& x)).program (a + 1) r).get b := rfl
    rw [hrest, ih _ _ b (flash_set_wf f a _ hwf), flash_get_set f a b _ hwf]
    by_cases hfirst : a = b
    · subst hfirst
      simp [nth]
    · by_cases hrun : a + 1 ≤ b ∧ b < a + 1 + r.length
      · have hindex : b - a = b - (a + 1) + 1 := by omega
        rw [if_pos hrun, if_neg hfirst, if_pos (by rw [List.length_cons]; omega), hindex]
        rfl
      · rw [if_neg hrun, if_neg hfirst, if_neg (by rw [List.length_cons]; omega)]

/-- A byte read after a run is erased. -/
theorem flash_get_erase (f : Flash) (a n b : Nat) : (f.erase a n).get b = if a ≤ b ∧ b < a + n then 0xFF else f.get b := by
  rw [flash_get_eq, flash_get_eq]
  show cellAt (f.mem.filter fun c => !(decide (a ≤ c.1) && decide (c.1 < a + n))) b = _
  induction f.mem with
  | nil => exact (ite_self _).symm
  | cons c r ih =>
    by_cases herased : a ≤ c.1 ∧ c.1 < a + n
    · rw [List.filter_cons_of_neg (by simpa using herased), ih]
      by_cases hrange : a ≤ b ∧ b < a + n
      · rw [if_pos hrange, if_pos hrange]
      · have hother : c.1 ≠ b := fun e => hrange (e ▸ herased)
        rw [if_neg hrange, if_neg hrange, cellAt, if_neg hother]
    · rw [List.filter_cons_of_pos (by simpa only [Bool.not_eq_true', ← Bool.decide_and, decide_eq_false_iff_not] using herased), cellAt, cellAt, ih]
      by_cases hcell : c.1 = b
      · rw [if_pos hcell, if_pos hcell, if_neg (hcell ▸ herased)]
      · rw [if_neg hcell, if_neg hcell]

/-- Settles O10. -/
theorem flashProgramAndErase : Obligations.FlashProgramAndErase :=
  ⟨fun f a b bs hwf => flash_get_program bs f a b hwf, flash_get_erase⟩

end Sys2Proof.Laws
end

section
/-! The host port's transactions (O24, O25, O26): every operation is run by the same port, which discards a transaction or takes it whole; the writes of one are checked and taken as one; each other operation has one equation. -/

namespace Sys2Proof.Laws

open Sys2Proof Sys2Proof.Machine

/-! ## Every operation is a transaction of the port -/

/-- A service of Table CRY-5 serves its path. -/
theorem exec_serviceOf {c : Instr} {code : Nat} {p : SvcPath} {run : SvcReq → State → State × SvcOut} (h : serviceOf c = some (code, p, run))
    (s : State) : exec c s = .next (serve p code run s) := by
  unfold serviceOf at h
  split at h <;> cases h <;> rfl

/-- A command of the host port runs its operation through the port. -/
theorem exec_txnOf {c : Instr} {op : Nat} {x : Txn} (h : txnOf c = some (op, x)) (s : State) :
    ∃ run, exec c s = .next (hostTxn op x run s) := by
  unfold txnOf at h
  split at h
  case h_11 op x =>
    split at h
    case isTrue => cases h
    case isFalse hfields =>
      cases h
      exact ⟨hostStatus 0x04, congrArg Host.Outcome.next (if_neg hfields)⟩
  case h_12 =>
    split at h
    case h_1 code x run hsvc =>
      split at h
      case isTrue harg =>
        cases h
        exact ⟨runServiceTxn code run x, (exec_serviceOf hsvc s).trans (congrArg Host.Outcome.next (if_pos harg))⟩
      case isFalse => cases h
    case h_2 => cases h
  all_goals
    cases h
    exact ⟨_, rfl⟩

/-! ## Discarded transactions (R204, R205) -/

/-- A transaction with a reason to discard it runs nothing, whatever its operation (R205). -/
theorem hostTxn_discarded {op code : Nat} {x : Txn} {s : State} (halive : portAlive s = true) (hcode : discardCode op x = some code)
    (run : State → State) :
    hostTxn op x run s = { discardTxn code x s with h.port.miso := (misoWords s x.len).take (x.clocks / 32) } := by
  unfold hostTxn
  rw [halive, hcode]
  rfl

/-- A register read after a field is put into one. -/
theorem reg_setField {s : State} (a lo w x b : Nat) (hwf : RegFile.wf s.regs = true) (hfield : lo + w ≤ 32) :
    reg (setField s a lo w x) b = if b = a then putBits (reg s a) lo w x else reg s b := by
  have hlt : putBits (reg s a) lo w x < 2 ^ 32 := putBits_lt _ lo w x (BitVec.isLt _) hfield
  unfold setField
  rw [reg_setReg s a b _ hwf, Nat.mod_eq_of_lt hlt]
  simp only [eq_comm (a := a)]

/-- A register read after a saturating count is raised. -/
theorem reg_bump {s : State} (a lo w n b : Nat) (hwf : RegFile.wf s.regs = true) (hfield : lo + w ≤ 32) :
    reg (bump s a lo w n) b = if b = a then putBits (reg s a) lo w (satAdd w (fieldOf s a lo w) n) else reg s b :=
  reg_setField a lo w _ b hwf hfield

/-- The registers after a discarded transaction: SYS.HPCNT.DISC counts it and SYS.INTSTAT.DISC is set. -/
theorem reg_discardTxn {s : State} (code : Nat) (x : Txn) (hwf : RegFile.wf s.regs = true) (b : Nat) :
    reg (discardTxn code x s) b =
      if b = 0x48 then putBits (reg s 0x48) 0 16 (satAdd 16 (fieldOf s 0x48 0 16) 1)
      else if b = 0x4C then putBits (reg s 0x4C) 1 1 1 else reg s b := by
  have hcounted : RegFile.wf (bump s 0x48 0 16 1).regs = true := regFile_set_wf _ _ _ hwf
  show reg (setField (bump s 0x48 0 16 1) 0x4C 1 1 1) b = _
  rw [reg_setField 0x4C 1 1 1 b hcounted (by decide), reg_bump 0x48 0 16 1 b hwf (by decide), reg_bump 0x48 0 16 1 0x4C hwf (by decide),
    if_neg (show ¬ (0x4C : Nat) = 0x48 by decide)]
  by_cases hb : b = 0x48
  · rw [if_pos hb, if_pos hb, hb, if_neg (by decide)]
  · rw [if_neg hb, if_neg hb]

/-- Settles O24: every operation is run by the port, which runs nothing of a discarded one. -/
theorem discardedTransactionChangesNothing : Obligations.DiscardedTransactionChangesNothing := by
  unfold Obligations.DiscardedTransactionChangesNothing
  intro c op x s code hop halive hcode hwf
  obtain ⟨run, hexec⟩ := exec_txnOf hop s
  exact ⟨(discardTxn code x s).regs, hexec.trans (congrArg Host.Outcome.next (hostTxn_discarded halive hcode run)), reg_discardTxn code x hwf⟩

/-! ## Writes of a transaction (R207, R208, R219) -/

/-- Writes that pass their checks are journalled as one change and take effect in order. -/
theorem hostWrites_taken {o : Origin} {ws : List (Nat × Nat)} {s : State} {es : List (Nat × Nat × Bytes)} (hne : ws ≠ [])
    (hmode : hostModeStatus s o = none) (hcheck : checkHostWrites o ws s [] = .ok es) :
    hostWrites o ws s = (ws.foldl (fun s w => applyWrite false o w.1 w.2 s) (jChange s.time.now o.code es s), 0) := by
  cases ws with
  | nil => exact absurd rfl hne
  | cons w r =>
    unfold hostWrites
    simp only [hmode, hcheck]

/-- Where one write is refused none takes effect; the refusal is recorded. -/
theorem hostWrites_refused {o : Origin} {ws : List (Nat × Nat)} {s : State} {a st : Nat} (hne : ws ≠ [])
    (hmode : hostModeStatus s o = none) (hcheck : checkHostWrites o ws s [] = .error (a, st)) :
    hostWrites o ws s = (recordRefusal false o a st (closeRefused o a s), st) := by
  cases ws with
  | nil => exact absurd rfl hne
  | cons w r =>
    unfold hostWrites
    simp only [hmode, hcheck]

/-- Remote writes that pass the host die's checks are sent as one request, or end LINKDOWN. -/
theorem remoteWrites_checked {o : Origin} {ws : List (Nat × Nat)} {s u : State} (seq : Nat) (hne : ws ≠ [])
    (hmode : hostModeStatus s o = none) (hcheck : checkRemoteWrites o ws s = .ok u) :
    remoteWrites o ws seq s = if s.h.tahr.link then (remoteSend o 2 ws seq u, 0x0F) else (s, 0x15) := by
  cases ws with
  | nil => exact absurd rfl hne
  | cons w r =>
    unfold remoteWrites
    simp only [hmode, hcheck]
    cases s.h.tahr.link <;> rfl

/-- A transaction's writes of registers there are have no address that names none. -/
theorem find?_noRegister {ws : List (Nat × Nat)} (h : ∀ w ∈ ws, (regAt w.1).isSome = true) : ws.find? (fun w => (regAt w.1).isNone) = none :=
  List.find?_eq_none.mpr fun w hw => by rw [← Option.not_isSome, h w hw]; decide

/-- A WRITE or WRITEL of host-die registers: the writes made together, the port's windows closed, and their status. -/
theorem runWrites_local {op : Nat} {x : Txn} (s : State) (h : ∀ w ∈ txnWrites op x, (regAt w.1).isSome = true ∧ isRemote w.1 = false) :
    runWrites op x s = hostStatus (hostWrites .hostSpi (txnWrites op x) s).2 (portClosed (hostWrites .hostSpi (txnWrites op x) s).1) := by
  have hlocal : (txnWrites op x).filter (fun w => isRemote w.1) = [] := List.filter_eq_nil_iff.mpr fun w hw => by simp [(h w hw).2]
  unfold runWrites
  simp only [hlocal, find?_noRegister fun w hw => (h w hw).1]
  rfl

/-- A WRITE or WRITEL of remote registers, with the response buffer free: one request, with a deferred answer. -/
theorem runWrites_remote {op : Nat} {x : Txn} {s u : State} (h : ∀ w ∈ txnWrites op x, (regAt w.1).isSome = true ∧ isRemote w.1 = true)
    (hne : txnWrites op x ≠ []) (hlen : (txnWrites op x).length ≤ 64) (hfree : s.h.port.deferred = none)
    (hmode : hostModeStatus s .hostSpi = none) (hcheck : checkRemoteWrites .hostSpi (txnWrites op x) s = .ok u) :
    runWrites op x s = if s.h.tahr.link
      then defer x op 0 [] false (portClosed (remoteSend .hostSpi 2 (txnWrites op x) (x.seq % 256) u))
      else defer x op 0x15 [] true (portClosed s) := by
  have hremote : (txnWrites op x).filter (fun w => isRemote w.1) = txnWrites op x := List.filter_eq_self.mpr fun w hw => (h w hw).2
  have hsome : (txnWrites op x).isEmpty = false := by simpa using hne
  unfold runWrites
  simp only [hremote, hsome, find?_noRegister fun w hw => (h w hw).1, hfree, remoteWrites_checked (x.seq % 256) hne hmode hcheck,
    ne_eq, not_true_eq_false, and_false, if_false, if_neg (Nat.not_lt.mpr hlen), Option.isSome_none, Bool.false_eq_true]
  cases s.h.tahr.link <;> rfl

/-- Settles O25: the checks decide whether the writes are taken or refused; a remote transaction is one request. -/
theorem hostWritesAllOrNone : Obligations.HostWritesAllOrNone := by
  unfold Obligations.HostWritesAllOrNone
  intro s x op c hc hx hmode
  have hexec : exec c s = .next (answered x s (runWrites op x (received x s))) := by
    rcases hc with ⟨rfl, rfl⟩ | ⟨rfl, rfl⟩
    · exact congrArg Host.Outcome.next (hostTxn_whole hx)
    · exact congrArg Host.Outcome.next (hostTxn_whole hx)
  have hreceived : hostModeStatus (received x s) .hostSpi = none := hmode
  refine ⟨fun hlocal hne => ?hostDie, fun u hremote hne hlen hfree hcheck => ?fieldDie⟩
  case hostDie =>
    rw [hexec, runWrites_local (received x s) hlocal]
    cases hcheck : checkHostWrites .hostSpi (txnWrites op x) (received x s) [] with
    | ok es => rw [hostWrites_taken hne hreceived hcheck]; rfl
    | error r => rw [hostWrites_refused hne hreceived hcheck]
  case fieldDie =>
    rw [hexec, runWrites_remote (s := received x s) hremote hne hlen hfree hreceived hcheck]
    rfl

/-! ## Reads and messages (R209 to R213, R239, R240) -/

/-- A READ of host-die registers: the words are read at once and wait for the response buffer. -/
theorem runRead_local {x : Txn} {s : State} (hfree : s.h.port.deferred = none) (htaken : readRefused s (readAddrs x) = false)
    (hlocal : isRemote x.addr = false) :
    runRead x s = defer x 3 (if (readAddrs x).any (fun a => (regAt a).isNone) then 5 else 0)
      (readWords false .hostSpi (readAddrs x) s).2 true (readWords false .hostSpi (readAddrs x) s).1 := by
  unfold runRead
  simp only [hfree, htaken, hlocal, Option.isSome_none, Bool.false_eq_true, if_false]

/-- A READ of remote registers: one request of the address and the number of words, or LINKDOWN. -/
theorem runRead_remote {x : Txn} {s : State} (hfree : s.h.port.deferred = none) (htaken : readRefused s (readAddrs x) = false)
    (hremote : isRemote x.addr = true) :
    runRead x s = if s.h.tahr.link
      then remoteSend .hostSpi 1 [(x.addr, x.arg % 256 + 1)] (x.seq % 256) (defer x 3 0 [] false s)
      else defer x 3 0x15 [] true s := by
  have hlength : (readAddrs x).length = x.arg % 256 + 1 := by simp [readAddrs]
  unfold runRead
  simp only [hfree, htaken, hremote, hlength, Option.isSome_none, Bool.false_eq_true, if_false, if_true]
  cases s.h.tahr.link <;> rfl

theorem runSend_submits {x : Txn} {s : State} (htaken : msgRefused s = false) :
    runSend x s = hostStatus 0 (submitMsg 70 ((wordBytes (x.payload.drop 1)).take (bits ((x.payload.headD 0).toNat) 0 16)) 2 s) := by
  unfold runSend
  rw [htaken, if_neg Bool.false_ne_true]

theorem runRecv_empty {x : Txn} {s : State} (hfree : s.h.port.deferred = none) (htaken : msgRefused s = false) (hhead : takeHead s 70 = none) :
    runRecv x s = defer x 6 0x13 [] true s := by
  unfold runRecv
  simp only [hfree, htaken, hhead, Option.isSome_none, Bool.false_eq_true, if_false]

theorem runRecv_takes {x : Txn} {s u : State} {f : Frame} (hfree : s.h.port.deferred = none) (htaken : msgRefused s = false)
    (hhead : takeHead s 70 = some (f, u)) :
    runRecv x s = defer x 6 0 (BitVec.ofNat 32 (f.bytes.length % 65536 + f.inport % 256 * 65536) :: packWords (f.bytes.take 1020)) true u := by
  unfold runRecv
  simp only [hfree, htaken, hhead, Option.isSome_none, Bool.false_eq_true, if_false]

/-! ## Operations outside Table HOST-2, and deferred results (R201, R211) -/

/-- An operation outside Table HOST-2 is BADOP, and counted as refused (R201, Table HOST-12). -/
theorem hostTxn_badop {op : Nat} {x : Txn} {s : State} (halive : portAlive s = true) (hcode : discardCode op x = none)
    (hfields : fieldsOk op x = false) (run : State → State) :
    hostTxn op x run s = answered x s (bump { received x s with h.port.presult := 4, h.port.prevDeferred := false } 0x48 16 16 1) := by
  unfold hostTxn
  simp only [halive, hcode, hfields, Bool.not_true, Bool.false_eq_true, if_false]
  rfl

/-- The response buffer with a deferred operation's result (Tables HOST-6, HOST-12). -/
def responseOf (d : Deferred) : List Word :=
  [d.seq * 2 ^ 24 + d.status * 2 ^ 16 + d.op * 2 ^ 12 + d.data.length, half d.stamp 0, half d.stamp 1].map (BitVec.ofNat 32) ++ d.data

/-- A result that stands replaces the response buffer; beside it only SYS.HPCNT and SYS.INTSTAT may change (R211). -/
theorem deferredComplete_shape {s : State} {d : Deferred} (hd : s.h.port.deferred = some d) (hready : d.ready = true) :
    ∃ rg, deferredComplete s = { s with regs := rg, h.port.resp := responseOf d, h.port.rdy := true, h.port.deferred := none } ∧
      ∀ b, b ≠ 0x48 → b ≠ 0x4C → RegFile.get rg b = RegFile.get s.regs b := by
  unfold deferredComplete
  rw [hd]
  simp only [hready, Bool.not_true, Bool.false_eq_true, if_false]
  have hint : ∀ (v b : Nat), b ≠ 0x4C → RegFile.get (RegFile.set s.regs 0x4C (BitVec.ofNat 32 v)) b = RegFile.get s.regs b :=
    fun v b hb => regFile_get_set_ne s.regs 0x4C b _ hb
  split
  · exact ⟨_, rfl, fun b h48 h4C => (regFile_get_set_ne _ 0x48 b _ h48).trans (hint _ b h4C)⟩
  · exact ⟨_, rfl, fun b _ h4C => hint _ b h4C⟩

/-! ## The statement -/

/-- Settles O26: an equation for each operation, on the state in which the transaction is received. -/
theorem hostOperationsTakeEffect : Obligations.HostOperationsTakeEffect := by
  unfold Obligations.HostOperationsTakeEffect
  refine ⟨fun s x hx => ?nop, fun s x hx => ?fetch, fun s x hx hfree htaken hlocal => ?readLocal, fun s x hx hfree htaken hremote => ?readRemote,
    fun s x hx htaken => ?send, fun s x hx hfree htaken => ?recv, fun s op x halive hcode hfields => ?badop, fun s d hd hready => ?deferred⟩
  case nop => exact congrArg Host.Outcome.next ((hostTxn_whole hx).trans (congrArg (answered x s) (hostStatus_quiet 0 (received x s) rfl)))
  case fetch => exact congrArg Host.Outcome.next ((hostTxn_whole hx).trans (congrArg (answered x s) (hostStatus_quiet 0 (received x s) rfl)))
  case readLocal =>
    exact congrArg Host.Outcome.next ((hostTxn_whole hx).trans (congrArg (answered x s) (runRead_local hfree htaken hlocal)))
  case readRemote =>
    exact congrArg Host.Outcome.next ((hostTxn_whole hx).trans (congrArg (answered x s) (runRead_remote hfree htaken hremote)))
  case send =>
    exact congrArg Host.Outcome.next ((hostTxn_whole hx).trans (congrArg (answered x s) (runSend_submits htaken)))
  case recv =>
    refine congrArg Host.Outcome.next ((hostTxn_whole hx).trans (congrArg (answered x s) ?_))
    cases hhead : takeHead (received x s) 70 with
    | none => exact runRecv_empty hfree htaken hhead
    | some p => exact runRecv_takes hfree htaken hhead
  case badop =>
    have hexec : exec (.badop op x) s = .next (hostTxn op x (hostStatus 0x04) s) :=
      congrArg Host.Outcome.next (if_neg (by rw [hfields]; exact Bool.false_ne_true))
    rw [hexec, hostTxn_badop halive hcode hfields]
  case deferred =>
    obtain ⟨rg, hdone, hregs⟩ := deferredComplete_shape hd hready
    have hexec : exec .deferredComplete s = .next (deferredComplete s) := rfl
    rw [hexec, hdone]
    exact ⟨_, rfl, rfl, rfl, rfl, rfl, rfl, hregs⟩

end Sys2Proof.Laws
end

section
/-! Boot-flash operations (O28): a write of SYS.FLCTL.CMD starts its operation where it may, and the end of one under way has one equation for each command. -/

namespace Sys2Proof.Laws

open Sys2Proof Sys2Proof.Machine

/-! ## The start (R234) -/

/-- A register of the host die without a bank stores a write at its own address. -/
theorem stored_unbanked {a : Nat} (h : (regAt a).map (·.bank) = some false) (o : Origin) (v : Nat) (u : State) :
    ∃ x, stored false o a v u = setReg u a x := by
  obtain ⟨d, hd, hbank⟩ := Option.map_eq_some_iff.mp h
  have hkey : storeKey false d o a = a := by
    show bankKey d o a = a
    rw [bankKey, if_neg (by simp [hbank])]
  unfold stored
  rw [hd]
  dsimp only
  rw [hkey]
  exact ⟨_, rfl⟩

/-- The code that SYS.FLCTL.ERR takes: 0 where the operation starts, else the cause that it does not (R234, log entry 19). -/
def flashErr (cmd : Nat) (s : State) : Nat :=
  let a := fieldOf s 0x64 0 26
  if s.h.port.flash.isSome then 5
  else if a % flashSize cmd ≠ 0 then 3
  else if s.flash.dens * 0x100000 < a + flashSize cmd then 4
  else if decide (2 ≤ cmd) && inSlotInForce s a then 1
  else if !s.flash.valid || (cmd == 3 && !s.flash.er4k) || (cmd == 4 && !s.flash.er64k) then 2
  else 0

/-- One cause in a chain of them is passed, and so are the rest, where the code is 0. -/
theorem cause_passed_iff {p : Prop} [Decidable p] {code rest : Nat} (hcode : code ≠ 0) :
    (if p then code else rest) = 0 ↔ ¬ p ∧ rest = 0 := by
  by_cases hp : p <;> simp [hp, hcode]

theorem flashErr_zero_iff (cmd : Nat) (s : State) : flashErr cmd s = 0 ↔ flashMayStart s cmd := by
  unfold flashErr flashMayStart
  dsimp only
  iterate 5 rw [cause_passed_iff (by decide)]
  simp only [Option.isSome_iff_ne_none, ne_eq, not_not, Nat.not_lt, Bool.and_eq_true, Bool.or_eq_true, decide_eq_true_eq, beq_iff_eq,
    Bool.not_eq_true', Bool.not_eq_false, Bool.not_eq_true, not_or, not_and, and_true, and_assoc]

/-- A write of a command of SYS.FLCTL.CMD: the code of the cause, and the operation under way where there is none. -/
theorem flashStart_command {cmd : Nat} (h : 1 ≤ cmd ∧ cmd ≤ 4) (s : State) :
    flashStart cmd s = (
      let t := setField s 0x60 12 4 (flashErr cmd s)
      if flashErr cmd s = 0 then { t with h.port.flash := some (cmd, fieldOf s 0x64 0 26) } else t) :=
  if_neg (by omega)

/-- The operation under way after the command: its own where it may start, else the one before. -/
theorem flashStart_starts {cmd : Nat} (h : 1 ≤ cmd ∧ cmd ≤ 4) {s : State} (hmay : flashMayStart s cmd) :
    (flashStart cmd s).h.port.flash = some (cmd, fieldOf s 0x64 0 26) := by
  rw [flashStart_command h, if_pos ((flashErr_zero_iff cmd s).mpr hmay)]

theorem flashStart_refused {cmd : Nat} (h : 1 ≤ cmd ∧ cmd ≤ 4) {s : State} (hnot : ¬ flashMayStart s cmd) :
    (flashStart cmd s).h.port.flash = s.h.port.flash := by
  rw [flashStart_command h, if_neg fun hzero => hnot ((flashErr_zero_iff cmd s).mp hzero)]
  rfl

/-- The start of an operation leaves the boot flash (R234). -/
theorem flashStart_flash {cmd : Nat} (h : 1 ≤ cmd ∧ cmd ≤ 4) (s : State) : (flashStart cmd s).flash = s.flash := by
  rw [flashStart_command h]
  by_cases hzero : flashErr cmd s = 0
  · rw [if_pos hzero, setField_flash]
  · rw [if_neg hzero, setField_flash]

/-- Storing the command leaves what decides its start: SYS.FLADDR, the master, the image in force and the flash. -/
theorem stored_flctl {s u : State} (h : beside [] s u) (o : Origin) (k : Nat) :
    fieldOf (stored false o 0x60 k u) 0x64 0 26 = fieldOf s 0x64 0 26 ∧ (stored false o 0x60 k u).h.port.flash = s.h.port.flash ∧
    (stored false o 0x60 k u).flash = s.flash ∧ (stored false o 0x60 k u).h.img.image = s.h.img.image := by
  obtain ⟨hu, hregs, _⟩ := h
  obtain ⟨x, hx⟩ := stored_unbanked (show (regAt 0x60).map (·.bank) = some false by decide) o k u
  have haddr : RegFile.get (setReg u 0x60 x).regs 0x64 = RegFile.get s.regs 0x64 :=
    (regFile_get_set_ne u.regs 0x60 0x64 _ (by decide)).trans (hregs 0x64 (by decide) List.not_mem_nil)
  rw [hx]
  refine ⟨?_, ?_, ?_, ?_⟩
  · unfold fieldOf reg
    rw [haddr]
  · rw [setReg_h, hu]
  · rw [setReg_flash, hu]
  · rw [setReg_h, hu]

theorem flashMayStart_stored {s u : State} (h : beside [] s u) (o : Origin) (k cmd : Nat) :
    flashMayStart (stored false o 0x60 k u) cmd ↔ flashMayStart s cmd := by
  obtain ⟨haddr, hport, hflash, himage⟩ := stored_flctl h o k
  unfold flashMayStart inSlotInForce
  rw [haddr, hport, hflash, himage]

/-- A command written to SYS.FLCTL by a write that passes its checks. -/
theorem masterWrite_flctl {s : State} {o : Origin} {k : Nat} (hk : 1 ≤ k ∧ k ≤ 4) (hp : passes s o 0x60 k) :
    let t := masterWrite o 0x60 k s
    wrote s (fun u => flashStart k (stored false o 0x60 k u)) t ∧
      (flashMayStart s k → t.h.port.flash = some (k, fieldOf s 0x64 0 26)) ∧ (¬ flashMayStart s k → t.h.port.flash = s.h.port.flash) ∧
      t.flash = s.flash := by
  have hcmd : bits k 0 3 = k := by
    unfold bits
    omega
  have hwrote : wrote s (fun u => flashStart k (stored false o 0x60 k u)) (masterWrite o 0x60 k s) :=
    masterWrite_stores s o 0x60 k (flashStart k) hp (by omega) rfl (fun _ _ => rfl) (fun _ u => by
      show flashStart (bits k 0 3) u = _
      rw [hcmd])
  obtain ⟨u, hu, ht⟩ := hwrote
  obtain ⟨haddr, hport, hflash, _⟩ := stored_flctl hu o k
  have hmay := flashMayStart_stored hu o k k
  have htPort : (masterWrite o 0x60 k s).h.port.flash = (flashStart k (stored false o 0x60 k u)).h.port.flash := by rw [ht]
  have htFlash : (masterWrite o 0x60 k s).flash = (flashStart k (stored false o 0x60 k u)).flash := by rw [ht]
  refine ⟨⟨u, hu, ht⟩, fun h => ?_, fun h => ?_, ?_⟩
  · rw [htPort, flashStart_starts hk (hmay.mpr h), haddr]
  · rw [htPort, flashStart_refused hk (mt hmay.mp h), hport]
  · rw [htFlash, flashStart_flash hk, hflash]

/-! ## The end (R234, R235) -/

theorem flashDone_idle {s : State} (ok : Bool) (h : s.h.port.flash = none) : flashDone ok s = s := by
  unfold flashDone
  rw [h]

/-- A flash error leaves the flash, with the cause 2 in SYS.FLCTL.ERR. -/
theorem flashDone_error {s : State} {k a : Nat} (h : s.h.port.flash = some (k, a)) :
    flashDone false s = setField { s with h.port.flash := none } 0x60 12 4 2 := by
  unfold flashDone
  rw [h]
  rfl

/-- The first `n` words of a page of the flash read into SYS.FLDATA. -/
def pageRead (a n : Nat) (s : State) : State :=
  (List.range n).foldl (fun s k => setReg s (0x100 + 4 * k) (leNat (s.flash.read (a + 4 * k) 4))) s

theorem pageRead_succ (a n : Nat) (s : State) :
    pageRead a (n + 1) s = setReg (pageRead a n s) (0x100 + 4 * n) (leNat ((pageRead a n s).flash.read (a + 4 * n) 4)) := by
  unfold pageRead
  rw [List.range_succ, List.foldl_append]
  rfl

/-- Reading a page changes the register file alone, which keeps its canonical form. -/
theorem pageRead_shape (a n : Nat) (s : State) :
    ∃ rg, pageRead a n s = { s with regs := rg } ∧ (RegFile.wf s.regs = true → RegFile.wf rg = true) := by
  induction n with
  | zero => exact ⟨s.regs, rfl, id⟩
  | succ n ih =>
    obtain ⟨rg, hread, hwf⟩ := ih
    rw [pageRead_succ, hread]
    exact ⟨_, rfl, fun h => regFile_set_wf _ _ _ (hwf h)⟩

theorem pageRead_flash (a n : Nat) (s : State) : (pageRead a n s).flash = s.flash := by
  obtain ⟨rg, hread, _⟩ := pageRead_shape a n s
  rw [hread]

/-- A register outside the words read stands. -/
theorem pageRead_other (a n b : Nat) (s : State) (h : ∀ j, j < n → b ≠ 0x100 + 4 * j) :
    RegFile.get (pageRead a n s).regs b = RegFile.get s.regs b := by
  induction n with
  | zero => rfl
  | succ n ih =>
    rw [pageRead_succ]
    exact (regFile_get_set_ne _ _ b _ (h n (Nat.lt_succ_self n))).trans (ih fun j hj => h j (Nat.lt_succ_of_lt hj))

/-- A word of SYS.FLDATA after the read holds its four bytes of the flash. -/
theorem pageRead_word (a n j : Nat) (s : State) (hwf : RegFile.wf s.regs = true) (hj : j < n) :
    reg (pageRead a n s) (0x100 + 4 * j) = leNat (s.flash.read (a + 4 * j) 4) % 2 ^ 32 := by
  induction n with
  | zero => exact absurd hj (Nat.not_lt_zero j)
  | succ n ih =>
    have hbefore : RegFile.wf (pageRead a n s).regs = true := by
      obtain ⟨rg, hread, hkeep⟩ := pageRead_shape a n s
      rw [hread]
      exact hkeep hwf
    rw [pageRead_succ, reg_setReg _ _ _ _ hbefore, pageRead_flash]
    by_cases hlast : n = j
    · rw [if_pos (by rw [hlast]), hlast]
    · rw [if_neg (by omega), ih (by omega)]

theorem flashDone_read {s : State} {a : Nat} (h : s.h.port.flash = some (1, a)) :
    flashDone true s = pageRead a 64 { s with h.port.flash := none } := by
  unfold flashDone
  rw [h]
  rfl

theorem flashDone_program {s : State} {a : Nat} (h : s.h.port.flash = some (2, a)) :
    flashDone true s = { s with
      h.port.flash := none
      flash := s.flash.program a ((List.range 64).flatMap (fun j => le 4 (reg s (0x100 + 4 * j)))) } := by
  unfold flashDone
  rw [h]
  rfl

theorem flashDone_erase4k {s : State} {a : Nat} (h : s.h.port.flash = some (3, a)) :
    flashDone true s = { s with h.port.flash := none, flash := s.flash.erase a 0x1000 } := by
  unfold flashDone
  rw [h]
  rfl

theorem flashDone_erase64k {s : State} {a : Nat} (h : s.h.port.flash = some (4, a)) :
    flashDone true s = { s with h.port.flash := none, flash := s.flash.erase a 0x10000 } := by
  unfold flashDone
  rw [h]
  rfl

/-! ## The statement -/

/-- Settles O28: each command is one write of SYS.FLCTL, and each operation's end has its equation. -/
theorem flashOperationsStartAndEnd : Obligations.FlashOperationsStartAndEnd := by
  unfold Obligations.FlashOperationsStartAndEnd
  refine ⟨fun s o k c hc hp => ?start, fun s k a h => ⟨?error, ?read, ?program, ?erase4k, ?erase64k⟩, fun s ok h => ?idle⟩
  case start =>
    have hk : 1 ≤ k ∧ k ≤ 4 := by omega
    have hexec : exec c s = .next (masterWrite o 0x60 k s) := by
      rcases hc with ⟨rfl, rfl⟩ | ⟨rfl, rfl⟩ | ⟨rfl, rfl⟩ | ⟨rfl, rfl⟩ <;> rfl
    exact ⟨_, hexec, masterWrite_flctl hk hp⟩
  case error => exact congrArg Host.Outcome.next (flashDone_error h)
  case read =>
    rintro rfl
    obtain ⟨rg, hread, _⟩ := pageRead_shape a 64 { s with h.port.flash := none }
    have hexec : exec (.flashOpComplete true) s = .next (pageRead a 64 { s with h.port.flash := none }) :=
      congrArg Host.Outcome.next (flashDone_read h)
    refine ⟨_, hexec, by rw [hread], pageRead_flash .., by rw [hread], fun b hb => pageRead_other a 64 b _ hb,
      fun hwf j hj => pageRead_word a 64 j { s with h.port.flash := none } hwf hj⟩
  case program =>
    rintro rfl
    exact congrArg Host.Outcome.next (flashDone_program h)
  case erase4k =>
    rintro rfl
    exact congrArg Host.Outcome.next (flashDone_erase4k h)
  case erase64k =>
    rintro rfl
    exact congrArg Host.Outcome.next (flashDone_erase64k h)
  case idle => exact congrArg Host.Outcome.next (flashDone_idle ok h)

end Sys2Proof.Laws
end

section
/-! The journal's messages (O30): what a drain message submits, and what an acknowledgement at port 66 does in its commands. -/

namespace Sys2Proof.Laws

open Sys2Proof Sys2Proof.Machine

/-! ## Submission (R254) -/

/-- A message of an internal endpoint, where the ingress ports admit cells: an event at its port, stamped now. -/
theorem submitMsg_open {s : State} (h : ingressOpen s = true) (port : Nat) (body : Bytes) (mark : Nat) :
    submitMsg port body mark s = { s with
      h.fab.ingress := s.h.fab.ingress ++ [⟨port, s.time.now, s.time.now, nextSeq s port, 2, 4, body, false, mark⟩]
      h.fab.seqs := KMap.put s.h.fab.seqs port ((nextSeq s port + 1) % 65536) } := by
  unfold submitMsg submitAt
  rw [h]
  rfl

/-- A drain message is due only where the ingress ports admit cells. -/
theorem ingressOpen_of_jDrainDue {s : State} (h : jDrainDue s = true) : ingressOpen s = true := by
  unfold jDrainDue at h
  simp only [Bool.and_eq_true] at h
  obtain ⟨⟨hopen, _⟩, _⟩ := h
  exact hopen

theorem jDrain_due {s : State} (h : jDrainDue s = true) :
    let es := (s.h.jrn.entries.filter (fun e => e.unsent)).take (fieldOf s 0x10010 0 5)
    jDrain s = submitMsg 66 (jDrainBytes es) 1 { s with h.jrn.awaiting := es.head?.map (fun e => (e.seq, es.length)) } :=
  if_pos h

/-! ## The head of a port -/

/-- The scheduler's choice for a port changes the fabric alone. -/
theorem chooseQueue_shape {s t : State} {e q : Nat} (h : chooseQueue s e = some (q, t)) : ∃ fab, t = { s with h.fab := fab } := by
  unfold chooseQueue at h
  dsimp only at h
  split at h
  case h_1 =>
    cases h
    exact ⟨s.h.fab, rfl⟩
  case h_2 =>
    split at h
    case h_1 => cases h
    case h_2 =>
      cases h
      exact ⟨_, rfl⟩

/-- Taking a queue's head changes the fabric alone. -/
theorem popQueue_shape {s t : State} {q : Nat} {f : Frame} (h : popQueue s q = some (f, t)) : ∃ fab, t = { s with h.fab := fab } := by
  unfold popQueue at h
  split at h
  case h_1 => cases h
  case h_2 =>
    cases h
    exact ⟨_, rfl⟩

/-- An endpoint's take of its port's head frame changes the fabric alone (R319). -/
theorem takeHead_shape {s u : State} {e : Nat} {f : Frame} (h : takeHead s e = some (f, u)) : ∃ fab, u = { s with h.fab := fab } := by
  unfold takeHead at h
  split at h
  case h_1 => cases h
  case h_2 hchoose =>
    split at h
    case h_1 => cases h
    case h_2 hpop =>
      cases h
      obtain ⟨fab, rfl⟩ := chooseQueue_shape hchoose
      obtain ⟨fab', rfl⟩ := popQueue_shape hpop
      exact ⟨_, rfl⟩

/-- The check of an acknowledgement reads nothing of the fabric: it is the same before and after the message is taken. -/
theorem jAckOk_takeHead {s u : State} {e : Nat} {f : Frame} (h : takeHead s e = some (f, u)) (b : Bytes) : jAckOk u b = jAckOk s b := by
  obtain ⟨fab, rfl⟩ := takeHead_shape h
  rfl

/-! ## The two commands of an acknowledgement (R256, R257) -/

section
variable {s u : State} {f : Frame}

/-- The command whose REWIND is the message's takes it. -/
theorem jTakeAck_taken {rewind : Bool} (h : takeHead s 66 = some (f, u)) (hp : (bit (fieldLE f.bytes 2 1) 0 && jAckOk s f.bytes) = rewind) :
    jTakeAck rewind s = jAcknowledge f.bytes u := by
  unfold jTakeAck takeIf
  simp only [h, hp, beq_self_eq_true, if_true]

/-- The other command leaves the message in its queue, and the state. -/
theorem jTakeAck_left {rewind : Bool} (h : takeHead s 66 = some (f, u)) (hp : (bit (fieldLE f.bytes 2 1) 0 && jAckOk s f.bytes) ≠ rewind) :
    jTakeAck rewind s = s := by
  unfold jTakeAck takeIf
  simp only [h, beq_eq_false_iff_ne.mpr hp, Bool.false_eq_true, if_false]

end

theorem jAcknowledge_accepted {b : Bytes} {s : State} (hok : jAckOk s b = true) (hrewind : bit (fieldLE b 2 1) 0 = false) :
    jAcknowledge b s = jAccept b s := by
  unfold jAcknowledge
  rw [if_pos hok, hrewind, if_neg Bool.false_ne_true]

theorem jAcknowledge_rewound {b : Bytes} {s : State} (hok : jAckOk s b = true) (hrewind : bit (fieldLE b 2 1) 0 = true) :
    jAcknowledge b s = jRewind (jAccept b s) := by
  unfold jAcknowledge
  rw [if_pos hok, if_pos hrewind]

theorem jAcknowledge_refused {b : Bytes} {s : State} (hbad : jAckOk s b = false) : jAcknowledge b s = bump s 0x10014 16 16 1 := by
  unfold jAcknowledge
  rw [hbad, if_neg Bool.false_ne_true]

/-! ## What is acknowledged and what is unsent -/

theorem jPut_ackSeq (st o k g c : Nat) (d : Bytes) (s : State) : (jPut st o k g c d s).h.jrn.ackSeq = s.h.jrn.ackSeq := by
  unfold jPut
  dsimp only
  split <;> rfl

/-- The GAP entry that freed space lets in leaves what is acknowledged (R260). -/
theorem jGap_ackSeq (s : State) : (jGap s).h.jrn.ackSeq = s.h.jrn.ackSeq := by
  unfold jGap
  split
  · exact jPut_ackSeq ..
  · rfl

/-- ACKSEQ after an acknowledgement accepted is the one it carries (R256). -/
theorem jAccept_ackSeq (b : Bytes) (s : State) : (jAccept b s).h.jrn.ackSeq = fieldLE b 4 4 := jGap_ackSeq _

theorem jRewind_ackSeq (s : State) : (jRewind s).h.jrn.ackSeq = s.h.jrn.ackSeq := rfl

theorem jRewind_sentSeq (s : State) : (jRewind s).h.jrn.sentSeq = s.h.jrn.ackSeq := rfl

/-- After a rewind every entry left is unsent (R257). -/
theorem jRewind_unsent (s : State) : ∀ e ∈ (jRewind s).h.jrn.entries, e.unsent = true := by
  intro e he
  obtain ⟨e₀, _, rfl⟩ := List.mem_map.mp he
  by_cases hunsent : e₀.unsent = true
  · rw [if_pos hunsent, hunsent]
  · rw [if_neg hunsent]

/-! ## The statement -/

/-- Settles O30: the drain message by its submission, and an acknowledgement by the command that takes it and the check's answer. -/
theorem journalMessagesTakeEffect : Obligations.JournalMessagesTakeEffect := by
  unfold Obligations.JournalMessagesTakeEffect
  refine ⟨fun s hdue => ?drain, fun s u f hhead hok hrewind => ?ack, fun s u f hhead hok hrewind => ?rewind, fun s u f hhead hbad => ?refused⟩
  case drain =>
    have hopen : ingressOpen s = true := ingressOpen_of_jDrainDue hdue
    exact congrArg Host.Outcome.next ((jDrain_due hdue).trans (submitMsg_open (by exact hopen) ..))
  case ack =>
    have htaken := jTakeAck_taken (rewind := false) hhead (by rw [hrewind, Bool.false_and])
    have haccepted := jAcknowledge_accepted ((jAckOk_takeHead hhead f.bytes).trans hok) hrewind
    exact congrArg Host.Outcome.next (htaken.trans haccepted)
  case rewind =>
    have htaken := jTakeAck_taken (rewind := true) hhead (by rw [hrewind, hok, Bool.and_self])
    have hrewound := jAcknowledge_rewound ((jAckOk_takeHead hhead f.bytes).trans hok) hrewind
    refine ⟨jRewind (jAccept f.bytes u), congrArg Host.Outcome.next (htaken.trans hrewound), ?_, ?_, jRewind_unsent _⟩
    · rw [jRewind_ackSeq, jAccept_ackSeq]
    · rw [jRewind_sentSeq, jAccept_ackSeq]
  case refused =>
    have htaken := jTakeAck_taken (rewind := false) hhead (by rw [hbad, Bool.and_false])
    have hleft := jTakeAck_left (rewind := true) hhead (by rw [hbad, Bool.and_false]; exact Bool.false_ne_true)
    have hrefused := jAcknowledge_refused ((jAckOk_takeHead hhead f.bytes).trans hbad)
    exact ⟨congrArg Host.Outcome.next (htaken.trans hrefused), congrArg Host.Outcome.next hleft⟩

end Sys2Proof.Laws
end

section
/-! Frames on their way and the fabric's control (O31, O32): what each choice of the egress scheduler starts, what a cell time of the express matcher leaves, and the model credit, the purges, the gates and the writes of FAB.PLANECTL and FAB.GBASE. -/

namespace Sys2Proof.Laws

open Sys2Proof Sys2Proof.Machine

/-! ## The pipelines (R277, R323) -/

theorem classifyNext_ready {s : State} {p : Nat} {e : Event} (h : readyEvent s p = some e) :
    classifyNext p s =
      if ingressOut s p then drainOver e (bump (dropEvent e s) 0x60024 0 32 1)
      else if s.h.fab.pressure then s
      else drainOver e (classifyEvent e (dropEvent e s)) := by
  unfold classifyNext
  rw [h]

/-! ## The express matcher (R293, R294) -/

/-- Frames that join their queues change the queues alone. -/
theorem foldl_enqueue_shape (fs : List Frame) (s : State) : ∃ qs, fs.foldl enqueue s = { s with h.fab.queues := qs } := by
  refine List.foldlRecOn fs _ (motive := fun (t : State) => ∃ qs, t = { s with h.fab.queues := qs }) ⟨s.h.fab.queues, rfl⟩ ?_
  rintro t ⟨qs, rfl⟩ f _
  exact ⟨_, rfl⟩

/-- A state that the matcher's rounds have advanced: its grant and accept pointers alone differ. -/
def pointersMoved (s t : State) : Prop := ∃ g a, t = { s with h.fab.gptr := g, h.fab.aptr := a }

theorem pointersMoved_refl (s : State) : pointersMoved s s := ⟨s.h.fab.gptr, s.h.fab.aptr, rfl⟩

/-- Of the state, a round of grant and accept moves the pointers alone. -/
theorem matchRound_pointersMoved {s : State} {acc : State × List XPair × List Frame} (r : State) (ports : List Nat) (first : Bool)
    (h : pointersMoved s acc.1) : pointersMoved s (matchRound r ports first acc).1 := by
  unfold matchRound
  refine List.foldlRecOn _ _ (motive := fun (x : State × List XPair × List Frame) => pointersMoved s x.1) h ?_
  rintro ⟨t, pairs, got⟩ ⟨g, a, rfl⟩ i _
  dsimp only
  split
  case isTrue => exact ⟨g, a, rfl⟩
  case isFalse =>
    split
    case h_1 => exact ⟨g, a, rfl⟩
    case h_2 =>
      split
      case h_1 => exact ⟨g, a, rfl⟩
      case h_2 => cases first <;> exact ⟨_, _, rfl⟩

/-- A cell time of the matcher: pointers move, matched heads leave the express heads for their queues, and every pair carried on has cells left. -/
theorem matchCell_shape (s : State) : ∃ g a qs, ∃ (ids : List Nat) (pairs : List XPair), matchCell s = { s with
    h.fab.gptr := g, h.fab.aptr := a, h.fab.queues := qs
    h.fab.express := s.h.fab.express.filter (fun f => !ids.contains f.id)
    h.fab.pairs := pairs.filter (fun p => decide (0 < p.left)) } := by
  have hrounds := List.foldlRecOn (List.range (fieldOf s 0x10C004 0 3)) (fun acc r => matchRound
      { s with h.fab.express := s.h.fab.express.filter (fun f => !acc.2.2.any (fun g : Frame => g.id == f.id)) }
      (expressPorts s) (r == 0) acc)
    (motive := fun (acc : State × List XPair × List Frame) => pointersMoved s acc.1) (b := (s, s.h.fab.pairs, [])) (pointersMoved_refl s)
    fun acc h r _ => matchRound_pointersMoved _ _ _ h
  unfold matchCell
  dsimp only
  obtain ⟨g, a, hst⟩ := hrounds
  rw [hst]
  obtain ⟨qs, hqs⟩ := foldl_enqueue_shape _ _
  rw [hqs]
  exact ⟨g, a, qs, _, _, rfl⟩

/-! ## The scheduler's choices (R330, R331) -/

section
variable (s : State)

theorem exec_egressSchedule_eth {e : Nat} (h : e ≤ 11) : exec (.egressSchedule e) s = .next (scheduleEth e s) :=
  congrArg Host.Outcome.next (if_pos h)

theorem exec_egressSchedule_can {n : Nat} (h : n < 24) : exec (.egressSchedule (16 + n)) s = .next (scheduleCan n s) := by
  show execEgressSchedule (16 + n) s = _
  unfold execEgressSchedule
  rw [if_neg (by omega), if_pos (by omega), Nat.add_sub_cancel_left]

theorem exec_egressSchedule_fcan {n : Nat} (h : n < 8) : exec (.egressSchedule (40 + n)) s = .next (scheduleFcan n s) := by
  show execEgressSchedule (40 + n) s = _
  unfold execEgressSchedule
  rw [if_neg (by omega), if_neg (by omega), if_pos (by omega), Nat.add_sub_cancel_left]

theorem exec_egressSchedule_lin {c : Nat} (h : c < 8) : exec (.egressSchedule (48 + c)) s = .next (scheduleLin c s) := by
  show execEgressSchedule (48 + c) s = _
  unfold execEgressSchedule
  rw [if_neg (by omega), if_neg (by omega), if_neg (by omega), if_pos (by omega), Nat.add_sub_cancel_left]

theorem exec_egressSchedule_internal {e : Nat} (h : e = 64 ∨ e = 67 ∨ e = 68) :
    exec (.egressSchedule e) s = .next (scheduleInternal e s) := by
  show execEgressSchedule e s = _
  unfold execEgressSchedule
  rw [if_neg (by omega), if_neg (by omega), if_neg (by omega), if_neg (by omega), if_pos h]

end

section
variable {s u : State} {f : Frame}

/-- An idle Ethernet port has no frame to end: its scheduler's choice starts. -/
theorem scheduleEth_idle {e : Nat} (hidle : KMap.get? s.h.fab.txing e = none) (h : scheduled s e = some (f, u)) :
    scheduleEth e s = ethStart e f u := by
  have hdone : ethTxDone e s = s := by
    unfold ethTxDone
    rw [hidle]
  unfold scheduleEth
  rw [if_neg (by simp [hidle]), hdone]
  dsimp only
  rw [h]

theorem scheduleCan_free {n : Nat} (hslot : (freeSlot (canOf s n)).isSome = true) (h : scheduled s (16 + n) = some (f, u)) :
    scheduleCan n s = placeFrame n f.bytes f.queue f.pres u := by
  unfold scheduleCan
  rw [Option.isNone_eq_false_iff.mpr hslot, if_neg Bool.false_ne_true, h]

theorem scheduleFcan_free {n : Nat} {b : Bytes} {r : List Bytes} (hslot : (freeSlot (canOf s (24 + n))).isSome = true)
    (h : nth s.f.inbox n [] = b :: r) :
    scheduleFcan n s = placeFrame (24 + n) b 0 (fnow s) { s with f.inbox := setNth s.f.inbox n r } := by
  unfold scheduleFcan
  rw [Option.isNone_eq_false_iff.mpr hslot, if_neg Bool.false_ne_true, h]

theorem scheduleLin_chosen {c : Nat} (h : scheduled s (48 + c) = some (f, u)) : scheduleLin c s = linMove c f.bytes u := by
  unfold scheduleLin
  rw [h]

theorem scheduleInternal_head {e : Nat} (h : takeHead s e = some (f, u)) : scheduleInternal e s = u := by
  unfold scheduleInternal
  rw [h]

end

/-- Settles O31: the pipeline, the heads and the matcher each by their own law, and one equation for each kind of egress port. -/
theorem framesMoveOn : Obligations.FramesMoveOn := by
  unfold Obligations.FramesMoveOn
  refine ⟨fun s p e hready => congrArg Host.Outcome.next (classifyNext_ready hready), fun _ _ => rfl, ?matcher, ?eth, ?can, ?fcan, ?lin, ?internal⟩
  case matcher =>
    intro s
    obtain ⟨g, a, qs, ids, pairs, hcell⟩ := matchCell_shape s
    refine ⟨_, congrArg Host.Outcome.next hcell, rfl, rfl, rfl, fun _ hf => List.mem_of_mem_filter hf, fun p hp => ?_⟩
    have hleft := List.of_mem_filter hp
    exact of_decide_eq_true hleft
  case eth => exact fun s u e f he hidle h => (exec_egressSchedule_eth s he).trans (congrArg Host.Outcome.next (scheduleEth_idle hidle h))
  case can => exact fun s u n f hn hslot h => (exec_egressSchedule_can s hn).trans (congrArg Host.Outcome.next (scheduleCan_free hslot h))
  case fcan => exact fun s n b r hn hslot h => (exec_egressSchedule_fcan s hn).trans (congrArg Host.Outcome.next (scheduleFcan_free hslot h))
  case lin => exact fun s u c f hc h => (exec_egressSchedule_lin s hc).trans (congrArg Host.Outcome.next (scheduleLin_chosen h))
  case internal => exact fun s u e f he h => (exec_egressSchedule_internal s he).trans (congrArg Host.Outcome.next (scheduleInternal_head h))

/-! ## Purges and gates (R327, R332) -/

theorem msTicks_eq (n : Nat) : msTicks n = 125000 * n := Nat.mul_comm n 125000

/-- A stopped port purges the frames whose hold limit has passed before the present tick. -/
theorem exec_holdLimitPurge_stopped {s : State} {e : Nat} (h : wasStopped s e = true) :
    exec (.holdLimitPurge e) s = .next (
      ((List.range 16).flatMap (fun q => (queueOf s (e * 16 + q)).filter (fun f =>
        decide (tickOf f.pres + 125000 * fieldOf s (0x100088 + e * 0x1000) 0 16 < curTick s)))).foldl purgeFrame s) := by
  have hpurge : exec (.holdLimitPurge e) s = .next (purgePort (curTick s) e s) := congrArg Host.Outcome.next (if_pos h)
  rw [hpurge, purgePort, msTicks_eq]

theorem exec_holdLimitPurge_running {s : State} {e : Nat} (h : wasStopped s e = false) : exec (.holdLimitPurge e) s = .next s :=
  congrArg Host.Outcome.next (if_neg (by simp [h]))

/-- An interval that ends within the present tick gives way to the next record, or, after the last, to the list and the base in force from here on. -/
theorem gateEnd_due {s : State} {e i stop start : Nat} (h : KMap.get? s.h.fab.gate e = some (i, stop, start)) (hdue : tickOf stop ≤ curTick s) :
    gateEnd e s =
      let l := KMap.getD s.h.fab.gateList e []
      if i + 1 < l.length then
        { s with h.fab.gate := KMap.put s.h.fab.gate e (i + 1, stop + fieldLE (nth l (i + 1) []) 0 4, start) }
      else gateAt e stop (gateRecs (takeBase e s) e) (takeBase e s) := by
  unfold gateEnd
  rw [h]
  exact if_neg (Nat.not_lt.mpr hdue)

/-! ## Writes of FAB.PLANECTL and FAB.GBASE (R300, R333) -/

/-- A host-die register whose write's effect depends on what stood in it: where its checks pass, the write stores the value and sets off that effect. -/
theorem masterWrite_changes (s : State) (o : Origin) (a v : Nat) (E : Nat → State → State) (hp : passes s o a v) (hv : v < 2 ^ 32)
    (hstore : storesElsewhere a = false) (hbefore : ∀ old u, beforeWrite a old v u = u)
    (heffect : ∀ old u, regEffect false o a old v u = E old u) :
    wrote s (fun u => E (standing o a u) (stored false o a v u)) (masterWrite o a v s) :=
  masterWrite_wrote s o a v _ hp hv fun d u hd => by
    have hold : standing o a u = peekReg u false o d a := by
      unfold standing
      rw [hd]
    rw [heffect, hold, written_stored o d a v u hd hstore (hbefore _ u)]

/-- The registers of an egress port: of their writes only those of GBASE set anything off. -/
theorem regEffect_fabPort {e off : Nat} (he : e ≤ 11) (hoff : off < 0x1000) (fs : Bool) (o : Origin) (old v : Nat) (u : State) :
    regEffect fs o (0x100000 + off + e * 0x1000) old v u =
      if off = 0x98 then { u with h.fab.gbaslHeld := KMap.put u.h.fab.gbaslHeld e v }
      else if off = 0x9C then gbaseEffect e v u
      else u := by
  have hpage : (0x100000 + off + e * 0x1000 - 0x100000) / 0x1000 = e := by omega
  have hrest : (0x100000 + off + e * 0x1000 - 0x100000) % 0x1000 = off := by omega
  unfold regEffect
  rw [if_neg (by omega), if_pos (by omega)]
  unfold effectNet
  dsimp only
  rw [if_neg (by omega), if_pos (by omega), hpage, hrest]

theorem storesElsewhere_gbase {e off : Nat} (he : e ≤ 11) (hoff : off = 0x98 ∨ off = 0x9C) :
    storesElsewhere (0x100000 + off + e * 0x1000) = true := by
  simp only [storesElsewhere, Bool.or_eq_true, Bool.and_eq_true, Bool.not_eq_true', Bool.and_eq_false_iff, beq_iff_eq, decide_eq_true_eq,
    decide_eq_false_iff_not]
  omega

/-- A write of a half of GBASE sets off its effect and leaves the register file to it. -/
theorem masterWrite_gbase {e off : Nat} (s : State) (o : Origin) (v : Nat) (E : State → State) (he : e ≤ 11) (hoff : off = 0x98 ∨ off = 0x9C)
    (hp : passes s o (0x100000 + off + e * 0x1000) v) (hv : v < 2 ^ 32)
    (heffect : ∀ old u, regEffect false o (0x100000 + off + e * 0x1000) old v u = E u) :
    wrote s E (masterWrite o (0x100000 + off + e * 0x1000) v s) :=
  masterWrite_elsewhere s o _ v E hp hv (storesElsewhere_gbase he hoff) (fun old u => beforeWrite_below (by omega) old v u) heffect

/-- Settles O32: credit, sources and pressure by their definitions, purges and gates by their conditions, and each write by its effect. -/
theorem fabricControlTakesEffect : Obligations.FabricControlTakesEffect := by
  unfold Obligations.FabricControlTakesEffect
  refine ⟨fun _ _ => rfl, fun s e => exec_holdLimitPurge_stopped, fun s e => exec_holdLimitPurge_running, ?divergence, ?pressure, fun _ => rfl,
    fun s e i stop start h hdue => congrArg Host.Outcome.next (gateEnd_due h hdue), ?planes, ?low, ?high⟩
  case divergence =>
    intro s e he
    exact congrArg Host.Outcome.next ((if_pos he).trans (raise_host (0x40 + e / 16) 0 s (by omega)))
  case pressure => exact fun s => congrArg Host.Outcome.next (raise_host 0x50 0 { s with h.fab.pressure := true } (by decide))
  case planes =>
    exact fun s o v hp => ⟨_, rfl, masterWrite_changes s o 0x10C000 v.toNat
      (fun old u => planeEffect 4 (bit old 1) (bit v.toNat 1) (planeEffect 3 (bit old 0) (bit v.toNat 0) u))
      hp v.isLt rfl (fun _ _ => rfl) (fun _ _ => rfl)⟩
  case low =>
    exact fun s o e v he hp => ⟨_, rfl, masterWrite_gbase (off := 0x98) s o v.toNat _ he (.inl rfl) hp v.isLt fun old u =>
      regEffect_fabPort he (by decide) false o old v.toNat u⟩
  case high =>
    exact fun s o e v he hp => ⟨_, rfl, masterWrite_gbase (off := 0x9C) s o v.toNat _ he (.inr rfl) hp v.isLt fun old u =>
      regEffect_fabPort he (by decide) false o old v.toNat u⟩

end Sys2Proof.Laws
end

section
/-! Live tables and virtual ports (O29, O33): each operation of GTW.LTCTL as one write whose effect reads what stood before it, and what a virtual port consumes and emits by its role, at a periodic boundary and at a tunnel's MAXWAIT. -/

namespace Sys2Proof.Laws

open Sys2Proof Sys2Proof.Machine

/-! ## A write of GTW.LTCTL (R380) -/

/-- A banked register of the host die stores a write in the writer's own cell. -/
theorem stored_banked {a : Nat} (h : (regAt a).map (·.bank) = some true) (o : Origin) (v : Nat) (u : State) :
    ∃ x, stored false o a v u = setReg u (bank o a) x := by
  obtain ⟨d, hd, hbank⟩ := Option.map_eq_some_iff.mp h
  have hkey : storeKey false d o a = bank o a := by
    show bankKey d o a = bank o a
    rw [bankKey, if_pos hbank, bank]
  unfold stored
  rw [hd]
  dsimp only
  rw [hkey]
  exact ⟨_, rfl⟩

section
variable {s u : State} (h : beside [] s u) (o : Origin) (op : Nat)
include h

/-- Storing the operation leaves what the operations read beside the register file: the image, the live tables and the lists staged. -/
theorem stored_ltctl_tables :
    (stored false o 0x210004 op u).h.img.image = s.h.img.image ∧ (stored false o 0x210004 op u).h.img.live = s.h.img.live ∧
    (stored false o 0x210004 op u).h.gtw = s.h.gtw := by
  obtain ⟨hu, _⟩ := h
  obtain ⟨rg, hstored⟩ := stored_shape false o 0x210004 op u
  rw [hstored, hu]
  exact ⟨rfl, rfl, rfl⟩

/-- Storing the operation leaves every other register of the gateway's banks: LTSEL and LTDATA. -/
theorem stored_ltctl_reg {a : Nat} (hlow : 0x210000 ≤ a) (ha : a ≠ 0x210004) :
    reg (stored false o 0x210004 op u) (bank o a) = reg s (bank o a) := by
  obtain ⟨_, hregs, _⟩ := h
  obtain ⟨x, hstored⟩ := stored_banked (show (regAt 0x210004).map (·.bank) = some true by decide) o op u
  have hother : bank o a ≠ bank o 0x210004 := by
    unfold bank
    omega
  have hint : bank o a ≠ 0x4C := by
    unfold bank
    omega
  have hget : RegFile.get (setReg u (bank o 0x210004) x).regs (bank o a) = RegFile.get s.regs (bank o a) :=
    (regFile_get_set_ne u.regs (bank o 0x210004) (bank o a) _ hother).trans (hregs (bank o a) hint List.not_mem_nil)
  unfold reg
  rw [hstored, hget]

/-- The operation acts on the record that the writer had selected before it. -/
theorem ltChange_stored (write : Bool) : ltChange (stored false o 0x210004 op u) o write = ltChange s o write := by
  obtain ⟨himage, _⟩ := stored_ltctl_tables h o op
  have hsel := stored_ltctl_reg h o op (a := 0x210000) (by decide) (by decide)
  have hsect : ∀ inst, sect? (stored false o 0x210004 op u) 4 inst = sect? s 4 inst := fun inst => by
    unfold sect?
    rw [himage]
  have hdata : ∀ n, ltData (stored false o 0x210004 op u) o n = ltData s o n := fun n => by
    have hword : ∀ k, reg (stored false o 0x210004 op u) (bank o (0x210010 + 4 * k)) = reg s (bank o (0x210010 + 4 * k)) := fun k =>
      stored_ltctl_reg h o op (by omega) (by omega)
    simp only [ltData, hword]
  unfold ltChange
  simp only [hsel, hsect, hdata]

/-- The operation acts on the list that the writer had staged before it. -/
theorem stagingOf_stored : stagingOf (stored false o 0x210004 op u) o = stagingOf s o := by
  obtain ⟨_, _, hgtw⟩ := stored_ltctl_tables h o op
  unfold stagingOf
  rw [hgtw]

end

/-- What READ sets off (R380): the words of a record, or 0 where there is none, in the writer's LTDATA, and PRESENT. -/
def ltLoad (o : Origin) (r : Option Bytes) (u : State) : State :=
  setField ((List.range 16).foldl (fun x k => setReg x (o.code * 0x1000000 + 0x210010 + 4 * k) (wordAt (r.getD []) k)) u)
    (o.code * 0x1000000 + 0x210004) 16 1 (b2n r.isSome)

/-- READ loads the record that the writer's LTSEL names. -/
theorem ltEffect_read (o : Origin) (u : State) :
    ltEffect o 7 u =
      let sel := reg u (bank o 0x210000)
      ltLoad o (KMap.get? u.h.img.live (liveKey (bits sel 0 7) (bits sel 16 16))) u := by
  unfold ltLoad
  simp only [Nat.add_assoc]
  rfl

/-- An operation written to GTW.LTCTL by a write that passes its checks: its effect, in the terms `G` of the state before the write. -/
theorem masterWrite_ltctl {s : State} {o : Origin} {op : Nat} (hop : op < 8) (hp : passes s o 0x210004 op) {G : State → State}
    (hG : ∀ u, beside [] s u → ltEffect o op (stored false o 0x210004 op u) = G u) : wrote s G (masterWrite o 0x210004 op s) := by
  have hfield : bits op 0 3 = op := by
    unfold bits
    omega
  have hwrote : wrote s (fun u => ltEffect o op (stored false o 0x210004 op u)) (masterWrite o 0x210004 op s) :=
    masterWrite_stores s o 0x210004 op (ltEffect o op) hp (by omega) rfl (fun _ _ => rfl) fun _ u => by
      show ltEffect o (bits op 0 3) u = _
      rw [hfield]
  exact wrote_congr hwrote hG

/-- Settles O29: each operation is one write of GTW.LTCTL, whose effect reads the selection, the record and the list from before it. -/
theorem liveTableOperationsTakeEffect : Obligations.LiveTableOperationsTakeEffect := by
  unfold Obligations.LiveTableOperationsTakeEffect
  refine ⟨fun s o hp => ⟨_, rfl, masterWrite_ltctl (by decide) hp fun u hu => ?write⟩,
    fun s o hp => ⟨_, rfl, masterWrite_ltctl (by decide) hp fun u hu => ?delete⟩,
    fun s o hp => ⟨_, rfl, masterWrite_ltctl (by decide) hp fun u hu => ?stage⟩,
    fun s o hp => ⟨_, rfl, masterWrite_ltctl (by decide) hp fun u hu => ?stagedel⟩,
    fun s o hp => ⟨_, rfl, masterWrite_ltctl (by decide) hp fun u hu => ?commit⟩,
    fun s o hp => ⟨_, rfl, masterWrite_ltctl (by decide) hp fun _ _ => rfl⟩,
    fun s o hp => ⟨_, rfl, masterWrite_ltctl (by decide) hp fun u hu => ?read⟩⟩
  case write =>
    rw [← ltChange_stored hu o 1]
    rfl
  case delete =>
    rw [← ltChange_stored hu o 2]
    rfl
  case stage =>
    rw [← stagingOf_stored hu o 3, ← ltChange_stored hu o 3]
    rfl
  case stagedel =>
    rw [← stagingOf_stored hu o 4, ← ltChange_stored hu o 4]
    rfl
  case commit =>
    rw [← stagingOf_stored hu o 5]
    rfl
  case read =>
    obtain ⟨_, hlive, _⟩ := stored_ltctl_tables hu o 7
    have hsel := stored_ltctl_reg hu o 7 (a := 0x210000) (by decide) (by decide)
    rw [ltEffect_read, hsel, hlive]
    rfl

/-! ## Virtual ports (R370, R375, R378) -/

/-- The input of least key is consumed by the port's role where every periodic boundary lies in a later tick. -/
theorem consumeNext_input {s : State} {v : Nat} {f : Frame} (h : nextInput s v = some f)
    (hlater : ∀ b ∈ portBoundaries s v, tickOf f.pres < tickOf b.2) :
    consumeNext v s =
      let u := setQueue s f.queue ((queueOf s f.queue).drop 1)
      match vrole s v with
      | 1 => emitAt v f.pres f.stamp f.kk f.bytes f.err u
      | 2 => if f.kk = 5 then containerInput f u else u
      | 3 => encapInput v f u
      | 4 => decapInput v f u
      | _ => u := by
  have hnone : ¬ (portBoundaries s v).any (fun b => decide (tickOf b.2 ≤ tickOf f.pres)) = true := by
    rw [List.any_eq_true]
    rintro ⟨b, hb, hle⟩
    exact absurd (of_decide_eq_true hle) (Nat.not_le.mpr (hlater b hb))
  unfold consumeNext
  rw [h]
  exact if_neg hnone

/-- Where the oldest tick, if there is one, is not before `t`, none is. -/
theorem oldest_not_before {m : Option Nat} {t : Nat} (h : ∀ i, m = some i → t ≤ i) : ¬ m.any (fun i => decide (i < t)) = true := by
  cases m with
  | none => exact Bool.false_ne_true
  | some i => exact fun hlt => absurd (of_decide_eq_true hlt) (Nat.not_lt.mpr (h i rfl))

/-- The earliest boundary, once reached with no input of an earlier tick before it: its containers are emitted, and each waits for its next. -/
theorem periodicEmit_reached {s : State} {v k b : Nat} {r : List (Nat × Nat)} (h : portBoundaries s v = (k, b) :: r) (hreached : b ≤ s.time.now)
    (hinput : ∀ i, oldestInput s v = some i → tickOf b ≤ i) (hunreleased : ∀ i, oldestUnreleased s v = some i → tickOf b ≤ i) :
    periodicEmit v s = (((k, b) :: r).filter (fun x => x.2 == b)).foldl (fun u x =>
      let w := emitContainer x.1 b b u
      match liveRec w 0x17 x.1 with
      | some c => { w with h.gtw.boundary := KMap.put w.h.gtw.boundary x.1 (b + fieldLE c 4 4 * 1000) }
      | none => w) s := by
  unfold periodicEmit
  rw [h]
  refine if_neg ?_
  rintro (hearly | hearlier | hearlier)
  · exact Nat.not_lt.mpr hreached hearly
  · exact oldest_not_before hinput hearlier
  · exact oldest_not_before hunreleased hearlier

/-- An open AVTPDU whose MAXWAIT has passed since its first message is emitted, stamped at that instant. -/
theorem timedEmit_due {s : State} {k : Nat} {r : Bytes} (h : liveRec s 0x18 k = some r) (hopen : (tunnelOf s k).count ≠ 0)
    (hdue : (tunnelOf s k).first + fieldLE r 4 2 * 1000 ≤ s.time.now) :
    timedEmit k s = emitTunnel k ((tunnelOf s k).first + fieldLE r 4 2 * 1000) s := by
  unfold timedEmit
  rw [h]
  exact if_neg (not_or.mpr ⟨hopen, Nat.not_lt.mpr hdue⟩)

/-- Settles O33: consumption, periodic emission and timed emission, each by its law. -/
theorem virtualPortsActByRole : Obligations.VirtualPortsActByRole := by
  unfold Obligations.VirtualPortsActByRole
  refine ⟨fun s v f h hlater => ?consume, fun s v k b r h hreached hinput hunreleased => ?periodic, fun s k r h hopen hdue => ?timed⟩
  case consume => exact congrArg Host.Outcome.next (consumeNext_input h hlater)
  case periodic => exact congrArg Host.Outcome.next (periodicEmit_reached h hreached hinput hunreleased)
  case timed => exact congrArg Host.Outcome.next (timedEmit_due h hopen hdue)

end Sys2Proof.Laws
end

section
/-! The CAN FD controllers and the wake listeners (O34, O35, O36): the writes of CAN.CTL and CAN.TXABORT on either die, the events that end a controller's waiting, its attempts and their ends, the frames it receives, and what a listener makes of a frame or an error. -/

namespace Sys2Proof.Laws

open Sys2Proof Sys2Proof.Machine

/-! ## A store of the FS -/

/-- A register of the FS's address space whose write's effect depends on what stood in it: where its checks pass, the store leaves the value and sets off that effect. -/
theorem masterWrite_changesFs (s : State) (a v : Nat) (E : Nat → State → State) (hp : passesFs s a v) (hv : v < 2 ^ 32)
    (hstore : storesElsewhere a = false) (hbefore : ∀ old u, beforeWrite a old v u = u)
    (heffect : ∀ old u, regEffect true .fs a old v u = E old u) :
    wroteFs a v (fun u => E (standingFs a u) (stored true .fs a v u)) s (masterWrite .fs a v s) :=
  masterWrite_wroteFs s a v _ hp hv fun d hd => by
    have hold : standingFs a s = peekReg s true .fs d a := by
      unfold standingFs
      rw [hd]
    rw [heffect, hold, written_stored .fs d a v s hd hstore (hbefore _ s)]

/-! ## Registers of a controller's page (R398, R407, R415) -/

theorem canAddr_txabort (n : Nat) : canAddr n 0x20 = 0x400020 + n * 0x1000 := by
  unfold canAddr
  omega

section
variable {n off : Nat} (hn : n < 32) (hoff : off < 0x1000)
include hn hoff

theorem canAddr_range : 0x400000 ≤ canAddr n off ∧ canAddr n off < 0x420000 := by
  unfold canAddr
  omega

theorem storesElsewhere_can : storesElsewhere (canAddr n off) = false := by
  obtain ⟨hlow, hhigh⟩ := canAddr_range hn hoff
  simp only [storesElsewhere, Bool.or_eq_false_iff, Bool.and_eq_false_iff, beq_eq_false_iff_ne, decide_eq_false_iff_not]
  omega

theorem beforeWrite_can (old v : Nat) (u : State) : beforeWrite (canAddr n off) old v u = u := by
  obtain ⟨_, hhigh⟩ := canAddr_range hn hoff
  exact beforeWrite_below (by omega) old v u

/-- The controllers of a die: of their registers' writes only those of CAN.CTL and CAN.TXABORT set anything off. -/
theorem regEffect_can {fs : Bool} (hdie : n < 24 ∨ fs = true) (o : Origin) (old v : Nat) (u : State) :
    regEffect fs o (canAddr n off) old v u =
      if off = 0 then
        let w := canInitEffect n (bit old 0) (bit v 0) u
        if bit v 1 then canRecoverEffect n w else w
      else if off = 0x20 then canAbortEffect n (bits v 0 8) u
      else u := by
  obtain ⟨hlow, hhigh⟩ := canAddr_range hn hoff
  have hpage : (canAddr n off - 0x400000) / 0x1000 = n := by
    unfold canAddr
    omega
  have hrest : canAddr n off % 0x1000 = off := by
    unfold canAddr
    omega
  unfold regEffect
  rw [if_neg (by omega), if_pos (by omega)]
  unfold effectNet
  dsimp only
  rw [if_neg (by omega), if_neg (by omega), if_neg (by omega), if_neg (by omega), if_pos hhigh, hpage, hrest, if_pos hdie]

/-- A write by a master of the host die of a register of a host controller that sets off `E`. -/
theorem masterWrite_can {s : State} {o : Origin} {v : Nat} (E : Nat → State → State) (hp : passes s o (canAddr n off) v) (hv : v < 2 ^ 32)
    (heffect : ∀ old u, regEffect false o (canAddr n off) old v u = E old u) :
    wrote s (fun u => E (standing o (canAddr n off) u) (stored false o (canAddr n off) v u)) (masterWrite o (canAddr n off) v s) :=
  masterWrite_changes s o _ v E hp hv (storesElsewhere_can hn hoff) (fun old u => beforeWrite_can hn hoff old v u) heffect

/-- A store of the FS to a register of a controller of the field die that sets off `E`. -/
theorem masterWrite_fcan {s : State} {v : Nat} (E : Nat → State → State) (hp : passesFs s (canAddr n off) v) (hv : v < 2 ^ 32)
    (heffect : ∀ old u, regEffect true .fs (canAddr n off) old v u = E old u) :
    wroteFs (canAddr n off) v (fun u => E (standingFs (canAddr n off) u) (stored true .fs (canAddr n off) v u)) s (masterWrite .fs (canAddr n off) v s) :=
  masterWrite_changesFs s _ v E hp hv (storesElsewhere_can hn hoff) (fun old u => beforeWrite_can hn hoff old v u) heffect

end

theorem bit_mod_two (x : Nat) : bit (x % 2) 0 = bit x 0 := by simp [bit]

theorem bit_mod_two_high (x : Nat) : bit (x % 2) 1 = false := by
  unfold bit
  rw [beq_eq_false_iff_ne]
  omega

theorem bit_mod_two_add (x : Nat) : bit (x % 2 + 2) 0 = bit x 0 := by simp [bit]

theorem bit_mod_two_add_high (x : Nat) : bit (x % 2 + 2) 1 = true := by
  unfold bit
  rw [beq_iff_eq]
  omega

section
variable {n : Nat} (hn : n < 32) {fs : Bool} (hdie : n < 24 ∨ fs = true) (o : Origin) (old : Nat) (u : State)
include hn hdie

/-- CAN.CTL written without RECOVER sets off INIT alone. -/
theorem regEffect_canInit (v : Nat) : regEffect fs o (canAddr n 0) old (v % 2) u = canInitEffect n (bit old 0) (bit v 0) u := by
  rw [regEffect_can hn (by decide) hdie, if_pos rfl, bit_mod_two, bit_mod_two_high]
  rfl

/-- CAN.CTL written with RECOVER and INIT as `v` has it: INIT first, then the recovery. -/
theorem regEffect_canRecover (v : Nat) :
    regEffect fs o (canAddr n 0) old (v % 2 + 2) u = canRecoverEffect n (canInitEffect n (bit old 0) (bit v 0) u) := by
  rw [regEffect_can hn (by decide) hdie, if_pos rfl, bit_mod_two_add, bit_mod_two_add_high]
  rfl

theorem regEffect_canAbort (v : Nat) : regEffect fs o (canAddr n 0x20) old v u = canAbortEffect n (bits v 0 8) u := by
  rw [regEffect_can hn (by decide) hdie, if_neg (by decide), if_pos rfl]

end

/-! ## Integration, recovery and status records (R399, R407, R421) -/

/-- A controller whose TEC is below bus-off is error-passive above 127, error-active otherwise. -/
theorem canIntegrate_ready {s : State} {n : Nat} (hstate : (canOf s n).state = 1) (htec : (canOf s n).tec ≤ 255) :
    canIntegrate n s = setCan s n { canOf s n with state := if 127 < (canOf s n).tec ∨ 127 < (canOf s n).rxErr then 3 else 2 } := by
  have herr : errState (canOf s n).tec (canOf s n).rxErr = if 127 < (canOf s n).tec ∨ 127 < (canOf s n).rxErr then 3 else 2 :=
    if_neg (Nat.not_lt.mpr htec)
  have hon : errState (canOf s n).tec (canOf s n).rxErr ≠ 4 := by
    rw [herr]
    split <;> decide
  unfold canIntegrate settleErrors
  rw [if_pos hstate, if_neg (by simp [canActive])]
  dsimp only
  rw [if_neg hon, herr]

theorem canRecovered_recovering {s : State} {n : Nat} (h : (canOf s n).state = 5) :
    canRecovered n s = canPortState n (setCan s n { canOf s n with state := 2, tec := 0, rxErr := 0 }) := if_pos h

/-- Settles O34: each write by what its register's page sets off, each event by its condition. -/
theorem canControlTakesEffect : Obligations.CanControlTakesEffect := by
  unfold Obligations.CanControlTakesEffect
  refine ⟨fun s o n v hn hp => ⟨_, rfl, ?init⟩, fun s n v hlow hn hp => ⟨_, rfl, ?initFs⟩, fun s o n hn hp => ⟨_, rfl, ?recover⟩,
    fun s n hlow hn hp => ⟨_, rfl, ?recoverFs⟩, fun s o n v hn hp => ⟨_, rfl, ?abort⟩, fun s n v hlow hn hp => ⟨_, rfl, ?abortFs⟩,
    fun s n hstate htec => congrArg Host.Outcome.next (canIntegrate_ready hstate htec),
    fun s n h => congrArg Host.Outcome.next (canRecovered_recovering h),
    fun s hstate hint => congrArg Host.Outcome.next (if_pos ⟨hstate, hint⟩)⟩
  case init =>
    exact masterWrite_can (off := 0) (by omega) (by decide) (fun old u => canInitEffect n (bit old 0) (bit v.toNat 0) u) hp (by omega)
      fun old u => regEffect_canInit (by omega) (.inl hn) o old u v.toNat
  case initFs =>
    exact masterWrite_fcan (off := 0) hn (by decide) (fun old u => canInitEffect n (bit old 0) (bit v.toNat 0) u) hp (by omega)
      fun old u => regEffect_canInit hn (.inr rfl) .fs old u v.toNat
  case recover =>
    exact masterWrite_can (off := 0) (by omega) (by decide)
      (fun old u => canRecoverEffect n (canInitEffect n (bit old 0) (bit (reg s (canReg n 0)) 0) u)) hp (by omega)
      fun old u => regEffect_canRecover (by omega) (.inl hn) o old u (reg s (canReg n 0))
  case recoverFs =>
    exact masterWrite_fcan (off := 0) hn (by decide)
      (fun old u => canRecoverEffect n (canInitEffect n (bit old 0) (bit (reg s (canReg n 0)) 0) u)) hp (by omega)
      fun old u => regEffect_canRecover hn (.inr rfl) .fs old u (reg s (canReg n 0))
  case abort =>
    rw [← canAddr_txabort n] at hp ⊢
    exact masterWrite_can (by omega) (by decide) (fun _ u => canAbortEffect n (bits v.toNat 0 8) u) hp v.isLt
      fun old u => regEffect_canAbort (by omega) (.inl hn) o old u v.toNat
  case abortFs =>
    rw [← canAddr_txabort n] at hp ⊢
    exact masterWrite_fcan hn (by decide) (fun _ u => canAbortEffect n (bits v.toNat 0 8) u) hp v.isLt
      fun old u => regEffect_canAbort hn (.inr rfl) .fs old u v.toNat

/-! ## Attempts (R400, R412 to R416) -/

section
variable {s : State} {n i : Nat}

/-- A running controller without an attempt puts the slot it offers on the bus. -/
theorem canAttempt_offered {x : Slot} (m : Nat) (hactive : canActive (canOf s n) = true) (hfree : canRestricted (canOf s n) = false)
    (hidle : attemptSlot (canOf s n) = none) (hoffer : offerSlot (canOf s n) = some i) (hslot : nth (canOf s n).slots i none = some x) :
    canAttempt n m s = setCan s n { canOf s n with
      slots := (canOf s n).slots.set i (some { x with attempt := true, tries := satAdd 16 x.tries 1 })
      tdcv := if bit (canIdw (wireFrame (canOf s n) x.body)) 31 && bit (fieldLE (wireFrame (canOf s n) x.body) 4 1) 0 && bit (canOf s n).tdc 16 && decide (m ≤ 127)
        then m else (canOf s n).tdcv
      wire := some (wireFrame (canOf s n) x.body) } := by
  unfold canAttempt
  dsimp only
  rw [if_neg (by simp [hactive, hfree, hidle]), hoffer]
  dsimp only
  rw [hslot]

theorem canComplete_attempting (h : attemptSlot (canOf s n) = some i) :
    canComplete n s = finishStop n (endStall n true (settleErrors n
      { canOf s n with
        slots := (canOf s n).slots.set i none, lastDone := s.time.now, wire := none
        tec := if canRestricted (canOf s n) then (canOf s n).tec else (canOf s n).tec - 1 }
      (bump s (canReg n 0x24) 0 16 1))) := by
  unfold canComplete
  dsimp only
  rw [h]

/-- A failed attempt: arbitration lost is counted, an error settles the counters; then the frame stays or its abort takes it. -/
theorem canFail_attempting {code : Nat} (more : Nat) (dp nd sa : Bool) (h : attemptSlot (canOf s n) = some i) (hcode : code ≤ 6) :
    canFail n code dp nd sa more s = finishStop n (canAttemptOver n (
      if code = 0 then bump s (canReg n 0x2C) 16 16 1
      else
        let u := canErrCode n code dp s
        settleErrors n { canOf u n with tec := tecAfterError (canOf u n) code nd sa more } u)) := by
  have hgo : ¬ ((attemptSlot (canOf s n)).isNone = true ∨ 6 < code) := by
    rw [h]
    simp [hcode]
  unfold canFail
  rw [if_neg hgo]
  rfl

end

/-! ## Received frames and errors (R167, R403 to R408, R417, R418) -/

section
variable {s : State} {n : Nat}

/-- A well-formed frame at a running controller that takes its format: late on the host die, or counted, and handed on or lost. -/
theorem canReceive_taken {b : Bytes} (stamp : Stamp) (hn : n < 32) (hactive : canActive (canOf s n) = true) (hok : canBodyOk b = true)
    (hformat : bit (canIdw b) 31 = true → bit (canOf s n).cfg 0 = true) :
    canReceive n stamp b s =
      if n < 24 ∧ isLate s stamp = true then dropLate s
      else
        let u := canRxCount n s
        if 8 ≤ rxWaiting u n then
          raise (if n < 24 then 0x18 + n else 0x108 + (n - 24)) (if n < 24 then n else n - 24) (bump u (canReg n 0x30) 16 16 1)
        else canHand n stamp (overlay b 6 [0, 0]) (bump u (canReg n 0x30) 0 16 1) := by
  have hgo : ¬ (32 ≤ n ∨ (!canActive (canOf s n)) = true ∨ (!canBodyOk b) = true ∨
      (bit (canIdw b) 31 = true ∧ (!bit (canOf s n).cfg 0) = true)) := by
    rintro (hrange | hstill | hbad | ⟨hfd, hclassic⟩)
    · omega
    · simp [hactive] at hstill
    · simp [hok] at hbad
    · simp [hformat hfd] at hclassic
  unfold canReceive
  dsimp only
  rw [if_neg hgo]

/-- An error in another node's frame: its code is recorded, and REC rises outside restricted operation. -/
theorem execCanRxError_active {code : Nat} (more : Nat) (dp fb fd : Bool) (hactive : canActive (canOf s n) = true) (hlow : 1 ≤ code)
    (hhigh : code ≤ 6) :
    execCanRxError n code dp fb fd more s = .next (
      let u := canErrCode n code dp s
      if canRestricted (canOf u n) then u
      else settleErrors n { canOf u n with rxErr := recAfterError (canOf u n).rxErr fb fd more } u) := by
  refine congrArg Host.Outcome.next (if_neg ?_)
  rw [hactive]
  rintro (hstill | hzero | hlarge)
  · exact Bool.false_ne_true hstill
  · omega
  · omega

end

/-- Settles O35: attempts and their ends by the slot in question, received frames by the controller's state and the stamp. -/
theorem canFramesAndErrors : Obligations.CanFramesAndErrors := by
  unfold Obligations.CanFramesAndErrors
  refine ⟨fun s n m i x hactive hfree hidle hoffer hslot => congrArg Host.Outcome.next (canAttempt_offered m hactive hfree hidle hoffer hslot),
    fun s n i h => congrArg Host.Outcome.next (canComplete_attempting h),
    fun s n i code more dp nd sa h hcode => congrArg Host.Outcome.next (canFail_attempting more dp nd sa h hcode),
    fun s n h => congrArg Host.Outcome.next (if_pos h),
    fun s n stamp b hn hactive hok hformat hintime => congrArg Host.Outcome.next ?received,
    fun s n stamp b hn hactive hok hformat hlate => congrArg Host.Outcome.next ?late,
    fun s n code more dp fb fd hactive hlow hhigh => execCanRxError_active more dp fb fd hactive hlow hhigh⟩
  case received =>
    have hnotLate : ¬ (n < 24 ∧ isLate s stamp = true) := by
      rintro ⟨hhost, hlate⟩
      rw [hintime hhost] at hlate
      exact Bool.false_ne_true hlate
    exact (canReceive_taken stamp hn hactive hok hformat).trans (if_neg hnotLate)
  case late => exact (canReceive_taken stamp (by omega) hactive hok hformat).trans (if_pos ⟨hn, hlate⟩)

/-! ## Wake listeners (R424, R425) -/

/-- Settles O36: an armed listener takes each event, one that is not armed takes none. -/
theorem wakeListenersListen : Obligations.WakeListenersListen := by
  unfold Obligations.WakeListenersListen
  refine ⟨fun s l stamp ident dlc ide data harmed => congrArg Host.Outcome.next (if_neg ?frame),
    fun s l harmed => congrArg Host.Outcome.next (if_pos harmed),
    fun s l stamp harmed hfec hovf => congrArg Host.Outcome.next (if_pos ⟨harmed, hfec, ?overflow⟩),
    fun s l stamp ident dlc ide data hoff => ⟨congrArg Host.Outcome.next (if_pos ?offFrame), congrArg Host.Outcome.next (if_neg ?offError),
      congrArg Host.Outcome.next (if_neg ?offOverflow)⟩⟩
  case frame => simp [harmed]
  case overflow => simp [hovf]
  case offFrame => simp [hoff]
  case offError => simp [hoff]
  case offOverflow => simp [hoff]

end Sys2Proof.Laws
end

section
/-! The LIN controllers (O37, O38): the slots of a master's schedule, the writes of LIN.CTL, sleep, wake and bus fault, the headers a slave takes, and the responses that arrive or stay away. -/

namespace Sys2Proof.Laws

open Sys2Proof Sys2Proof.Machine

/-! ## A controller replaced -/

theorem linOf_setLin {s : State} {c : Nat} (l : Lin) (hc : c < s.h.lin.length) : linOf (setLin s c l) c = l := by
  simp [linOf, setLin, nth, hc]

theorem setLin_length (s : State) (c : Nat) (l : Lin) : (setLin s c l).h.lin.length = s.h.lin.length := by simp [setLin]

@[simp] theorem linOf_linPortState (s : State) (c k : Nat) : linOf (linPortState c s) k = linOf s k := rfl

theorem mem_setBlocked (s : State) (e : Nat) : e ∈ (setBlocked e true s).h.fab.blocked := by
  unfold setBlocked
  rw [if_pos rfl]
  dsimp only
  split
  next h => exact List.contains_iff_mem.mp h
  next => simp

/-- A controller that is not operational blocks its port. -/
theorem mem_linPortState {s : State} {c : Nat} (h : (linOf s c).state ≠ 0) : 48 + c ∈ (linPortState c s).h.fab.blocked := by
  unfold linPortState
  rw [decide_eq_true h]
  exact mem_setBlocked s (48 + c)

/-! ## Slots of the schedule (R432, R436) -/

section
variable {s : State} {c : Nat} (hmaster : linMaster s c = true) (hstate : (linOf s c).state = 0) (hresume : (linOf s c).resume = none)
include hmaster hstate hresume

/-- A slot of an operational master starts the frame of its schedule record. -/
theorem linSlot_scheduled (hawake : (linOf s c).sleepPend = false) :
    linSlot c s =
      let n := nextTable s c
      let l := { linOf s c with table := n.1, back := n.2.1, pos := n.2.2 + 1, schedPend := none }
      match (schedSlots s c n.1)[n.2.2]? with
      | none => setLin s c { l with pos := 0, header := none }
      | some (ix, r) =>
        let u := setLin s c { l with slotRec := ix, header := none }
        if fieldLE r 2 1 = 2 then (match sporadic u c (fieldLE r 8 8) with | none => u | some fid => startHeader c fid 2 0xFF u)
        else startHeader c (fieldLE r 3 1) (fieldLE r 2 1) (fieldLE r 6 1) u := by
  unfold linSlot
  dsimp only
  rw [if_neg (by simp [hmaster, hstate, hresume]), if_neg (by simp [hawake])]
  obtain ⟨t, back, pos⟩ := nextTable s c
  dsimp only
  cases (schedSlots s c t)[pos]? with
  | none => rfl
  | some e =>
    obtain ⟨ix, r⟩ := e
    dsimp only
    by_cases htyp : fieldLE r 2 1 = 2
    · rw [htyp]
      exact (if_pos rfl).symm
    · rw [if_neg htyp]
      split
      next h => exact absurd h htyp
      next => rfl

/-- Once sleep is asked for, the slot sends the sleep frame, and the master sleeps. -/
theorem linSlot_sleep (hpend : (linOf s c).sleepPend = true) :
    linSlot c s = linSleepNow c (setLin s c { linOf s c with
      header := some (0x3C, 0, 0xFF), headerAt := s.time.now
      wire := [0, 255, 255, 255, 255, 255, 255, 255, byte (linCksum 0 0x3C [0, 255, 255, 255, 255, 255, 255, 255])] }) := by
  unfold linSlot
  dsimp only
  rw [if_neg (by simp [hmaster, hstate, hresume]), if_pos hpend]
  rfl

end

section
variable {s : State} {c : Nat} (l : Lin) (hc : c < s.h.lin.length)
include hc

theorem linOf_linSleepNow :
    linOf (linSleepNow c (setLin s c l)) c = { l with state := 1, sleepPend := false, header := none, resume := none } := by
  have hlen : c < (setLin s c l).h.lin.length := by
    rw [setLin_length]
    exact hc
  unfold linSleepNow
  rw [linOf_linPortState, linOf_setLin _ hlen, linOf_setLin _ hc]

/-- A sleeping controller blocks its port. -/
theorem mem_linSleepNow : 48 + c ∈ (linSleepNow c (setLin s c l)).h.fab.blocked := by
  have hasleep : (linOf (linSleepNow c (setLin s c l)) c).state = 1 := congrArg Lin.state (linOf_linSleepNow l hc)
  exact mem_linPortState fun h => Nat.one_ne_zero (hasleep.symm.trans h)

end

/-! ## Writes of LIN.CTL (R436, R437) -/

theorem linCtl_range {c : Nat} (hc : c < 8) : 0x420000 ≤ linReg c 0 ∧ linReg c 0 < 0x440000 := by
  unfold linReg
  omega

theorem storesElsewhere_linCtl {c : Nat} (hc : c < 8) : storesElsewhere (linReg c 0) = false := by
  obtain ⟨hlow, hhigh⟩ := linCtl_range hc
  simp only [storesElsewhere, Bool.or_eq_false_iff, Bool.and_eq_false_iff, beq_eq_false_iff_ne, decide_eq_false_iff_not]
  omega

theorem regEffect_linCtl {c : Nat} (hc : c < 8) (fs : Bool) (o : Origin) (old v : Nat) (u : State) :
    regEffect fs o (linReg c 0) old v u = linCtlEffect c old v u := by
  obtain ⟨hlow, hhigh⟩ := linCtl_range hc
  have hpage : (linReg c 0 - 0x420000) / 0x100 = c := by
    unfold linReg
    omega
  have hrest : linReg c 0 % 0x100 = 0 := by
    unfold linReg
    omega
  unfold regEffect
  rw [if_neg (by omega), if_pos hhigh]
  unfold effectNet
  dsimp only
  rw [if_neg (by omega), if_neg (by omega), if_neg (by omega), if_neg (by omega), if_neg (by omega), hpage, if_pos hrest]

/-- A write of LIN.CTL that passes its checks acts as its fields state. -/
theorem masterWrite_linCtl {s : State} {o : Origin} {c v : Nat} (hc : c < 8) (hp : passes s o (linReg c 0) v) (hv : v < 2 ^ 32) :
    wrote s (fun u => linCtlEffect c (standing o (linReg c 0) u) v (stored false o (linReg c 0) v u)) (masterWrite o (linReg c 0) v s) := by
  obtain ⟨_, hhigh⟩ := linCtl_range hc
  exact masterWrite_changes s o _ v (fun old u => linCtlEffect c old v u) hp hv (storesElsewhere_linCtl hc)
    (fun old u => beforeWrite_below (by omega) old v u) (fun old u => regEffect_linCtl hc false o old v u)

/-! ## Wake and bus fault (R437, R438) -/

theorem execLinScheduleResume_due {s : State} {c t : Nat} (h : (linOf s c).resume = some t) (hdue : t ≤ s.time.now) :
    execLinScheduleResume c s = .next (setLin s c { linOf s c with resume := none }) := by
  unfold execLinScheduleResume
  rw [h]
  exact congrArg Host.Outcome.next (if_pos hdue)

/-- A bus fault blocks the port and raises the controller's source. -/
theorem execLinBusFault_begins {s : State} {c : Nat} (hstate : (linOf s c).state ≠ 2) (hc : c < 16) :
    execLinBusFault c s = .next (
      let u := linPortState c (setLin s c { linOf s c with state := 2, header := none, pulse := false })
      { u with h.flt.pend := u.h.flt.pend ++ [⟨curTick s, 0x30 + c, c, s.time.now, false⟩] }) := by
  unfold execLinBusFault
  rw [if_neg hstate, raise_host _ _ _ (by omega), Nat.mod_eq_of_lt (by omega : c < 256)]
  rfl

/-- Settles O37: slots by the master's state, writes of LIN.CTL by their effect, and each event of the bus by its condition. -/
theorem linScheduleSleepAndFault : Obligations.LinScheduleSleepAndFault := by
  unfold Obligations.LinScheduleSleepAndFault
  refine ⟨fun s c hmaster hstate hresume hawake => congrArg Host.Outcome.next (linSlot_scheduled hmaster hstate hresume hawake),
    fun s c hmaster hstate hresume hpend hc => ⟨_, congrArg Host.Outcome.next (linSlot_sleep hmaster hstate hresume hpend), ?sleep⟩,
    fun s o c v hc hp => ⟨_, rfl, masterWrite_linCtl hc hp (by omega)⟩,
    fun s o c hc hp => ⟨_, rfl, masterWrite_linCtl hc hp (by omega)⟩,
    fun s o c hc hp => ⟨_, rfl, masterWrite_linCtl hc hp (by omega)⟩,
    fun s c hasleep => congrArg Host.Outcome.next (if_pos hasleep),
    fun s c t h hdue => execLinScheduleResume_due h hdue,
    fun s c hslave hstate => congrArg Host.Outcome.next (if_pos ?idle),
    fun s c hstate hc => execLinBusFault_begins hstate hc,
    fun s c hstate => congrArg Host.Outcome.next (if_pos hstate)⟩
  case sleep =>
    rw [linOf_linSleepNow _ hc]
    exact ⟨rfl, rfl, rfl, mem_linSleepNow _ hc⟩
  case idle => simp [hslave, hstate]

/-! ## Headers (R433, R436) -/

/-- The two parity bits stand above the frame identifier. -/
theorem linPid_mod (fid : Nat) : linPid fid % 64 = fid % 64 := by
  unfold linPid
  dsimp only
  omega

/-- A header of right parity at an operational slave: it sleeps on the sleep frame, and otherwise publishes its buffer. -/
theorem linHeader_slave {s : State} {c fid : Nat} (sleep : Bool) (hfid : fid < 64) (hslave : linMaster s c = false) (hstate : (linOf s c).state = 0) :
    linHeader c (linPid fid) sleep s =
      if sleep && fid == 0x3C then linSleepNow c s
      else publish (setLin s c { linOf s c with header := some (fid, 0, 0xFF), headerAt := s.time.now, wire := [] }) c fid := by
  have hid : linPid fid % 64 = fid := by rw [linPid_mod, Nat.mod_eq_of_lt hfid]
  unfold linHeader
  dsimp only
  rw [hid, if_neg (by simp [hslave, hstate])]
  rfl

/-! ## Responses (R434, R435) -/

section
variable {s : State} {c pid : Nat} {r : Bytes} (hrec : respRec s c (pid % 64) = some r) (hsub : fieldLE r 2 1 = 2)
include hrec hsub

/-- A response without error is counted and submitted with its stamp. -/
theorem linResponse_good {ck : Nat} {d : Bytes} (stamp : Stamp) (hck : ck = linCksum (fieldLE r 4 1) pid d) :
    linResponse c stamp pid ck d false s =
      submitAt (48 + c) stamp stamp 0 2 ([byte pid, byte d.length, byte ck, byte (fieldLE r 4 1)] ++ d) false 0
        (bump (setLin s c { linOf s c with header := none }) (linReg c 0x10) 0 16 1) := by
  have hrec' : respRec (setLin s c { linOf s c with header := none }) c (pid % 64) = some r := hrec
  unfold linResponse
  dsimp only
  rw [hrec']
  dsimp only
  rw [if_neg (not_not.mpr hsub), if_neg Bool.false_ne_true, if_neg (not_not.mpr hck)]

/-- An erroneous response is counted by its kind, and after an event-triggered header it is a collision at the master. -/
theorem linResponse_bad {ck : Nat} {d : Bytes} {e : Bool} (stamp : Stamp) (herr : e = true ∨ ck ≠ linCksum (fieldLE r 4 1) pid d) :
    linResponse c stamp pid ck d e s =
      let u := bump (setLin s c { linOf s c with header := none }) (linReg c 0x14) (if e then 16 else 0) 16 1
      match (linOf s c).header with
      | some (_, 1, alt) => if linMaster u c then linCollision c alt u else u
      | _ => u := by
  have hrec' : respRec (setLin s c { linOf s c with header := none }) c (pid % 64) = some r := hrec
  unfold linResponse
  dsimp only
  rw [hrec']
  dsimp only
  rw [if_neg (not_not.mpr hsub)]
  cases e with
  | true => rfl
  | false => exact (if_neg Bool.false_ne_true).trans (if_pos (herr.resolve_left Bool.false_ne_true))

end

/-- A response on a subscribed identifier past its time limit is counted, and the header no longer waits. -/
theorem linMissing_overdue {s : State} {c fid typ alt : Nat} {r : Bytes} (hheader : (linOf s c).header = some (fid, typ, alt))
    (hrec : respRec s c fid = some r) (hsub : fieldLE r 2 1 = 2) (hlate : linOverdue s c (fieldLE r 3 1) = true) :
    linMissing c s = bump (setLin s c { linOf s c with header := none }) (linReg c 0x10) 16 16 1 := by
  unfold linMissing
  rw [hheader]
  dsimp only
  rw [hrec]
  exact if_pos ⟨hsub, hlate⟩

/-- Settles O38: a header by the slave's state, a response by its record and its checksum. -/
theorem linFramesTakeEffect : Obligations.LinFramesTakeEffect := by
  unfold Obligations.LinFramesTakeEffect
  refine ⟨fun s c fid sleep hfid hslave hstate => congrArg Host.Outcome.next (linHeader_slave sleep hfid hslave hstate),
    fun s c stamp pid ck d r hstate hrec hsub hck => congrArg Host.Outcome.next ((if_pos hstate).trans (linResponse_good hrec hsub stamp hck)),
    fun s c stamp pid ck d r e hstate hrec hsub herr => congrArg Host.Outcome.next ((if_pos hstate).trans (linResponse_bad hrec hsub stamp herr)),
    fun s c fid typ alt r hheader hrec hsub hlate => congrArg Host.Outcome.next (linMissing_overdue hheader hrec hsub hlate)⟩

end Sys2Proof.Laws
end

section
/-! TC10 sleep and wake of the T1 ports (O40), and MDIO frames and the packet numbers of secure associations (O41): where the registers of a port's page stand, what a write of each sets off, and one equation for each event. -/

namespace Sys2Proof.Laws

open Sys2Proof Sys2Proof.Machine

/-! ## Writes of a port's page -/

/-- A register in the page of a port lies in the ETH block. -/
theorem ethReg_range {p off : Nat} (hp : p ≤ 11) (hoff : off < 0x10000) : 0x440000 ≤ ethReg p off ∧ ethReg p off < 0x500000 := by
  unfold ethReg
  omega

/-- A register of a port's page below the associations stores its own value. -/
theorem storesElsewhere_ethReg {p off : Nat} (hp : p ≤ 11) (hoff : off < 0x400) : storesElsewhere (ethReg p off) = false := by
  obtain ⟨hlow, hhigh⟩ := ethReg_range (off := off) hp (by omega)
  have hoffset := ethReg_offset p (off := off) (by omega)
  simp only [storesElsewhere, Bool.or_eq_false_iff, Bool.and_eq_false_iff, beq_eq_false_iff_ne, decide_eq_false_iff_not]
  omega

theorem regEffect_eth {a : Nat} (hlow : 0x440000 ≤ a) (hhigh : a < 0x500000) (fs : Bool) (o : Origin) (old v : Nat) (u : State) :
    regEffect fs o a old v u = effectEth a v u := by
  unfold regEffect
  rw [if_neg (by omega), if_neg (by omega), if_pos hhigh]

/-! ## Writes of ETH.T1CTL (R464) -/

theorem t1Port_range {p : Nat} (h : t1Port p = true) : 6 ≤ p ∧ p ≤ 9 := by simpa [t1Port] using h

theorem effectEth_t1ctl {p : Nat} (hp : t1Port p = true) (v : Nat) (u : State) : effectEth (ethReg p 8) v u = t1ctlEffect p v u := by
  obtain ⟨_, hmax⟩ := t1Port_range hp
  have hmdio : ethReg p 8 ≠ 0x44F000 := by
    unfold ethReg
    omega
  unfold effectEth
  dsimp only
  rw [if_neg hmdio, ethReg_offset p (by decide), ethReg_page p (by decide)]
  rfl

/-- A write of ETH.T1CTL that passes its checks moves the port as its fields state. -/
theorem masterWrite_t1ctl {s : State} {o : Origin} {p v : Nat} (hp : t1Port p = true) (hpass : passes s o (ethReg p 8) v) (hv : v < 2 ^ 32) :
    wrote s (fun u => t1ctlEffect p v (stored false o (ethReg p 8) v u)) (masterWrite o (ethReg p 8) v s) := by
  obtain ⟨_, hmax⟩ := t1Port_range hp
  obtain ⟨hlow, hhigh⟩ := ethReg_range (p := p) (off := 8) (by omega) (by decide)
  exact masterWrite_stores s o _ v (t1ctlEffect p v) hpass hv (storesElsewhere_ethReg (by omega) (by decide))
    (fun old u => beforeWrite_below (by omega) old v u)
    (fun old u => (regEffect_eth hlow hhigh false o old v u).trans (effectEth_t1ctl hp v u))

/-- SLEEP and not WAKE: a request from NORMAL. -/
theorem t1ctlEffect_sleep (p : Nat) {v : Nat} (u : State) (hsleep : bit v 0 = true) (hwake : bit v 1 = false) :
    t1ctlEffect p v u = if (ethOf u p).t1 = 0 then setT1 p 1 u else u := by simp [t1ctlEffect, hsleep, hwake]

/-- WAKE and not SLEEP: a wake-up pulse from SLEEP. -/
theorem t1ctlEffect_wake (p : Nat) {v : Nat} (u : State) (hsleep : bit v 0 = false) (hwake : bit v 1 = true) :
    t1ctlEffect p v u = if (ethOf u p).t1 = 2 then setT1 p 3 u else u := by simp [t1ctlEffect, hsleep, hwake]

/-- The bits SLEEP and WAKE of ETH.T1CTL are those of what is put in place of its lowest two bits. -/
theorem t1ctl_bits (r x : Nat) : bit (r / 4 * 4 + x) 0 = bit x 0 ∧ bit (r / 4 * 4 + x) 1 = bit x 1 := by
  have hlow : (r / 4 * 4 + x) / 2 ^ 0 % 2 = x / 2 ^ 0 % 2 := by omega
  have hhigh : (r / 4 * 4 + x) / 2 ^ 1 % 2 = x / 2 ^ 1 % 2 := by omega
  exact ⟨congrArg (· == 1) hlow, congrArg (· == 1) hhigh⟩

theorem masterWrite_t1ctl_sleep {s : State} {o : Origin} {p r : Nat} (hp : t1Port p = true) (hr : r < 16)
    (hpass : passes s o (ethReg p 8) (r / 4 * 4 + 1)) :
    wrote s (fun u =>
      let w := stored false o (ethReg p 8) (r / 4 * 4 + 1) u
      if (ethOf w p).t1 = 0 then setT1 p 1 w else w) (masterWrite o (ethReg p 8) (r / 4 * 4 + 1) s) := by
  obtain ⟨hsleep, hwake⟩ := t1ctl_bits r 1
  exact wrote_congr (masterWrite_t1ctl hp hpass (by omega)) fun u _ => t1ctlEffect_sleep p _ hsleep hwake

theorem masterWrite_t1ctl_wake {s : State} {o : Origin} {p r : Nat} (hp : t1Port p = true) (hr : r < 16)
    (hpass : passes s o (ethReg p 8) (r / 4 * 4 + 2)) :
    wrote s (fun u =>
      let w := stored false o (ethReg p 8) (r / 4 * 4 + 2) u
      if (ethOf w p).t1 = 2 then setT1 p 3 w else w) (masterWrite o (ethReg p 8) (r / 4 * 4 + 2) s) := by
  obtain ⟨hsleep, hwake⟩ := t1ctl_bits r 2
  exact wrote_congr (masterWrite_t1ctl hp hpass (by omega)) fun u _ => t1ctlEffect_wake p _ hsleep hwake

/-! ## The partner's requests and pulses (R464, R465, R495, Table ETH-2) -/

section
variable {s : State} {p : Nat} (hp : t1Port p = true)
include hp

/-- In SLEEPREQ a sleep request of the partner is accepted whatever SLEEPACK is. -/
theorem partnerSleep_sleepreq (hstate : (ethOf s p).t1 = 1) : partnerSleep p s = setT1 p 2 s := by simp [partnerSleep, hp, hstate]

/-- In NORMAL SLEEPACK decides. -/
theorem partnerSleep_normal (hstate : (ethOf s p).t1 = 0) : partnerSleep p s = if bit (reg s (ethReg p 8)) 2 then setT1 p 2 s else s := by
  simp [partnerSleep, hp, hstate]

/-- A wake-up of a sleeping port while no wake is recorded and the device is not in STANDBY. -/
theorem tc10Wake_sleeping (stamp : Stamp) (hrec : s.sys.wake.recording = false) (hmode : s.sys.mode ≠ .standby) (hstate : (ethOf s p).t1 = 2) :
    tc10Wake p stamp s = setT1 p 3 s := by simp [tc10Wake, hp, hrec, hmode, hstate]

end

theorem wakeEvent_mode (src : Nat) (t : Stamp) (s : State) : (wakeEvent src t s).sys.mode = s.sys.mode := by
  unfold wakeEvent
  dsimp only
  split
  case isTrue => rfl
  case isFalse => rfl

/-- A wake-up in STANDBY while the wake record runs stamps the port's wake source. -/
theorem tc10Wake_standby {s : State} {p : Nat} (hp : t1Port p = true) (stamp : Stamp) (hrec : s.sys.wake.recording = true)
    (hmode : s.sys.mode = .standby) : tc10Wake p stamp s = wakeEvent (0x0A + (p - 6)) stamp s := by
  simp [tc10Wake, hp, hrec, wakeEvent_mode, hmode]

/-- Settles O40: a write of ETH.T1CTL by the bit it sets, each event of the bus by the state of the port. -/
theorem tc10MovesThePort : Obligations.Tc10MovesThePort := by
  unfold Obligations.Tc10MovesThePort
  refine ⟨fun s o p hp hpass => ⟨_, rfl, masterWrite_t1ctl_sleep hp (Nat.mod_lt _ (by decide)) hpass⟩,
    fun s o p hp hpass => ⟨_, rfl, masterWrite_t1ctl_wake hp (Nat.mod_lt _ (by decide)) hpass⟩,
    fun s p hp hstate => ⟨congrArg Host.Outcome.next (if_pos ?ack), congrArg Host.Outcome.next (if_pos ?limit),
      congrArg Host.Outcome.next (partnerSleep_sleepreq hp hstate)⟩,
    fun s p hp hstate => congrArg Host.Outcome.next (partnerSleep_normal hp hstate),
    fun s p stamp hp hrec hmode hstate => congrArg Host.Outcome.next (tc10Wake_sleeping hp stamp hrec hmode hstate),
    fun s p stamp hp hrec hmode => congrArg Host.Outcome.next (tc10Wake_standby hp stamp hrec hmode)⟩
  case ack => simp [hp, hstate]
  case limit => simp [hp, hstate]

/-! ## MDIO frames (R458, R502) -/

/-- ETH.MDIOCMD written with an OP starts a frame, or shows the error while one is under way. -/
theorem masterWrite_mdiocmd {s : State} {o : Origin} {v : Word} {op : Nat} (hpass : passes s o 0x44F000 (putBits v.toNat 11 2 op)) :
    wrote s (fun u => mdioStart (putBits v.toNat 11 2 op) (stored false o 0x44F000 (putBits v.toNat 11 2 op) u))
      (masterWrite o 0x44F000 (forced v 11 2 op) s) :=
  masterWrite_stores s o 0x44F000 _ (mdioStart (putBits v.toNat 11 2 op)) hpass (putBits_lt v.toNat 11 2 op v.isLt (by decide)) rfl
    (fun _ _ => rfl) (fun _ _ => rfl)

/-- The end of the frame under way. -/
theorem mdioDone_busy {s : State} {c : Nat} (data : Nat) (h : s.h.eth.mdio = some c) :
    mdioDone data s =
      if 2 ≤ bits c 11 2 then setField { s with h.eth.mdio := none } 0x44F004 0 16 data else { s with h.eth.mdio := none } := by
  unfold mdioDone
  rw [h]

/-! ## Packet numbers (R486) -/

/-- The registers of an association stand in the page of its port, on a multiple of 0x20 from 0x400 to 0x6E0. -/
theorem saBase_offset {p k : Nat} {rx : Bool} (hk : k < if rx then 16 else 4) :
    ∃ off, saBase p rx k = ethReg p off ∧ 0x400 ≤ off ∧ off ≤ 0x6E0 ∧ off % 0x20 = 0 := by
  cases rx with
  | false =>
    have hk4 : k < 4 := hk
    exact ⟨0x400 + 0x20 * k, rfl, by omega⟩
  | true =>
    have hk16 : k < 16 := hk
    exact ⟨0x500 + 0x80 * (k / 4) + 0x20 * (k % 4), rfl, by omega⟩

section
variable {p k : Nat} {rx : Bool} (hp : p ≤ 5) (hk : k < if rx then 16 else 4)
include hp hk

/-- An address of PNL or PNH: its block, and its offset in the page and in the association. -/
theorem saBase_pn_place {x : Nat} (hx : x = 4 ∨ x = 8) :
    0x440000 ≤ saBase p rx k + x ∧ saBase p rx k + x < 0x4A0000 ∧ saBase p rx k + x ≠ 0x44F000 ∧
      0x400 ≤ (saBase p rx k + x - 0x440000) % 0x10000 ∧ (saBase p rx k + x - 0x440000) % 0x10000 < 0x700 ∧
      (saBase p rx k + x - 0x440000) % 0x20 = x ∧ (saBase p rx k + x - 0x440000) % 0x10000 % 0x20 = x := by
  obtain ⟨off, hbase, hmin, hmax, halign⟩ := saBase_offset (p := p) hk
  rw [hbase]
  unfold ethReg
  omega

theorem storesElsewhere_pn {x : Nat} (hx : x = 4 ∨ x = 8) : storesElsewhere (saBase p rx k + x) = true := by
  obtain ⟨hlow, hhigh, _, hmin, hmax, hplace, _⟩ := saBase_pn_place hp hk hx
  simp [storesElsewhere, hlow, hhigh, hmin, hmax, hplace, hx]

theorem regEffect_pn {x : Nat} (hx : x = 4 ∨ x = 8) (o : Origin) (old v : Nat) (u : State) :
    regEffect false o (saBase p rx k + x) old v u = saPnEffect (saBase p rx k + x) v u := by
  obtain ⟨hlow, hhigh, hmdio, hmin, hmax, _, hplace⟩ := saBase_pn_place hp hk hx
  rw [regEffect_eth hlow (by omega)]
  unfold effectEth
  dsimp only
  rw [if_neg hmdio, if_neg (by omega), if_neg (by omega), if_neg (by omega), if_neg (by omega), if_pos ⟨hmin, hmax⟩, hplace, if_neg (by omega),
    if_pos hx]

/-- A write of PNL or PNH that passes its checks sets off what the half does, and stores nothing beside it. -/
theorem masterWrite_pn {x : Nat} (hx : x = 4 ∨ x = 8) {s : State} {o : Origin} {v : Nat} (hpass : passes s o (saBase p rx k + x) v) (hv : v < 2 ^ 32) :
    wrote s (saPnEffect (saBase p rx k + x) v) (masterWrite o (saBase p rx k + x) v s) := by
  obtain ⟨_, hhigh, _⟩ := saBase_pn_place hp hk hx
  exact masterWrite_elsewhere s o _ v _ hpass hv (storesElsewhere_pn hp hk hx) (fun old u => beforeWrite_below (by omega) old v u)
    (fun old u => regEffect_pn hp hk hx o old v u)

/-- PNL is held. -/
theorem saPnEffect_low (v : Nat) (u : State) :
    saPnEffect (saBase p rx k + 4) v u = { u with h.eth.pnHeld := KMap.put u.h.eth.pnHeld (saBase p rx k + 4) v } := by
  obtain ⟨_, _, _, _, _, hplace, _⟩ := saBase_pn_place hp hk (x := 4) (.inl rfl)
  exact if_pos hplace

/-- PNH sets both halves, the low one as held, or as it stands where none is held. -/
theorem saPnEffect_high (v : Nat) (u : State) :
    saPnEffect (saBase p rx k + 8) v u = setReg (setReg
      { u with h.eth.pnHeld := KMap.del u.h.eth.pnHeld (saBase p rx k + 4) } (saBase p rx k + 4)
        ((KMap.get? u.h.eth.pnHeld (saBase p rx k + 4)).getD (reg u (saBase p rx k + 4)))) (saBase p rx k + 8) v := by
  obtain ⟨_, _, _, _, _, hplace, _⟩ := saBase_pn_place hp hk (x := 8) (.inr rfl)
  exact if_neg (by omega)

end

/-- Settles O41: each OP is a write of ETH.MDIOCMD, the end of a frame has one equation, and each half of a packet number its effect. -/
theorem mdioFramesAndPacketNumbers : Obligations.MdioFramesAndPacketNumbers := by
  unfold Obligations.MdioFramesAndPacketNumbers
  refine ⟨fun s o v op c hop hpass => ?frame, fun s c data h => congrArg Host.Outcome.next (mdioDone_busy data h),
    fun s o p k rx v hp hk hpass => ⟨_, rfl, ?low⟩, fun s o p k rx v hp hk hpass => ⟨_, rfl, ?high⟩⟩
  case frame =>
    obtain ⟨rfl, rfl⟩ | ⟨rfl, rfl⟩ | ⟨rfl, rfl⟩ | ⟨rfl, rfl⟩ := hop
    all_goals exact ⟨_, rfl, masterWrite_mdiocmd hpass⟩
  case low => exact wrote_congr (masterWrite_pn hp hk (.inl rfl) hpass v.isLt) fun u _ => saPnEffect_low hp hk v.toNat u
  case high => exact wrote_congr (masterWrite_pn hp hk (.inr rfl) hpass v.isLt) fun u _ => saPnEffect_high hp hk v.toNat u

end Sys2Proof.Laws
end

section
/-! The root state and the root key (O9), a tamper detection (O42), and the update and network management messages at port 65 with the end of grace (O43): which changes of the root state each group of commands may bring, the shapes of a detection's steps, and one equation for a message at the head of the port. -/

namespace Sys2Proof.Laws

open Sys2Proof Sys2Proof.Machine

/-! ## The root state under every command (Table KEY-2) -/

/-- The root key stands, and the root state with it. -/
def Fix.rootStands : Fix := { Fix.nothing with key := True, enter := fun _ _ => False }

/-- Only a move to VALID, which a root message brings (R536). -/
def Fix.toValid : Fix := { Fix.nothing with enter := fun _ b => b = 0 }

/-- Only the move from VALID to TAMPERED, which a detection brings (R508). -/
def Fix.toTampered : Fix := { Fix.nothing with enter := fun a b => a = 0 ∧ b = 1 }

/-- Only a move to KEEPER_LOST from a state other than BLANK, which the loss of the keeper's supply brings (log entry 9). -/
def Fix.toKeeperLost : Fix := { Fix.nothing with enter := fun a b => a ≠ 3 ∧ b = 2 }

/-- The commands that Table KEY-2 gives no part in the root state's moves. -/
def leavesRoot : Instr → Prop
  | .vsupHLoss | .keeperLoss | .tamperDetect _ | .updateInject | .updateDelete | .updateRoot | .updateRegwrite => False
  | .otpFuseProgrammed root => root = false
  | _ => True

/-- A fuse of the image blown leaves the root. -/
theorem keeps_rootStands_imageFuse (s : State) : Keeps Fix.rootStands s (imageFuse s) :=
  keeps_imageFuse (keeps_refl _ s) id

/-- A command with no part in the root state's moves allows the root to be asked to stand. -/
theorem allows_rootStands {c : Instr} (h : leavesRoot c) (hfuse : ∀ root, c ≠ .otpFuseProgrammed root) : allows Fix.rootStands c := by
  unfold allows
  split
  case h_8 root => exact absurd rfl (hfuse root)
  case h_5 | h_6 | h_7 _ | h_9 | h_10 | h_11 | h_12 => exact h.elim
  all_goals simp [Fix.rootStands, Fix.nothing]

theorem keeps_rootStands {c : Instr} {s t : State} (h : leavesRoot c) (e : exec c s = .next t) : Keeps Fix.rootStands s t := by
  by_cases hfuse : ∃ root, c = .otpFuseProgrammed root
  case pos =>
    obtain ⟨root, rfl⟩ := hfuse
    obtain rfl : root = false := h
    cases e
    exact keeps_rootStands_imageFuse s
  case neg => exact keeps_exec (allows_rootStands h fun root hc => hfuse ⟨root, hc⟩) e (keeps_refl _ s)

theorem allows_toValid {c : Instr}
    (h : c = .updateInject ∨ c = .updateDelete ∨ c = .updateRoot ∨ c = .updateRegwrite ∨ c = .otpFuseProgrammed true) : allows Fix.toValid c := by
  obtain rfl | rfl | rfl | rfl | rfl := h
  all_goals simp [allows, Fix.toValid, Fix.nothing]

theorem allows_toTampered (src : Nat) : allows Fix.toTampered (.tamperDetect src) := by
  simp [allows, Fix.toTampered, Fix.nothing]

theorem allows_toKeeperLost {c : Instr} (h : c = .vsupHLoss ∨ c = .keeperLoss) : allows Fix.toKeeperLost c := by
  obtain rfl | rfl := h
  all_goals
    refine ⟨id, fun a b hb hab => ⟨?_, rfl⟩⟩
    obtain rfl | ⟨ha, _⟩ := hab
    · exact hb
    · exact ha

/-- A command has no part in the root state's moves, or is a root message's, a detection, or a loss of the keeper's supply. -/
theorem leavesRoot_or (c : Instr) : leavesRoot c ∨
    (c = .updateInject ∨ c = .updateDelete ∨ c = .updateRoot ∨ c = .updateRegwrite ∨ c = .otpFuseProgrammed true) ∨
    (∃ src, c = .tamperDetect src) ∨ (c = .vsupHLoss ∨ c = .keeperLoss) := by
  unfold leavesRoot
  split
  case h_8 root => cases root <;> simp
  all_goals simp

/-- Settles O9: each group of commands keeps the root with only its own move of Table KEY-2 permitted. -/
theorem rootStateTransitions : Obligations.RootStateTransitions := by
  unfold Obligations.RootStateTransitions
  intro c s t e
  obtain hleaves | hmsg | ⟨src, rfl⟩ | hloss := leavesRoot_or c
  · have k := (keeps_rootStands hleaves e).holds
    exact ⟨.inl (k.enter.resolve_right id), .inl (k.key trivial)⟩
  · have k := (keeps_exec (allows_toValid hmsg) e (keeps_refl _ s)).holds
    refine ⟨k.enter.imp_right fun hvalid => .inl ⟨hvalid, hmsg⟩, .inr ?_⟩
    tauto
  · have k := (keeps_exec (allows_toTampered src) e (keeps_refl _ s)).holds
    refine ⟨k.enter.imp_right fun ⟨hvalid, htampered⟩ => .inr (.inl ⟨htampered, hvalid, src, rfl⟩), .inr ?_⟩
    tauto
  · have k := (keeps_exec (allows_toKeeperLost hloss) e (keeps_refl _ s)).holds
    refine ⟨k.enter.imp_right fun ⟨hblank, hlost⟩ => .inr (.inr ⟨hlost, hblank, hloss⟩), .inr ?_⟩
    tauto

/-! ## The steps of a detection (R508, R511, R537, R882) -/

/-- An answer to an update message changes registers and the ingress of port 65. -/
theorem updAnswer_shape (m : Bytes) (st failix : Nat) (s : State) :
    ∃ fab rg, updAnswer m st failix s = { s with h.fab := fab, regs := rg } := by
  have hcount : ∃ rg, (if st = 0 then bump (setField (setField s 0x7001C 0 8 st) 0x7001C 8 8 failix) 0x70020 0 16 1
      else bump (setField (setField s 0x7001C 0 8 st) 0x7001C 8 8 failix) 0x70020 16 16 1) = { s with regs := rg } := by
    split
    all_goals exact ⟨_, rfl⟩
  obtain ⟨rg, hrg⟩ := hcount
  unfold updAnswer submitMsg
  dsimp only
  rw [hrg]
  obtain ⟨i, q, e⟩ := submitAt_shape 65 _ _ 2 4 _ false 0 { s with regs := rg }
  rw [e]
  exact ⟨_, rg, rfl⟩

/-- A request for leave withdrawn waits for the end of the tick at its arbiter. -/
theorem dropLeave_shape (field : Bool) (kind inst : Nat) (s : State) : ∃ a1 a2, dropLeave field kind inst s = { s with h.arb := a1, f.arb := a2 } := by
  cases field
  · exact ⟨_, s.f.arb, rfl⟩
  · exact ⟨s.h.arb, _, rfl⟩

/-- The root message under way when a detection comes: refused, unless its fuse has its leave and is being blown (R537). -/
def refuseRootMsg (s : State) : State :=
  match s.h.keys.rootMsg with
  | some m => if holdsLeave s false 7 1 then s else dropLeave false 7 1 (updAnswer m 0x25 0xFF { s with h.keys.rootMsg := none })
  | none => s

theorem refuseRootMsg_shape (s : State) :
    ∃ fab a1 a2 msg rg, refuseRootMsg s = { s with h.fab := fab, h.arb := a1, f.arb := a2, h.keys.rootMsg := msg, regs := rg } := by
  unfold refuseRootMsg
  split
  case h_1 m _ =>
    split
    · exact ⟨_, _, _, _, _, rfl⟩
    · obtain ⟨fab, rg, hanswer⟩ := updAnswer_shape m 0x25 0xFF { s with h.keys.rootMsg := none }
      obtain ⟨a1, a2, hdrop⟩ := dropLeave_shape false 7 1 (updAnswer m 0x25 0xFF { s with h.keys.rootMsg := none })
      rw [hdrop, hanswer]
      exact ⟨fab, a1, a2, none, rg, rfl⟩
  case h_2 => exact ⟨_, _, _, _, _, rfl⟩

theorem setTampCond_shape (src : Nat) (on : Bool) (s : State) :
    ∃ m a b, setTampCond src on s = { s with h.keys.meshOpen := m, h.keys.caseA := a, h.keys.caseB := b } := by
  unfold setTampCond
  split
  all_goals exact ⟨_, _, _, rfl⟩

/-- What a detection erases and records (R508). -/
theorem tampErase_shape (src : Nat) (s : State) :
    ∃ m a b, tampErase src s = { s with
      h.keys := { rt := [], roles := [], slots := [], rootMsg := none, meshOpen := m, caseA := a, caseB := b }, h.sp.gens := 0
      keeper.root := List.replicate 32 0, keeper.vault := [], keeper.rootState := tamperedState s.keeper.rootState, keeper.tampSrc := src
      keeper.tampCount := satAdd 8 s.keeper.tampCount 1, keeper.tampStamp := tampStampNow s } := by
  obtain ⟨m, a, b, e⟩ := setTampCond_shape src true s
  unfold tampErase zeroKeys
  rw [e]
  exact ⟨m, a, b, rfl⟩

/-- A detection reported at once, by the journal and the fault collector, or kept for the next BUILD (R511). -/
theorem tampNote_shape (src : Nat) (s : State) :
    ∃ j k1 k2 k3 rep p1 p2 rg, tampNote src s = withJournal j k1 k2 k3 rg { s with keeper.tampReport := rep, h.flt.pend := p1, f.flt.pend := p2 } := by
  unfold tampNote jEvent
  split
  · obtain ⟨j, k1, k2, k3, rg, hchange, _⟩ := jChange_shape (setInt 7 s).time.now 3
      [(5, 5, [byte (rootCode s.keeper.rootState), byte src] ++ le 6 0)] (setInt 7 s)
    obtain ⟨p1, p2, hraise⟩ := raise_shape 0x058 0 (withJournal j k1 k2 k3 rg (setInt 7 s))
    rw [hchange, hraise]
    exact ⟨j, k1, k2, k3, s.keeper.tampReport, p1, p2, rg, rfl⟩
  · exact ⟨s.h.jrn, _, _, _, true, _, _, s.regs, rfl⟩

/-! ## A token check cut off (R882) -/

/-- Only the SP, the host die's arbiter and registers change. -/
def spOnly (s t : State) : Prop := ∃ sp arb rg, t = { s with h.sp := sp, h.arb := arb, regs := rg }

theorem spOnly_refl (s : State) : spOnly s s := ⟨_, _, _, rfl⟩

theorem spOnly_trans {s t u : State} (h1 : spOnly s t) (h2 : spOnly t u) : spOnly s u := by
  obtain ⟨sp, arb, rg, rfl⟩ := h1
  obtain ⟨sp', arb', rg', rfl⟩ := h2
  exact ⟨sp', arb', rg', rfl⟩

theorem spOnly_ite {s a b : State} {c : Prop} [Decidable c] (ha : spOnly s a) (hb : spOnly s b) : spOnly s (if c then a else b) := by
  split
  · exact ha
  · exact hb

theorem spOnly_foldl {α : Type} (f : State → α → State) (hf : ∀ s x, spOnly s (f s x)) (l : List α) (s : State) : spOnly s (l.foldl f s) :=
  List.foldlRecOn l f (motive := spOnly s) (spOnly_refl s) fun t ht x _ => spOnly_trans ht (hf t x)

theorem spOnly_assignOne (s : State) (j : SpJob) : spOnly s (assignOne s j) := by
  unfold assignOne
  refine spOnly_ite (spOnly_refl s) ?_
  dsimp only
  split
  case h_1 => exact spOnly_refl s
  case h_2 c _ =>
    generalize hwait : (if j.engine = 1 ∧ (s.time.now - j.since) / 1000 > reg s 0x80008 then setReg s 0x80008 ((s.time.now - j.since) / 1000) else s) = u
    have hu : spOnly s u := hwait ▸ spOnly_ite ⟨_, _, _, rfl⟩ (spOnly_refl s)
    generalize hleave : (if j.leave = 1 then { setJob { j with ctx := some c } u with
      h.arb.q := (setJob { j with ctx := some c } u).h.arb.q ++ [⟨1, c, j.take, 0⟩] } else setJob { j with ctx := some c } u) = v
    have hv : spOnly s v := spOnly_trans hu (hleave ▸ spOnly_ite ⟨_, _, _, rfl⟩ ⟨_, _, _, rfl⟩)
    exact spOnly_ite (spOnly_trans hv ⟨_, _, _, rfl⟩) hv

theorem spOnly_assignJobs (s : State) : spOnly s (assignJobs s) := spOnly_foldl assignOne spOnly_assignOne _ s

theorem spOnly_releaseCtx (j : SpJob) (s : State) : spOnly s (releaseCtx j s) := by
  unfold releaseCtx
  split
  case h_1 => exact spOnly_refl s
  case h_2 => exact spOnly_ite ⟨_, _, _, rfl⟩ (spOnly_ite ⟨_, _, _, rfl⟩ (spOnly_refl s))

/-- A job that ends with a status other than 0 installs no key. -/
theorem spOnly_endJob (j : SpJob) {status : Nat} (hst : status ≠ 0) (s : State) : spOnly s (endJob j status s).1 := by
  unfold endJob
  dsimp only
  rw [if_neg hst]
  dsimp only
  generalize hrel : releaseCtx j { s with h.sp.jobs := s.h.sp.jobs.filter (fun x => x.id != j.id) } = u
  have hu : spOnly s u := spOnly_trans (t := { s with h.sp.jobs := s.h.sp.jobs.filter (fun x => x.id != j.id) }) ⟨_, _, _, rfl⟩
    (hrel ▸ spOnly_releaseCtx j _)
  generalize hcount : (if j.engine = 1 ∧ status ≠ 0x2B then bump u 0x80004 0 12 1 else u) = v
  have hv : spOnly s v := spOnly_trans hu (hcount ▸ spOnly_ite ⟨_, _, _, rfl⟩ (spOnly_refl u))
  refine spOnly_trans (spOnly_trans ?_ ⟨_, _, _, rfl⟩) (spOnly_assignJobs _)
  refine spOnly_ite ?_ hv
  split
  · exact spOnly_trans hv ⟨_, _, _, rfl⟩
  · exact hv

/-- A token check that fails changes the debug state, the draws of the DRBG and the count of failed checks. -/
theorem tokenEnd_failed_shape {code : Nat} (hcode : code ≠ 1) (s : State) :
    ∃ fr sp d rg, tokenEnd code s = { s with free := fr, h.sp := sp, h.dbg := d, regs := rg } := by
  unfold tokenEnd
  split
  case h_1 => exact ⟨_, _, _, _, rfl⟩
  case h_2 =>
    dsimp only
    rw [if_neg hcode]
    obtain ⟨rg, hcount, _⟩ := bump_shape
      { s with h.dbg.token := none, h.dbg.result := code, h.dbg.blockEnd := some (s.time.now + 100000000) } 0xF0000C 16 16 1
    rw [hcount]
    obtain ⟨fr, g, ch, e⟩ := newChallenge_shape
      { s with h.dbg.token := none, h.dbg.result := code, h.dbg.blockEnd := some (s.time.now + 100000000), regs := rg }
    exact ⟨fr, _, _, rg, e⟩

/-- A token check cut off: the SP, the arbiter, the debug state and registers. -/
theorem tokenAbort_shape {code : Nat} (hcode : code ≠ 1) (s : State) :
    ∃ fr sp arb d rg, tokenAbort code s = { s with free := fr, h.sp := sp, h.arb := arb, h.dbg := d, regs := rg } := by
  unfold tokenAbort
  split
  case h_1 j _ =>
    obtain ⟨sp, arb, rg, hend⟩ := spOnly_endJob j (status := 0x2B) (by decide) s
    obtain ⟨fr, sp', d, rg', htoken⟩ := tokenEnd_failed_shape hcode (endJob j 0x2B s).1
    rw [htoken, hend]
    exact ⟨fr, sp', arb, d, rg', rfl⟩
  case h_2 => exact ⟨_, _, _, _, _, rfl⟩

/-! ## A detection (R507, R508, R510, R513) -/

/-- A watched source where the device has supply: the root message is refused, everything is erased, recorded and reported, and the token check and the session end. -/
theorem tamper_watched {src : Nat} {s : State} (hmode : s.sys.mode ≠ .noSupply) (hwatched : tampWatched s src = true) :
    tamper src s = endSession (tokenAbort 11 (markDead (tampNote src (tampErase src (refuseRootMsg s))))) :=
  if_neg (by simp [hmode, hwatched])

/-- Settles O42: the erasure stands in the shape of its own step, and each other step's shape leaves it. -/
theorem tamperErasesEveryKey : Obligations.TamperErasesEveryKey := by
  unfold Obligations.TamperErasesEveryKey
  refine ⟨fun s src hmode hwatched => ⟨_, congrArg Host.Outcome.next (tamper_watched hmode hwatched), ?_⟩, fun s => ⟨rfl, rfl, rfl⟩⟩
  obtain ⟨fab, a1, a2, msg, rg1, hrefuse⟩ := refuseRootMsg_shape s
  obtain ⟨m, a, b, herase⟩ := tampErase_shape src (refuseRootMsg s)
  obtain ⟨j, k1, k2, k3, rep, p1, p2, rg2, hnote⟩ := tampNote_shape src (tampErase src (refuseRootMsg s))
  obtain ⟨fr, sp, arb, d, rg3, habort⟩ := tokenAbort_shape (code := 11) (by decide) (markDead (tampNote src (tampErase src (refuseRootMsg s))))
  obtain ⟨fr', g, d', w1, w2, hsession, hopen, _⟩ :=
    endSession_shape (tokenAbort 11 (markDead (tampNote src (tampErase src (refuseRootMsg s)))))
  rw [hsession, habort, hnote, herase, hrefuse]
  exact ⟨rfl, rfl, rfl, rfl, rfl, rfl, rfl, rfl, Nat.min_comm _ _, rfl, hopen, rfl, rfl, rfl, rfl⟩

/-! ## Messages at the head of port 65 (R488, R530) -/

section
variable {s u : State} {f : Frame}

/-- The head of a port that passes a test is taken. -/
theorem takeIf_taken {e : Nat} {p : Frame → Bool} (h : takeHead s e = some (f, u)) (hp : p f = true) : takeIf s e p = some (f, u) := by
  unfold takeIf
  rw [h]
  exact if_pos hp

/-- An update message of a row's first operation, while no root message is under way, is taken by that row (log entry 8). -/
theorem updFromQueue_taken {p : Nat → Bool} (hroot : s.h.keys.rootMsg = none) (h : takeHead s 65 = some (f, u)) (hlen : 16 ≤ f.bytes.length)
    (htype : fieldLE f.bytes 0 2 = 0x0E11) (hop : p (fieldLE f.bytes 0x20 1) = true) : updFromQueue p s = updTake f.bytes u := by
  unfold updFromQueue
  rw [takeIf_taken h (by simp [hlen, htype, hop]), hroot]
  rfl

/-- While a root message is under way, no row takes an update message. -/
theorem updFromQueue_waits {m : Bytes} (hroot : s.h.keys.rootMsg = some m) (p : Nat → Bool) : updFromQueue p s = s := by
  unfold updFromQueue
  rw [hroot]
  rfl

theorem netMgmt_taken (h : takeHead s 65 = some (f, u)) (hlen : 16 ≤ f.bytes.length) (htype : fieldLE f.bytes 0 2 = 0x0E01) :
    netMgmt s = nmTake f.bytes u := by
  unfold netMgmt
  rw [takeIf_taken h (by simp [hlen, htype])]

end

/-! ## The end of grace (R541) -/

theorem endGrace_kept {s : State} {h t : Nat} {k : Bytes} (hgrace : (roleOf s h).grace = some (k, t)) :
    endGrace h s = keyEvent 3 h 4 0 (dropSlots h (some 2) (setRole h { roleOf s h with grace := none } s)) := by
  unfold endGrace
  rw [hgrace]

/-- The row of a key whose grace ends at tick `t`. -/
theorem execGraceExpiry_kept {s : State} {h t : Nat} {k : Bytes} (hgrace : (roleOf s h).grace = some (k, t)) :
    exec (.graceExpiry h) s = .next (if t ≤ curTick s then endGrace h s else s) := by
  show execGraceExpiry h s = _
  unfold execGraceExpiry
  rw [hgrace]

theorem execGraceExpiry_none {s : State} {h : Nat} (hgrace : (roleOf s h).grace = none) : exec (.graceExpiry h) s = .next s := by
  show execGraceExpiry h s = _
  unfold execGraceExpiry
  rw [hgrace]

/-! ## The statement -/

/-- Settles O43: each row takes the head of the port and runs its checks in order, and the end of grace is read off the key's role. -/
theorem updatesManagementAndGrace : Obligations.UpdatesManagementAndGrace := by
  unfold Obligations.UpdatesManagementAndGrace
  refine ⟨fun s u f c p hrow hroot hhead hlen htype hop => ?update, fun s m hroot => ?waits, fun s u f hhead hlen htype => ?management,
    fun s h t k hgrace => ⟨fun hearly => ?early, fun hended => ?ended⟩, fun s h hgrace => execGraceExpiry_none hgrace⟩
  case update =>
    have hexec : exec c s = .next (updFromQueue p s) := by
      obtain ⟨rfl, rfl⟩ | ⟨rfl, rfl⟩ | ⟨rfl, rfl⟩ | ⟨rfl, rfl⟩ := hrow
      all_goals rfl
    rw [hexec, updFromQueue_taken hroot hhead hlen htype hop, ← bit_testBit]
    unfold updTake
    cases updOps f.bytes
    case none => rfl
    case some ops => cases updSigned u f.bytes <;> rfl
  case waits =>
    exact ⟨congrArg Host.Outcome.next (updFromQueue_waits hroot _), congrArg Host.Outcome.next (updFromQueue_waits hroot _),
      congrArg Host.Outcome.next (updFromQueue_waits hroot _), congrArg Host.Outcome.next (updFromQueue_waits hroot _)⟩
  case management => exact congrArg Host.Outcome.next (netMgmt_taken hhead hlen htype)
  case early => rw [execGraceExpiry_kept hgrace, if_neg (Nat.not_le.mpr hearly)]
  case ended => rw [execGraceExpiry_kept hgrace, if_pos hended, endGrace_kept hgrace]

end Sys2Proof.Laws
end

section
/-! Services and the SP's engines (O44, O45): the request at the head of port 65 and the SERVICE transaction, each check of the latter in its order, and one equation or shape for each event of a job, an engine and the DRBG. -/

namespace Sys2Proof.Laws

open Sys2Proof Sys2Proof.Machine

/-! ## Services by their two paths (R567, R568) -/

/-- A service's request at the head of port 65 is taken by the SP. -/
theorem fabricService_taken {code : Nat} (run : SvcReq → State → State × SvcOut) {s u : State} {f : Frame} (h : takeHead s 65 = some (f, u))
    (hlen : 16 ≤ f.bytes.length) (htype : fieldLE f.bytes 0 2 = 0x0E21) (hsvc : fieldLE f.bytes 2 1 = code) :
    fabricService code run s =
      takeRequest code (runService run) f.inport f.seq (min (fieldLE f.bytes 3 1 % 8) (fieldOf u 0x90010 4 3)) f.bytes u := by
  unfold fabricService
  rw [takeIf_taken h (by simp [hlen, htype, hsvc])]

/-- The fields of a SERVICE transaction agree: its service, its length, zero bytes after the data, and the type of the message (Table CRY-3). -/
def requestLaid (code : Nat) (x : Txn) : Prop :=
  let b := wordBytes x.payload
  fieldLE b 2 1 = code ∧ x.len = ceilDiv (16 + fieldLE b 12 2 + fieldLE b 14 2) 4 ∧
    (b.drop (16 + fieldLE b 12 2 + fieldLE b 14 2)).any (fun z => z != 0) = false ∧ fieldLE b 0 2 = 0x0E21

/-- The mode takes service requests at the host port (Table HOST-7). -/
def hearsServices (s : State) : Prop := columnNow s ≠ .standby ∧ columnNow s ≠ .build

section
variable {code : Nat} {run : SvcReq → State → State × SvcOut} {x : Txn} {u : State}

theorem runServiceTxn_misplaced (harg : x.arg = code) (h : ¬ requestLaid code x) : runServiceTxn code run x u = hostStatus 4 u := by
  refine if_pos ?_
  by_contra hnone
  simp only [not_or, ne_eq, not_not, Bool.not_eq_true] at hnone
  obtain ⟨hsvc, hrest⟩ := hnone
  exact h ⟨hsvc.symm.trans harg, hrest⟩

variable (harg : x.arg = code) (hlaid : requestLaid code x)
include harg hlaid

/-- A request whose fields agree goes on to the checks of the port, the mode and the permission. -/
theorem runServiceTxn_laid : runServiceTxn code run x u =
    if u.h.port.deferred.isSome then hostStatus 0x0E u
    else if columnNow u = .standby ∨ columnNow u = .build then hostStatus 0x06 u
    else if !svcAllowed u code then hostStatus 0x08 u
    else takeRequest code (runService run) 0xFF (x.seq % 256) (min (fieldLE (wordBytes x.payload) 3 1 % 8) (fieldOf u 0x90010 0 3))
      (wordBytes x.payload) (defer x 7 0 [] false u) := by
  obtain ⟨hsvc, hlen, hzero, htype⟩ := hlaid
  unfold runServiceTxn
  dsimp only
  rw [if_neg (by simp only [harg, hsvc, ← hlen, hzero, htype, ne_eq, not_true_eq_false, Bool.false_eq_true, or_self, not_false_eq_true])]
  cases columnNow u <;> simp

theorem runServiceTxn_waiting (hwait : u.h.port.deferred.isSome = true) : runServiceTxn code run x u = hostStatus 14 u := by
  rw [runServiceTxn_laid harg hlaid, if_pos hwait]

variable (hfree : u.h.port.deferred = none)
include hfree

theorem runServiceTxn_deaf (hdeaf : ¬ hearsServices u) : runServiceTxn code run x u = hostStatus 6 u := by
  have hmode : columnNow u = .standby ∨ columnNow u = .build := by
    unfold hearsServices at hdeaf
    tauto
  rw [runServiceTxn_laid harg hlaid, hfree, if_neg (by decide), if_pos hmode]

variable (hears : hearsServices u)
include hears

theorem runServiceTxn_heard : runServiceTxn code run x u =
    if !svcAllowed u code then hostStatus 0x08 u
    else takeRequest code (runService run) 0xFF (x.seq % 256) (min (fieldLE (wordBytes x.payload) 3 1 % 8) (fieldOf u 0x90010 0 3))
      (wordBytes x.payload) (defer x 7 0 [] false u) := by
  rw [runServiceTxn_laid harg hlaid, hfree, if_neg (by decide), if_neg (not_or.mpr hears)]

theorem runServiceTxn_denied (hdenied : svcAllowed u code = false) : runServiceTxn code run x u = hostStatus 8 u := by
  rw [runServiceTxn_heard harg hlaid hfree hears, hdenied]
  rfl

theorem runServiceTxn_taken (hallowed : svcAllowed u code = true) : runServiceTxn code run x u =
    takeRequest code (runService run) 0xFF (x.seq % 256) (min (fieldLE (wordBytes x.payload) 3 1 % 8) (fieldOf u 0x90010 0 3))
      (wordBytes x.payload) (defer x 7 0 [] false u) := by
  rw [runServiceTxn_heard harg hlaid hfree hears, hallowed]
  rfl

end

/-- A SERVICE transaction taken whole runs its service on the state that has its SEQ. -/
theorem exec_service_host {c : Instr} {code : Nat} {run : SvcReq → State → State × SvcOut} {x : Txn} {s : State}
    (h : serviceOf c = some (code, .host x, run)) (harg : x.arg = code) (hwhole : whole 7 x s) :
    exec c s = .next (answered x s (runServiceTxn code run x (received x s))) := by
  rw [exec_serviceOf h]
  exact congrArg Host.Outcome.next ((if_pos harg).trans (hostTxn_whole hwhole))

/-- A body at port 65 that is no message of the SP is counted (R569). -/
theorem badService_counted {s u : State} {f : Frame} (h : takeHead s 65 = some (f, u))
    (hbad : f.bytes.length < 16 ∨ fieldLE f.bytes 0 2 ≠ 0x0E21 ∧ fieldLE f.bytes 0 2 ≠ 0x0E01 ∧ fieldLE f.bytes 0 2 ≠ 0x0E11) :
    badService s = bump u 0x90014 16 16 1 := by
  unfold badService
  rw [takeIf_taken h ?test]
  case test =>
    obtain hshort | ⟨h21, h01, h11⟩ := hbad
    · simp [hshort]
    · simp [h21, h01, h11]
  refine if_neg fun ⟨hlen, htype⟩ => ?_
  obtain hshort | ⟨h21, _⟩ := hbad
  · omega
  · exact h21 htype

/-- Settles O44: both paths of every service, the checks of the host's in their order, and the bodies that are no request. -/
theorem servicesAreTakenByBothPaths : Obligations.ServicesAreTakenByBothPaths := by
  unfold Obligations.ServicesAreTakenByBothPaths
  refine ⟨fun c code run s u f hc hhead hlen htype hsvc => ?fabric, fun c code run x s hc harg hwhole => ?host,
    fun c code run x s hc harg => ?other, fun s u f hhead hshort => ?short, fun s u f hhead h21 h01 h11 => ?type⟩
  case fabric =>
    rw [exec_serviceOf hc]
    exact congrArg Host.Outcome.next (fabricService_taken run hhead hlen htype hsvc)
  case host =>
    rw [exec_service_host hc harg hwhole]
    exact ⟨fun hlaid => by rw [runServiceTxn_misplaced (u := received x s) harg hlaid],
      fun hlaid hwait => by rw [runServiceTxn_waiting (u := received x s) harg hlaid hwait],
      fun hlaid hfree hdeaf => by rw [runServiceTxn_deaf (u := received x s) harg hlaid hfree hdeaf],
      fun hlaid hfree hears hdenied => by rw [runServiceTxn_denied (u := received x s) harg hlaid hfree hears hdenied],
      fun hlaid hfree hears hallowed => by
        rw [runServiceTxn_taken (u := received x s) harg hlaid hfree hears hallowed]
        rfl⟩
  case other =>
    rw [exec_serviceOf hc]
    exact congrArg Host.Outcome.next (if_neg harg)
  case short => exact congrArg Host.Outcome.next (badService_counted hhead (.inl hshort))
  case type => exact congrArg Host.Outcome.next (badService_counted hhead (.inr ⟨h21, h01, h11⟩))

/-! ## Jobs and engines (R556 to R564, R569) -/

theorem jobComplete_ready {s : State} {id : Nat} {j : SpJob} (h : jobOf s id = some j) (hwork : j.work = 0) (hleave : j.leave ≠ 1)
    (hctx : j.engine ≠ 0 → j.ctx.isSome = true) (hblocks : j.blocks = 0) :
    jobComplete id s = deliverAnswer j (endJob j j.status s).2 (endJob j j.status s).1 := by
  have hnone : ¬ (j.engine ≠ 0 ∧ j.ctx.isNone = true) := fun ⟨hengine, hempty⟩ => by
    simp [Option.isNone_iff_eq_none.mp hempty] at hctx
    exact hengine hctx
  unfold jobComplete
  rw [h]
  dsimp only
  rw [if_neg (by omega), if_neg (by simp only [not_or]; exact ⟨hleave, hnone, not_not.mpr hblocks⟩)]
  rfl

theorem jobComplete_waits {s : State} {id : Nat} {j : SpJob} (h : jobOf s id = some j) (hwork : j.work = 0)
    (hwaits : j.leave = 1 ∨ j.blocks ≠ 0 ∨ j.engine ≠ 0 ∧ j.ctx = none) : jobComplete id s = s := by
  unfold jobComplete
  rw [h]
  dsimp only
  rw [if_neg (by omega), if_pos ?waits]
  case waits =>
    rw [Option.isNone_iff_eq_none]
    tauto

/-- Whatever a change of context costs, the engine runs the context picked. -/
theorem lmeRowEnd_lmeRun (issues : List LmeIssue) (s : State) :
    (lmeRowEnd issues s).h.sp.lmeRun =
      lmePick (issues.foldl lmeIssueOne (match s.h.sp.lmeRun with | some c => lmeRunRow c s | none => s)) := by
  unfold lmeRowEnd
  dsimp only
  split
  case h_1 =>
    split
    case isTrue => rfl
    case isFalse =>
      split
      case h_1 =>
        split
        all_goals rfl
      case h_2 => rfl
  case h_2 => rfl

/-- A job replaced by one of its number is the job of that number. -/
theorem jobOf_setJob {s : State} {j : SpJob} (k : SpJob) (hid : k.id = j.id) (h : jobOf s j.id = some j) : jobOf (setJob k s) j.id = some k := by
  have hfind : ∀ l : List SpJob, l.find? (fun x => x.id == j.id) = some j →
      (l.map (fun x => if x.id == k.id then k else x)).find? (fun x => x.id == j.id) = some k := by
    intro l
    induction l with
    | nil => simp
    | cons x r ih =>
      by_cases hx : x.id = j.id
      · simp [hx, hid]
      · simp [hx, hid] at ih ⊢
        exact ih
  exact hfind s.h.sp.jobs h

/-- The job whose context runs on an SHA-2 engine counts one block less, and may owe the cost of a change of context. -/
theorem shaBlockEnd_shape {s : State} {e c : Nat} {j : SpJob} (hrun : shaRun s e = some c) (hengine : c / 8 = e)
    (hone : s.h.sp.jobs.filter (fun x => x.engine == 3 && x.ctx == some c) = [j]) :
    let u := setJob { j with blocks := j.blocks - 1 } s
    ∃ w r0 r1, (w = u ∨ ∃ k, jobOf u j.id = some k ∧ w = setJob { k with owed := k.owed + 10 } u) ∧
      shaBlockEnd e s = { w with h.sp.shaRun0 := r0, h.sp.shaRun1 := r1 } := by
  intro u
  unfold shaBlockEnd
  dsimp only
  generalize hcur : List.find? (fun x : SpJob => shaRun s e == x.ctx) _ = cur
  have hj : cur = some j := by
    rw [← hcur, List.find?_filter, ← List.head?_filter, ← List.head?_cons (a := j) (l := []), ← hone]
    refine congrArg List.head? (List.filter_congr fun x _ => ?_)
    rw [hrun, Bool.beq_comm (b := x.ctx)]
    cases hctx : x.ctx with
    | none => simp
    | some d =>
      by_cases hd : d = c
      · simp only [hd, hengine, beq_self_eq_true, and_true, Bool.decide_eq_true]
      · simp [hd]
  rw [hj]
  dsimp only
  generalize List.head? _ = next
  generalize (next.bind fun j => j.ctx) = run
  have hend : ∀ w : State, ∃ r0 r1, (if e = 0 then { w with h.sp.shaRun0 := run } else { w with h.sp.shaRun1 := run }) =
      { w with h.sp.shaRun0 := r0, h.sp.shaRun1 := r1 } := fun w => by
    split
    · exact ⟨_, _, rfl⟩
    · exact ⟨_, _, rfl⟩
  obtain ⟨r0, r1, hu⟩ := hend u
  cases next with
  | none => exact ⟨u, r0, r1, .inl rfl, hu⟩
  | some b =>
    dsimp only
    by_cases hsame : j.id = b.id ∨ j.blocks ≤ 1
    · rw [if_pos hsame]
      exact ⟨u, r0, r1, .inl rfl, hu⟩
    · rw [if_neg hsame]
      cases hk : jobOf (setJob { j with blocks := j.blocks - 1 } s) j.id with
      | none => exact ⟨u, r0, r1, .inl rfl, hu⟩
      | some k =>
        obtain ⟨r0, r1, hw⟩ := hend (setJob { k with owed := k.owed + 10 } u)
        exact ⟨_, r0, r1, .inr ⟨k, rfl, rfl⟩, hw⟩

/-- Settles O45: a job's end by its conditions, the context that an LME row's end picks, the job of the block that ended, and the DRBG's tests. -/
theorem spEnginesDoTheirWork : Obligations.SpEnginesDoTheirWork := by
  unfold Obligations.SpEnginesDoTheirWork
  refine ⟨fun s id j hj hwork hleave hctx hblocks => congrArg Host.Outcome.next (jobComplete_ready hj hwork hleave hctx hblocks),
    fun s id j hj hwork hwaits => congrArg Host.Outcome.next (jobComplete_waits hj hwork hwaits),
    fun s issues => ⟨_, rfl, lmeRowEnd_lmeRun issues s⟩, fun s e c j he hrun hengine hj hone => ?block,
    fun s hhealth hgens => congrArg Host.Outcome.next (if_neg (by simp [hhealth, hgens])),
    fun s hdue => congrArg Host.Outcome.next (if_pos (by simpa using hdue)), fun s => congrArg Host.Outcome.next (raise_host 0x5A 0 _ (by decide))⟩
  case block =>
    obtain ⟨w, r0, r1, hw, hend⟩ := shaBlockEnd_shape hrun hengine hone
    have hu := jobOf_setJob (j := j) { j with blocks := j.blocks - 1 } rfl hj
    have hexec : exec (.shaBlockEnd e) s = .next { w with h.sp.shaRun0 := r0, h.sp.shaRun1 := r1 } :=
      congrArg Host.Outcome.next ((if_pos he).trans hend)
    obtain rfl | ⟨k, hk, rfl⟩ := hw
    · exact ⟨_, _, hexec, hu, rfl, List.length_map _, rfl, rfl, rfl⟩
    · obtain rfl : { j with blocks := j.blocks - 1 } = k := Option.some.inj (hu.symm.trans hk)
      exact ⟨_, _, hexec, jobOf_setJob (j := { j with blocks := j.blocks - 1 }) _ rfl hk, rfl,
        (List.length_map _).trans (List.length_map _), rfl, rfl, rfl⟩

end Sys2Proof.Laws
end

section
/-! Permission (O8, O49, O50): only its rising instant starts the PERMIT pins, what gives and withdraws it, and that only the FS may write FSUP.PERMIT. -/

namespace Sys2Proof.Laws

open Sys2Proof Sys2Proof.Machine

/-! ## The PERMIT pins (R624) -/

/-- Only the PERMIT pins are asked not to start. -/
def Fix.onlyPermit : Fix := { Fix.nothing with permit := True }

theorem allows_onlyPermit (c : Instr) (hstart : c ≠ .permitGrantStart) : allows Fix.onlyPermit c := by
  unfold allows
  split
  case h_4 => exact absurd rfl hstart
  all_goals simp [Fix.onlyPermit, Fix.nothing]

/-- Settles O8, from what every command keeps with the pins asked not to start. -/
theorem permitStartsOnlyAtItsInstant : Obligations.PermitStartsOnlyAtItsInstant := by
  unfold Obligations.PermitStartsOnlyAtItsInstant
  exact fun c s t e hstart => (keeps_exec (allows_onlyPermit c hstart) e (keeps_refl _ s)).holds.permit trivial

/-! ## Permission given and withdrawn (R622 to R626) -/

theorem permitUpdate_met {s : State} (h : permitMet s = true) : permitUpdate s = { s with f.granted := true } := if_pos h

theorem permitUpdate_unmet {s : State} (h : permitMet s = false) : permitUpdate s = s := if_neg (by simp [h])

theorem permitMet_permitUpdate (s : State) : permitMet (permitUpdate s) = permitMet s := by
  obtain ⟨g, e⟩ := permitUpdate_shape s
  rw [e]
  rfl

/-- Any cause but the hold line, the host's state and GRANT itself leaves FSUP.PERMIT.GRANT 0 (R626). -/
theorem withdraw_grant {c : Nat} (hc : 3 < c) {s : State} (hwf : RegFile.wf s.regs = true) :
    Nat.testBit (reg (withdraw c s) 0x820004) 0 = false := by
  unfold withdraw
  dsimp only
  rw [if_neg (by omega), ← bit_testBit]
  split
  case isTrue =>
    have hcleared := fieldOf_setField_zero { s with f.granted := false, f.permit := false, f.cause := c } 0x820004 0 1 hwf (by decide)
    have hlow : reg (setField { s with f.granted := false, f.permit := false, f.cause := c } 0x820004 0 1 0) 0x820004 / 2 ^ 0 % 2 ^ 1 = 0 := hcleared
    unfold bit
    rw [beq_eq_false_iff_ne]
    exact fun h => by simp_all
  case isFalse h =>
    rw [not_or, Bool.not_eq_true, Bool.not_eq_true] at h
    exact h.2

theorem reg_raise (src detail : Nat) (s : State) (a : Nat) : reg (raise src detail s) a = reg s a := by
  rw [reg, raise_regs]
  rfl

/-- The host's permit state followed (R623). -/
theorem setHostGrant_follows (g : Bool) (s : State) : (setHostGrant g s).f.hostGrant = g ∧
    (g = false → (setHostGrant g s).f.granted = false ∧ (setHostGrant g s).f.permit = false) := by
  cases g with
  | true =>
    obtain ⟨x, e⟩ := permitUpdate_shape { s with f.hostGrant := true }
    exact ⟨by simp only [setHostGrant, if_true, e], fun h => Bool.noConfusion h⟩
  | false =>
    obtain ⟨c, rg, e, _⟩ := withdraw_shape 2 { s with f.hostGrant := false }
    simp only [setHostGrant, Bool.false_eq_true, if_false, e]
    exact ⟨trivial, fun _ => ⟨trivial, trivial⟩⟩

theorem execPermitMessage_found {s u : State} {m : XMsg} (h : takeInbox true (fun m => m.typ == 5 && dueMsg s true m) s = some (m, u)) :
    exec .permitMessage s = .next (setHostGrant (bit (fieldLE m.payload 0 1) 0) u) := by
  show execPermitMessage s = _
  unfold execPermitMessage
  rw [h]

/-- The hold line seen asserted withdraws permission. -/
theorem setHoldSeen_asserted (s : State) :
    (setHoldSeen true s).f.hold = true ∧ (setHoldSeen true s).f.granted = false ∧ (setHoldSeen true s).f.permit = false := by
  obtain ⟨c, rg, e, _⟩ := withdraw_shape 1 { s with f.hold := true }
  simp only [setHoldSeen, if_true, e, and_self]

/-- The hold line seen de-asserted gives permission where every condition of R623 then holds. -/
theorem setHoldSeen_released (s : State) :
    let t := setHoldSeen false s
    t.f.hold = false ∧ t.f.permit = s.f.permit ∧ (permitMet t = true → t.f.granted = true) ∧ (permitMet t = false → t.f.granted = s.f.granted) := by
  intro t
  have ht : t = permitUpdate { s with f.hold := false } := rfl
  have hmet : permitMet t = permitMet { s with f.hold := false } := ht ▸ permitMet_permitUpdate _
  obtain ⟨g, e⟩ := permitUpdate_shape { s with f.hold := false }
  refine ⟨by rw [ht, e], by rw [ht, e], fun h => ?_, fun h => ?_⟩
  · rw [ht, permitUpdate_met (hmet ▸ h)]
  · rw [ht, permitUpdate_unmet (hmet ▸ h)]

theorem readbackMismatch_withdraws (s : State) :
    let t := readbackMismatch s
    t.f.rberr = true ∧ t.f.granted = false ∧ t.f.permit = false ∧ (RegFile.wf s.regs = true → Nat.testBit (reg t 0x820004) 0 = false) := by
  obtain ⟨c, rg, e, _⟩ := withdraw_shape 5 { s with f.rberr := true }
  obtain ⟨p1, p2, he⟩ := raise_shape 0x112 0 (withdraw 5 { s with f.rberr := true })
  refine ⟨?_, ?_, ?_, fun hwf => (congrArg (Nat.testBit · 0) (reg_raise 0x112 0 _ _)).trans (withdraw_grant (by decide) hwf)⟩
  all_goals
    unfold readbackMismatch
    rw [he, e]

/-- The watchdog's interval has passed (R597). -/
theorem wdExpire_due {s : State} {d : Nat} (hd : s.f.wdog = some d) (hdue : d ≤ fnow s) :
    wdExpire s = raise 0x110 0 (withdraw 4 { s with f.wdExpired := true, f.wdog := none }) := by
  unfold wdExpire
  rw [hd]
  exact if_pos hdue

theorem wdExpire_withdraws {s : State} {d : Nat} (hd : s.f.wdog = some d) (hdue : d ≤ fnow s) :
    let t := wdExpire s
    t.f.wdExpired = true ∧ t.f.wdog = none ∧ t.f.granted = false ∧ t.f.permit = false ∧
      (RegFile.wf s.regs = true → Nat.testBit (reg t 0x820004) 0 = false) := by
  intro t
  have ht : t = raise 0x110 0 (withdraw 4 { s with f.wdExpired := true, f.wdog := none }) := wdExpire_due hd hdue
  obtain ⟨c, rg, e, _⟩ := withdraw_shape 4 { s with f.wdExpired := true, f.wdog := none }
  obtain ⟨p1, p2, he⟩ := raise_shape 0x110 0 (withdraw 4 { s with f.wdExpired := true, f.wdog := none })
  refine ⟨?_, ?_, ?_, ?_, fun hwf => ht ▸ (congrArg (Nat.testBit · 0) (reg_raise 0x110 0 _ _)).trans (withdraw_grant (by decide) hwf)⟩
  all_goals rw [ht, he, e]

theorem wdExpire_idle {s : State} (h : s.f.wdog = none) : wdExpire s = s := by
  unfold wdExpire
  rw [h]

/-- Settles O49: what gives, starts and withdraws permission by its own lemma, and each write by its effect. -/
theorem permissionFollowsItsConditions : Obligations.PermissionFollowsItsConditions := by
  unfold Obligations.PermissionFollowsItsConditions
  refine ⟨fun s u m h => ?message, fun s o v hp => ?permctl,
    fun s hon => ⟨_, congrArg Host.Outcome.next (if_pos hon), setHoldSeen_asserted s⟩,
    fun s hon hline => ⟨_, congrArg Host.Outcome.next (if_pos (by simp [hon, hline])), setHoldSeen_released s⟩,
    fun s hinstant => ⟨_, congrArg Host.Outcome.next (if_pos hinstant), fun h => if_pos h, fun h => if_neg h⟩,
    fun s hon => ⟨_, congrArg Host.Outcome.next (if_pos hon), readbackMismatch_withdraws s⟩, fun s v hp => ?permit, fun s v hp => ?wdt,
    fun s d hd hdue => ⟨_, rfl, wdExpire_withdraws hd hdue⟩, fun s h => congrArg Host.Outcome.next (wdExpire_idle h)⟩
  case message =>
    rw [← bit_testBit]
    exact ⟨_, execPermitMessage_found h, setHostGrant_follows _ u⟩
  case permctl =>
    exact ⟨_, rfl, masterWrite_stores s o 0x600004 v.toNat (sendPermit (bit v.toNat 0)) hp v.isLt rfl (fun _ _ => rfl) (fun _ _ => rfl)⟩
  case permit =>
    rw [← bit_testBit]
    exact ⟨_, rfl, masterWrite_storesFs s 0x820004 v.toNat (permitWrite (bit v.toNat 0)) hp v.isLt rfl (fun _ _ => rfl) (fun _ _ => rfl)⟩
  case wdt =>
    exact ⟨_, rfl, masterWrite_storesFs s 0x82000C v.toNat (wdRefresh v.toNat) hp v.isLt rfl (fun _ _ => rfl) (fun _ _ => rfl)⟩

/-! ## Only the FS writes FSUP.PERMIT (R627) -/

theorem remoteHostStatus_permit (s : State) {o : Origin} (v : Nat) (ho : o ≠ .fs) : remoteHostStatus s o 0x820004 v = some 0x08 := by
  obtain ⟨d, hd⟩ := Option.isSome_iff_exists.mp (show (regAt 0x820004).isSome = true by decide)
  have hdenied : deniedWrite s false o d 0x820004 v = true := by
    simp [deniedWrite, soleWriter, ho]
  unfold remoteHostStatus
  rw [hd]
  exact if_pos hdenied

/-- A refusal of a remote transaction whose first write the matrix or the sole writer denies. -/
def permitRefused (o : Origin) (s : State) : State := recordRefusal false o 0x820004 0x08 (closeRefused o 0x820004 s)

theorem remoteWrites_permit {s : State} {o : Origin} (v : Nat) (r : List (Nat × Nat)) (seq : Nat) (ho : o ≠ .fs) (hmode : hostModeStatus s o = none) :
    remoteWrites o ((0x820004, v) :: r) seq s = (permitRefused o s, 0x08) := by
  unfold remoteWrites
  dsimp only
  rw [hmode]
  simp only [checkRemoteWrites, remoteHostStatus_permit s v ho]
  rfl

/-- Permission and the link stand. -/
def permissionStands (s t : State) : Prop := t.f.granted = s.f.granted ∧ t.f.permit = s.f.permit ∧ t.h.tahr = s.h.tahr

theorem permissionStands_trans {s t u : State} (h1 : permissionStands s t) (h2 : permissionStands t u) : permissionStands s u := by
  obtain ⟨hgranted, hpermit, htahr⟩ := h1
  obtain ⟨hgranted', hpermit', htahr'⟩ := h2
  exact ⟨hgranted'.trans hgranted, hpermit'.trans hpermit, htahr'.trans htahr⟩

theorem permissionStands_setReg (s : State) (a v : Nat) : permissionStands s (setReg s a v) := ⟨rfl, rfl, rfl⟩

theorem permissionStands_bump (s : State) (a lo w n : Nat) : permissionStands s (bump s a lo w n) := ⟨rfl, rfl, rfl⟩

theorem permissionStands_portClosed (s : State) : permissionStands s (portClosed s) := by
  obtain ⟨w1, w2, hremote⟩ := setWindow_shape true .hostSpi 0 s
  obtain ⟨w1', w2', hlocal⟩ := setWindow_shape false .hostSpi 0 (setWindow true .hostSpi 0 s)
  unfold portClosed
  rw [hlocal, hremote]
  exact ⟨rfl, rfl, rfl⟩

theorem permissionStands_hostStatus (st : Nat) (s : State) : permissionStands s (hostStatus st s) := by
  unfold hostStatus
  dsimp only
  split
  case isTrue => exact permissionStands_bump { s with h.port.presult := st, h.port.prevDeferred := false } 0x48 16 16 1
  case isFalse => exact ⟨rfl, rfl, rfl⟩

/-- Such a refusal changes SYS.WREFUSE of its origin and windows. -/
theorem permitRefused_shape (o : Origin) (s : State) :
    ∃ w1 w2 x, permitRefused o s = setReg { s with h.port.windows := w1, f.windows := w2 } (bank o 0x44) x := by
  obtain ⟨w1, w2, e⟩ := windowAfter_shape s o 0x820004 0 s
  have hclose : closeRefused o 0x820004 s = windowAfter s o 0x820004 0 s := rfl
  unfold permitRefused
  rw [hclose, e]
  exact ⟨w1, w2, _, rfl⟩

theorem permissionStands_permitRefused (o : Origin) (s : State) : permissionStands s (permitRefused o s) := by
  obtain ⟨w1, w2, x, e⟩ := permitRefused_shape o s
  rw [e]
  exact permissionStands_setReg { s with h.port.windows := w1, f.windows := w2 } _ x

theorem reg_permitRefused (o : Origin) (s : State) : reg (permitRefused o s) 0x820004 = reg s 0x820004 := by
  obtain ⟨w1, w2, x, e⟩ := permitRefused_shape o s
  have hne : 0x820004 ≠ bank o 0x44 := by cases o <;> decide
  rw [e]
  exact congrArg BitVec.toNat (regFile_get_set_ne s.regs _ _ _ hne)

/-- A WRITE of remote registers that begins with FSUP.PERMIT is refused, and its status is DENIED. -/
theorem runWrites_permit {x : Txn} {s : State} {v : Nat} {r : List (Nat × Nat)} (hws : txnWrites 1 x = (0x820004, v) :: r)
    (hremote : ∀ w ∈ r, (regAt w.1).isSome = true ∧ isRemote w.1 = true) (hlen : r.length < 64) (hmode : hostModeStatus s .hostSpi = none)
    (hfree : s.h.port.deferred = none) : runWrites 1 x s = hostStatus 0x08 (portClosed (permitRefused .hostSpi s)) := by
  have hall : ∀ w ∈ txnWrites 1 x, (regAt w.1).isSome = true ∧ isRemote w.1 = true := by
    rw [hws]
    have hpermit : (regAt 0x820004).isSome = true ∧ isRemote 0x820004 = true := by decide
    exact List.forall_mem_cons.mpr ⟨hpermit, hremote⟩
  have hfilter : (txnWrites 1 x).filter (fun w => isRemote w.1) = txnWrites 1 x := List.filter_eq_self.mpr fun w hw => (hall w hw).2
  have hsome : (txnWrites 1 x).isEmpty = false := by rw [hws]; rfl
  have hfew : ¬ 64 < (txnWrites 1 x).length := by
    rw [hws, List.length_cons]
    omega
  have hrefused : remoteWrites .hostSpi (txnWrites 1 x) (x.seq % 256) s = (permitRefused .hostSpi s, 0x08) := by
    rw [hws]
    exact remoteWrites_permit v r _ (by decide) hmode
  unfold runWrites
  simp only [hfilter, hsome, find?_noRegister fun w hw => (hall w hw).1, hfree, hrefused, if_neg hfew, ne_eq, not_true_eq_false, and_false,
    if_false, Option.isSome_none, Bool.false_eq_true]
  exact (if_neg (by decide)).trans (if_neg (by decide))

/-- Settles O50: the shared check refuses the write, whether it comes over the bus or as a WRITE of the host port. -/
theorem onlyTheFsWritesPermit : Obligations.OnlyTheFsWritesPermit := by
  unfold Obligations.OnlyTheFsWritesPermit
  refine ⟨fun s o v ho => remoteHostStatus_permit s v.toNat ho, fun s o v ho hmode => ?bus, fun s x v r hwhole hws hremote hlen hmode hfree => ?host⟩
  case bus =>
    have hbus : busWrite o 0x820004 v s = (permitRefused o s, 0x08) :=
      (if_neg ho).trans (remoteWrites_permit v.toNat [] 0 ho hmode)
    exact ⟨_, hbus, reg_permitRefused o s, permissionStands_permitRefused o s⟩
  case host =>
    have hstands := permissionStands_trans (permissionStands_permitRefused .hostSpi (received x s))
      (permissionStands_trans (permissionStands_portClosed _) (permissionStands_hostStatus 0x08 _))
    rw [← runWrites_permit (s := received x s) hws hremote hlen hmode hfree] at hstands
    refine ⟨answered x s (runWrites 1 x (received x s)), congrArg Host.Outcome.next (hostTxn_whole hwhole), ?_, hstands⟩
    show (runWrites 1 x (received x s)).h.port.presult = 0x08
    rw [runWrites_permit (s := received x s) hws hremote hlen hmode hfree]
    rfl

end Sys2Proof.Laws
end

section
/-! The Tahr link (O46): frames in and out of sequence, retrains, lanes, training, heartbeats, and the link down at a die. -/

namespace Sys2Proof.Laws

open Sys2Proof Sys2Proof.Machine

/-! ## Frames received (R604 to R608) -/

theorem execTahrFrameRx_field {s : State} (hon : dieOn s true = true) (b : Bytes) (d : Bool) :
    exec (.tahrFrameRx true b d) s = .next (frameRx true b d s) :=
  congrArg Host.Outcome.next (if_neg (by simp [hon]))

theorem execTahrFrameRx_host {s : State} (hon : dieOn s false = true) (b : Bytes) (d : Bool) :
    exec (.tahrFrameRx false b d) s = .next (takeAnswers (frameRx false b d s)) :=
  congrArg Host.Outcome.next (if_neg (by simp [hon]))

theorem execTahrFrameRx_off {s : State} {fld : Bool} (hoff : dieOn s fld = false) (b : Bytes) (d : Bool) :
    exec (.tahrFrameRx fld b d) s = .next s :=
  congrArg Host.Outcome.next (if_pos (by simp [hoff]))

/-- A frame that is not sound asks for the next one in sequence again. -/
theorem frameRx_unsound {b : Bytes} {d : Bool} (h : frameOk b d = false) (s : State) :
    frameRx true b d s = { s with f.fe := { s.f.fe with nak := some s.f.fe.rxNext } } :=
  if_pos (by simp [h])

/-- The frame that the bytes of a sound frame carry to an end. -/
def frameOf (b : Bytes) (u : State) : TFrame :=
  ⟨fieldLE b 0 1 % 64, fieldLE b 1 1, fieldLE b 6 1, extend32 (fnow u) (fieldLE b 8 4), bit (fieldLE b 0 1) 6, bit (fieldLE b 0 1) 7,
    slice b 16 (fieldLE b 4 1), 0⟩

section
variable {b : Bytes} {d : Bool} {s : State} (hok : frameOk b d = true) (htyp : fieldLE b 0 1 % 64 ≠ 0)
include hok htyp

/-- A sound frame in sequence is taken, and with it the frames held behind it. -/
theorem frameRx_inSequence (hseq : (takeHeader true b s).f.fe.rxNext = fieldLE b 1 1) :
    frameRx true b d s = takeHeld true 32 (takeSegment true (frameOf b (takeHeader true b s)) { takeHeader true b s with
      f.fe := { (takeHeader true b s).f.fe with rxNext := ((takeHeader true b s).f.fe.rxNext + 1) % 256, nak := none } }) := by
  have hahead : (fieldLE b 1 1 + 256 - (endOf (takeHeader true b s) true).rxNext) % 256 = 0 := by
    rw [show (endOf (takeHeader true b s) true).rxNext = fieldLE b 1 1 from hseq, Nat.add_sub_cancel_left]
  unfold frameRx
  dsimp only
  rw [if_neg (by simp [hok]), if_neg htyp, if_pos hahead]
  rfl

/-- A sound frame beyond a gap is held, and the gap asked for. -/
theorem frameRx_beyondGap (hgap : (fieldLE b 1 1 + 256 - (endOf (takeHeader true b s) true).rxNext) % 256 ≠ 0)
    (hnear : (fieldLE b 1 1 + 256 - (endOf (takeHeader true b s) true).rxNext) % 256 < 33) (hroom : (takeHeader true b s).f.fe.rxHeld.length < 32)
    (hnew : ∀ g ∈ (takeHeader true b s).f.fe.rxHeld, g.seq ≠ fieldLE b 1 1) :
    frameRx true b d s = { takeHeader true b s with f.fe := { (takeHeader true b s).f.fe with
      nak := some (takeHeader true b s).f.fe.rxNext, rxHeld := (takeHeader true b s).f.fe.rxHeld ++ [frameOf b (takeHeader true b s)] } } := by
  have hkept : ¬ ((endOf (takeHeader true b s) true).rxHeld.any (fun g => g.seq == fieldLE b 1 1) = true ∨
      32 ≤ (endOf (takeHeader true b s) true).rxHeld.length) := by
    rw [List.any_eq_true]
    rintro (⟨g, hg, hseq⟩ | hfull)
    · exact hnew g hg (eq_of_beq hseq)
    · exact absurd hfull (Nat.not_le.mpr hroom)
  unfold frameRx
  dsimp only
  rw [if_neg (by simp [hok]), if_neg htyp, if_neg hgap, if_pos hnear, if_neg hkept]
  rfl

end

/-! ## Retrains and lanes (R601, R609) -/

theorem thirdFailed_of_unacked {s : State} (h : ∃ g, (g ∈ s.h.tahr.fe.unacked ∨ g ∈ s.f.fe.unacked) ∧ 3 ≤ g.sends) : thirdFailed s = true := by
  obtain ⟨g, hg, hsent⟩ := h
  unfold thirdFailed
  rw [Bool.or_eq_true, List.any_eq_true, List.any_eq_true]
  exact hg.imp (fun hh => ⟨g, hh, decide_eq_true hsent⟩) (fun hf => ⟨g, hf, decide_eq_true hsent⟩)

/-- An end of the link after a retrain: its unacknowledged frames are sent anew. -/
def retrained (e : LinkEnd) : LinkEnd := { e with train := true, unacked := e.unacked.map (fun g => { g with sends := 1 }) }

/-- Both ends train again and keep their sequence state. -/
theorem retrain_shape (s : State) : ∃ rg p1 p2, retrain s = { s with
    regs := rg, h.flt.pend := p1, f.flt.pend := p2, h.tahr.fe := retrained s.h.tahr.fe, f.fe := retrained s.f.fe } := by
  let both : State := { s with h.tahr.fe := retrained s.h.tahr.fe, f.fe := retrained s.f.fe }
  obtain ⟨rg, eb, _⟩ := bump_shape both 0x600008 16 8 1
  obtain ⟨p1, p2, e1⟩ := raise_shape 0x055 0 { both with regs := rg }
  obtain ⟨q1, q2, e2⟩ := raise_shape 0x117 0 { both with regs := rg, h.flt.pend := p1, f.flt.pend := p2 }
  refine ⟨rg, q1, q2, ?_⟩
  show raise 0x117 0 (raise 0x055 0 (bump both 0x600008 16 8 1)) = _
  rw [eb, e1, e2]

theorem execTahrRetrain_failed {s : State} (h : thirdFailed s = true) : exec .tahrRetrain s = .next (retrain s) :=
  congrArg Host.Outcome.next (if_pos h)

theorem execLaneRetire_on {s : State} {fld : Bool} (hon : dieOn s fld = true) (l : Nat) :
    exec (.laneRetire fld l) s = .next (retireLane fld l s) :=
  congrArg Host.Outcome.next (if_pos hon)

/-- The field die retires a lane of its direction. -/
theorem retireLane_field {s : State} {l : Nat} (hl : l < 6) (hnew : bit s.f.fe.retired l = false) :
    retireLane true l s = raise 0x116 0 { s with
      f.fe := { s.f.fe with retired := s.f.fe.retired + 2 ^ l, laneReq := some (l + 1), nak := some s.f.fe.rxNext } } := by
  unfold retireLane
  rw [if_neg (by simp [endOf, hnew]; omega)]
  exact if_pos rfl

/-- The host die retires a lane of its direction, and counts it. -/
theorem retireLane_host {s : State} {l : Nat} (hl : l < 6) (hnew : bit s.h.tahr.fe.retired l = false) :
    retireLane false l s = raise 0x054 0 (bump { s with
      h.tahr.fe := { s.h.tahr.fe with retired := s.h.tahr.fe.retired + 2 ^ l, laneReq := some (l + 1), nak := some s.h.tahr.fe.rxNext } }
      0x600008 24 8 1) := by
  unfold retireLane
  rw [if_neg (by simp [endOf, hnew]; omega)]
  exact if_neg Bool.false_ne_true

/-! ## Training (R603) -/

/-- Frames sent leave an end's training as it is. -/
theorem pump_train (fld : Bool) (n : Nat) : ∀ s : State, ∃ e, pump fld n s = setEnd fld e s ∧ e.train = (endOf s fld).train := by
  have hself (s : State) : ∃ e, s = setEnd fld e s ∧ e.train = (endOf s fld).train := ⟨endOf s fld, by cases fld <;> rfl, rfl⟩
  induction n with
  | zero => exact hself
  | succ n ih =>
    intro s
    unfold pump
    dsimp only
    split
    · exact hself s
    · split
      · exact hself s
      · next f r _ =>
        obtain ⟨e, hpump, htrain⟩ := ih (setEnd fld { endOf s fld with
          waiting := r, unacked := (endOf s fld).unacked ++ [{ f with seq := (endOf s fld).nextSeq, sends := 1 }],
          nextSeq := ((endOf s fld).nextSeq + 1) % 256, lastTx := dieNow s fld } s)
        refine ⟨e, hpump.trans ?_, htrain.trans ?_⟩
        all_goals cases fld <;> rfl

/-- Training over, both ends send again. -/
theorem trained_train (s : State) : (trained s).h.tahr.fe.train = false ∧ (trained s).f.fe.train = false := by
  unfold trained
  dsimp only
  split
  all_goals
    obtain ⟨eh, hh, th⟩ := pump_train false 32 (setEnd false _ (setEnd true _ s))
    rw [hh]
    obtain ⟨ef, hf, tf⟩ := pump_train true 32 (setEnd false eh (setEnd false _ (setEnd true _ s)))
    rw [hf]
    exact ⟨th, tf⟩

theorem execTrainingComplete_met {s : State} (htrain : s.h.tahr.fe.train = true ∨ s.f.fe.train = true) (hh : dieOn s false = true)
    (hf : dieOn s true = true) (lh : activeLanes s.h.tahr.fe ≠ 0) (lf : activeLanes s.f.fe ≠ 0) :
    exec .trainingComplete s = .next { trained s with h.tahr.syncN := 0, f.synced := false } :=
  congrArg Host.Outcome.next (if_pos (by simp [endOf, htrain, hh, hf, lh, lf]))

theorem execTrainingRetry_training {s : State} (h : s.h.tahr.fe.train = true ∨ s.f.fe.train = true) :
    exec .trainingRetry s = .next { s with h.tahr.fe.train := true, f.fe.train := true } :=
  congrArg Host.Outcome.next (if_pos (by simp [endOf, h]))

/-- A direction silent for 128 ns sends a null frame (R170). -/
theorem execNullFrameSend_silent {s : State} {fld : Bool} (hon : dieOn s fld = true) (htrain : (endOf s fld).train = false)
    (hdue : (endOf s fld).lastTx + 128 ≤ dieNow s fld) :
    exec (.nullFrameSend fld) s = .next (setEnd fld { endOf s fld with lastTx := dieNow s fld } s) :=
  congrArg Host.Outcome.next (if_pos (by simp [hon, htrain, hdue]))

/-! ## Heartbeats and the link down (R611, R628, R630) -/

theorem heartbeat_length (s : State) (fld : Bool) : (heartbeat s fld).length = 64 := by
  unfold heartbeat
  split <;> simp [padTo, slice]

/-- A message that its sender's barrier passes is queued. -/
theorem sendMsg_passed {s : State} {fld : Bool} {typ o : Nat} {x : Stamp} {p : Bytes}
    (h : barrier s fld (b2n fld) (endOf s fld).txRef typ o x p = none) : sendMsg fld typ o x p s = (enqueueMsg fld typ o x p s, none) := by
  unfold sendMsg
  rw [h]

/-- A heartbeat has the length of its catalogue entry, and no least interval. -/
theorem barrier_heartbeat (s : State) (fld : Bool) (refs : KMap Stamp) (o : Nat) (x : Stamp) :
    barrier s fld (b2n fld) refs 1 o x (heartbeat s fld) = none := by
  simp [barrier, catEntry, heartbeat_length]

theorem execHeartbeatSend_running {s : State} {fld : Bool} (hon : dieOn s fld = true) (htrain : (endOf s fld).train = false) :
    exec (.heartbeatSend fld) s = .next (enqueueMsg fld 1 0 (dieNow s fld) (heartbeat s fld) s) := by
  have hsent := congrArg Prod.fst (sendMsg_passed (barrier_heartbeat s fld (endOf s fld).txRef 0 (dieNow s fld)))
  exact congrArg Host.Outcome.next ((if_pos (by simp [hon, htrain])).trans hsent)

theorem execHeartbeatRx_found {s u : State} {m : XMsg} {fld : Bool} (h : takeInbox fld (fun m => m.typ == 1) s = some (m, u)) :
    exec (.heartbeatRx fld) s = .next (if fld then fieldHeartbeat m u else heartbeatAtHost m u) := by
  show execHeartbeatRx fld s = _
  unfold execHeartbeatRx
  rw [h]

theorem execLinkDown_host {s : State} (hon : dieOn s false = true) (hsilent : s.h.tahr.fe.lastHb + 1000000 ≤ s.time.now)
    (hlink : s.h.tahr.link = true) : exec (.linkDown false) s = .next (remoteDown (hostLinkDown s)) :=
  congrArg Host.Outcome.next ((if_pos (by simp [hon, endOf, dieNow, hsilent])).trans (if_pos hlink))

theorem execLinkDown_field {s : State} (hon : dieOn s true = true) (hsilent : s.f.fe.lastHb + 1000000 ≤ fnow s) :
    exec (.linkDown true) s = .next (fieldLinkDown (endFieldWork s)) :=
  congrArg Host.Outcome.next (if_pos (by simp [hon, endOf, dieNow, hsilent]))

/-- Only the controllers and arbiters of repair differ between two states. -/
def RepairOnly (s t : State) : Prop := ∃ r1 r2 a1 a2, t = { s with h.rep := r1, f.rep := r2, h.arb := a1, f.arb := a2 }

theorem RepairOnly.refl (s : State) : RepairOnly s s := ⟨_, _, _, _, rfl⟩

theorem RepairOnly.trans {s t u : State} : RepairOnly s t → RepairOnly t u → RepairOnly s u := by
  rintro ⟨_, _, _, _, rfl⟩ ⟨_, _, _, _, rfl⟩
  exact ⟨_, _, _, _, rfl⟩

theorem repairOnly_setRep (k : Nat) (r : Repair) (s : State) : RepairOnly s (setRep k r s) := by
  unfold setRep
  split
  · exact ⟨s.h.rep, _, s.h.arb, s.f.arb, rfl⟩
  · exact ⟨_, s.f.rep, s.h.arb, s.f.arb, rfl⟩

theorem repairOnly_setIsland (c : Nat) (i : Island) (s : State) : RepairOnly s (setIsland c i s) := repairOnly_setRep ..

/-- The leave of a visit or return given back, or no longer asked for. -/
theorem repairOnly_leaveEnds {s t : State} (h : RepairOnly s t) (fld : Bool) (k i : Nat) :
    RepairOnly s (if holdsLeave t fld k i then giveLeave fld k i t else dropLeave fld k i t) := by
  obtain ⟨a1, a2, hg⟩ := giveLeave_shape fld k i t
  obtain ⟨b1, b2, hd⟩ := dropLeave_shape fld k i t
  split
  · exact h.trans ⟨_, _, a1, a2, hg⟩
  · exact h.trans ⟨_, _, b1, b2, hd⟩

theorem repairOnly_endVisit (fld : Bool) (k : Nat) (s : State) : RepairOnly s (endVisit fld k s) := by
  unfold endVisit
  by_cases hk : k = 0x21
  · rw [if_pos hk]
    exact repairOnly_setRep ..
  · rw [if_neg hk]
    exact repairOnly_leaveEnds (repairOnly_setRep ..) ..

theorem repairOnly_endReturn (fld : Bool) (k r : Nat) (s : State) : RepairOnly s (endReturn fld k r s) :=
  repairOnly_leaveEnds (repairOnly_setRep ..) ..

theorem RepairOnly.ite {s t u : State} {c : Prop} [Decidable c] (ht : RepairOnly s t) (hu : RepairOnly s u) :
    RepairOnly s (if c then t else u) := by
  split
  · exact ht
  · exact hu

/-- A link loss ends the field die's visit and return in its controller and arbiter alone. -/
theorem repairOnly_endFieldWork (s : State) : RepairOnly s (endFieldWork s) := by
  unfold endFieldWork
  cases hvisit : (repOf s 0x20).visit with
  | none =>
    dsimp only
    split
    · exact .refl s
    · exact (repairOnly_setIsland ..).trans (repairOnly_endReturn ..)
  | some v =>
    have hended := (RepairOnly.ite (c := 4 ≤ v.step) (repairOnly_setIsland v.freed ⟨3, 0xFF, 0⟩ s)
      (.ite (c := v.step = 2 ∨ (v.step = 3 ∧ !noShadow v.kind)) (repairOnly_setIsland v.spare ⟨1, 0xFF, 0⟩ s) (.refl s))).trans
      (repairOnly_endVisit true v.kind _)
    dsimp only
    generalize endVisit true v.kind _ = w at hended ⊢
    split
    · exact hended
    · exact hended.trans ((repairOnly_setIsland ..).trans (repairOnly_endReturn ..))

/-- The field die trains again, and leaves FRUN for ALONE without permission (R25). -/
theorem fieldLinkDown_state (s : State) : (fieldLinkDown s).f.fe.train = true ∧
    (s.f.state = .frun → (fieldLinkDown s).f.state = .alone ∧ (fieldLinkDown s).f.granted = false ∧ (fieldLinkDown s).f.permit = false) := by
  unfold fieldLinkDown
  split
  case isTrue h =>
    obtain ⟨c, rg, e, _⟩ := withdraw_shape 6 { s with f.state := .alone }
    obtain ⟨p1, p2, er⟩ := raise_shape 0x115 0 { withdraw 6 { s with f.state := .alone } with f.aligned := false, f.fe.train := true }
    rw [er, e]
    exact ⟨rfl, fun _ => ⟨rfl, rfl, rfl⟩⟩
  case isFalse h => exact ⟨rfl, fun hf => absurd hf h⟩

/-- Settles O46: each event of the link by what it does where its conditions hold. -/
theorem tahrFramesTrainingAndHeartbeats : Obligations.TahrFramesTrainingAndHeartbeats := by
  unfold Obligations.TahrFramesTrainingAndHeartbeats
  refine ⟨fun s b d hon hbad => (execTahrFrameRx_field hon b d).trans (congrArg Host.Outcome.next (frameRx_unsound hbad s)),
    fun s b d hon hok htyp => ⟨fun hseq => ?taken, fun hgap hnear hroom hnew => ?held⟩, fun s b d hon => execTahrFrameRx_host hon b d,
    fun s fld b d hoff => execTahrFrameRx_off hoff b d, fun s h => ?retrain, fun s l hl => ⟨fun hon hnew => ?laneField, fun hon hnew => ?laneHost⟩,
    fun s htrain => ⟨execTrainingRetry_training htrain, fun hh hf lh lf => ?complete⟩,
    fun s => ⟨fun hon ht hdue => execNullFrameSend_silent (fld := true) hon ht hdue,
      fun hon ht hdue => execNullFrameSend_silent (fld := false) hon ht hdue⟩,
    fun s fld hon ht => execHeartbeatSend_running hon ht, fun s u m h => execHeartbeatRx_found h, fun s u m h => execHeartbeatRx_found h,
    fun s hon hsilent hlink => execLinkDown_host hon hsilent hlink, fun s hon hsilent => ?down⟩
  case taken => exact (execTahrFrameRx_field hon b d).trans (congrArg Host.Outcome.next (frameRx_inSequence hok htyp hseq))
  case held => exact (execTahrFrameRx_field hon b d).trans (congrArg Host.Outcome.next (frameRx_beyondGap hok htyp hgap hnear hroom hnew))
  case retrain =>
    obtain ⟨rg, p1, p2, e⟩ := retrain_shape s
    refine ⟨_, execTahrRetrain_failed (thirdFailed_of_unacked h), ?_⟩
    rw [e]
    exact ⟨rfl, rfl, rfl, rfl, rfl, rfl, rfl, rfl, rfl⟩
  case laneField =>
    rw [← bit_testBit] at hnew
    exact (execLaneRetire_on hon l).trans (congrArg Host.Outcome.next (retireLane_field hl hnew))
  case laneHost =>
    rw [← bit_testBit] at hnew
    exact (execLaneRetire_on hon l).trans (congrArg Host.Outcome.next (retireLane_host hl hnew))
  case complete =>
    obtain ⟨hth, htf⟩ := trained_train s
    exact ⟨_, execTrainingComplete_met htrain hh hf lh lf, hth, htf, rfl, rfl⟩
  case down =>
    obtain ⟨r1, r2, a1, a2, e⟩ := repairOnly_endFieldWork s
    obtain ⟨htrain, hstate⟩ := fieldLinkDown_state (endFieldWork s)
    exact ⟨_, execLinkDown_field hon hsilent, htrain, fun h => hstate (by rw [e]; exact h)⟩

end Sys2Proof.Laws
end

section
/-! Measurement and touch (O51, O52): outputs and windows of a channel, its registers, the converters' calibration, and the readings and scans of the touch channels. -/

namespace Sys2Proof.Laws

open Sys2Proof Sys2Proof.Machine

/-! ## Filter outputs (R646 to R657) -/

/-- A running channel of a cluster whose window still stands open takes the samples of one output. -/
def takesOutput (r : Bytes) (c : MChan) (xs xps : List Int) : Prop :=
  c.run = true ∧ xs.length = c.l ∧ c.outs < c.win ∧ (fieldLE r 2 1 ≠ 0xFF → xps.length = c.l)

/-- The stamp of the converter event of a channel's pair, where it has one. -/
def pairEvent (s : State) (host : Bool) (r : Bytes) : Option Int :=
  if fieldLE r 2 1 = 0xFF then none else (KMap.get? (measOf s host).chans (fieldLE r 2 1)).map (fun p => p.evAt)

theorem not_refused_of_takesOutput {r : Bytes} {c : MChan} {xs xps : List Int} (h : takesOutput r c xs xps) :
    ¬ (!c.run || xs.length != c.l || decide (c.win ≤ c.outs) || (fieldLE r 2 1 != 0xFF && xps.length != c.l)) = true := by
  obtain ⟨hrun, hlen, hopen, hpair⟩ := h
  have hpair' : (fieldLE r 2 1 != 0xFF && xps.length != c.l) = false := by
    rw [Bool.and_eq_false_imp]
    exact fun hne => by simp [hpair (by simpa using hne)]
  simp [hrun, hlen, hpair', Nat.not_le.mpr hopen]

section
variable {s : State} {ch : Nat} {r : Bytes} {c : MChan} {xs xps : List Int}

/-- Beside the channel, an output of the field die's cluster moves the mains detector only. -/
theorem filterOutput_field (hr : graphRec s false ch = some r) (hc : KMap.get? s.f.meas.chans ch = some c) (h : takesOutput r c xs xps) :
    ∃ m, filterOutput false ch xs xps s = { s with f.meas := { s.f.meas with
      chans := KMap.put s.f.meas.chans ch (chanOutput r c (pairEvent s false r) 131072 xs xps).1, mains := m } } := by
  have hc' : KMap.get? (measOf s false).chans ch = some c := hc
  unfold filterOutput
  simp only [hr, hc', if_neg (not_refused_of_takesOutput h)]
  by_cases hmains : (!false) = true ∧ ch = fieldOf s 0x800018 0 7
  · simp only [if_pos hmains]
    exact ⟨_, rfl⟩
  · simp only [if_neg hmains]
    exact ⟨s.f.meas.mains, rfl⟩

/-- Beside the channel, an output of the host die's cluster leaves readings to the touch channels only. -/
theorem filterOutput_host (hr : graphRec s true ch = some r) (hc : KMap.get? s.h.meas.chans ch = some c) (h : takesOutput r c xs xps) :
    ∃ x, filterOutput true ch xs xps s = { s with h.touch := x, h.meas := { s.h.meas with
      chans := KMap.put s.h.meas.chans ch (chanOutput r c (pairEvent s true r) 32768 xs xps).1 } } := by
  have hc' : KMap.get? (measOf s true).chans ch = some c := hc
  have hmains : ¬ ((!true) = true ∧ ch = fieldOf s 0x800018 0 7) := fun h => Bool.noConfusion h.1
  unfold filterOutput
  dsimp only
  rw [hr, hc']
  dsimp only
  rw [if_neg (not_refused_of_takesOutput h), if_neg hmains]
  by_cases hkept : true = true ∧ (!(chanOutput r c (pairEvent s true r) 32768 xs xps).2.2) = true
  · exact ⟨_, if_pos hkept⟩
  · exact ⟨s.h.touch, if_neg hkept⟩

end

/-! ## Windows (R654, R659 to R662) -/

theorem placeRecord_host (ch : Nat) (b : Bytes) (s : State) : placeRecord true ch b s =
    { s with h.meas := { s.h.meas with last := KMap.put s.h.meas.last ch b, queue := s.h.meas.queue ++ [(curTick s, b)] } } := rfl

/-- A loss counted and raised. -/
theorem raise_bump_shape (src a lo w n : Nat) (s : State) :
    ∃ rg p1 p2, raise src 0 (bump s a lo w n) = { s with regs := rg, h.flt.pend := p1, f.flt.pend := p2 } := by
  obtain ⟨rg, eb, _⟩ := bump_shape s a lo w n
  obtain ⟨p1, p2, er⟩ := raise_shape src 0 { s with regs := rg }
  exact ⟨rg, p1, p2, by rw [eb, er]⟩

/-- A record of the field die that finds its queue full is dropped, counted and raised. -/
theorem placeRecord_full (ch : Nat) (b : Bytes) {s : State} (h : 64 ≤ s.f.meas.queue.length) :
    placeRecord false ch b s = raise 0x118 0 (bump (setMeas false { s.f.meas with last := KMap.put s.f.meas.last ch b } s) 0x800024 16 8 1) := by
  unfold placeRecord measOf
  simp only [Bool.false_eq_true, if_false]
  rw [if_pos h]

theorem placeRecord_queued (ch : Nat) (b : Bytes) {s : State} (h : ¬ 64 ≤ s.f.meas.queue.length) :
    placeRecord false ch b s = setMeas false { s.f.meas with
      last := KMap.put s.f.meas.last ch b, queue := s.f.meas.queue ++ [(tickOf (fnow s), b)] } s := by
  unfold placeRecord measOf
  simp only [Bool.false_eq_true, if_false]
  rw [if_neg h]

theorem placeRecord_field (ch : Nat) (b : Bytes) (s : State) : ∃ rg p1 p2, placeRecord false ch b s =
    { s with regs := rg, h.flt.pend := p1, f.flt.pend := p2, f.meas := { s.f.meas with
      last := KMap.put s.f.meas.last ch b
      queue := if 64 ≤ s.f.meas.queue.length then s.f.meas.queue else s.f.meas.queue ++ [(tickOf (fnow s), b)] } } := by
  split
  case isTrue hfull =>
    rw [placeRecord_full ch b hfull]
    exact raise_bump_shape ..
  case isFalse hroom => exact ⟨s.regs, s.h.flt.pend, s.f.flt.pend, placeRecord_queued ch b hroom⟩

/-- A window of WIN outputs closes: its record is placed, and the next window opens. -/
theorem windowClose_full {s : State} {host : Bool} {ch : Nat} {r : Bytes} {c : MChan} (hr : graphRec s host ch = some r)
    (hc : KMap.get? (measOf s host).chans ch = some c) (hfull : c.win ≤ c.outs) (hsome : c.outs ≠ 0) :
    ∃ m, windowClose host ch s = placeRecord host ch (recordBytes host ch r c (c.n - 1) c.flags)
      (setMeas host { measOf s host with chans := KMap.put (measOf s host).chans ch (nextWindow s host ch r c), mains := m } s) := by
  unfold windowClose
  simp only [hr, hc]
  rw [if_neg (by omega)]
  exact ⟨_, rfl⟩

/-! ## Registers of a channel (R644, R658, R679) -/

/-- The channels of a cluster. -/
def chanCount (host : Bool) : Nat := if host then 16 else 128

theorem chctlReg_host (ch : Nat) : chctlReg true ch = 0x580200 + 4 * ch := rfl
theorem chctlReg_field (ch : Nat) : chctlReg false ch = 0x800200 + 4 * ch := rfl
theorem chwinReg_host (ch : Nat) : chwinReg true ch = 0x580240 + 4 * ch := rfl
theorem chwinReg_field (ch : Nat) : chwinReg false ch = 0x800400 + 4 * ch := rfl

/-- The registers of channels stand in the words of the two clusters. -/
theorem chanRegs_bounds {host : Bool} {ch : Nat} (h : ch < chanCount host) :
    (0x580200 ≤ chctlReg host ch ∧ chctlReg host ch < 0x801000) ∧ (0x580200 ≤ chwinReg host ch ∧ chwinReg host ch < 0x801000) := by
  cases host with
  | true =>
    have hch : ch < 16 := h
    rw [chctlReg_host, chwinReg_host]
    omega
  | false =>
    have hch : ch < 128 := h
    rw [chctlReg_field, chwinReg_field]
    omega

theorem storesElsewhere_chan {a : Nat} (h : 0x580200 ≤ a ∧ a < 0x801000) : storesElsewhere a = false := by
  simp only [storesElsewhere, Bool.or_eq_false_iff, Bool.and_eq_false_iff, beq_eq_false_iff_ne, decide_eq_false_iff_not]
  omega

theorem beforeWrite_chan {a : Nat} (h : 0x580200 ≤ a ∧ a < 0x801000) (old v : Nat) (u : State) : beforeWrite a old v u = u := by
  unfold beforeWrite
  rw [if_neg (by omega), if_neg (by omega), if_neg (by omega)]

theorem regEffect_high {a : Nat} (h : 0x580000 ≤ a) (fs : Bool) (o : Origin) (old v : Nat) (u : State) :
    regEffect fs o a old v u = effectHigh a old v u := by
  unfold regEffect
  rw [if_neg (by omega), if_neg (by omega), if_neg (by omega), if_neg (by omega)]

theorem regEffect_chctl {host : Bool} {ch : Nat} (h : ch < chanCount host) (fs : Bool) (o : Origin) (old v : Nat) (u : State) :
    regEffect fs o (chctlReg host ch) old v u = chctlEffect host ch (bit old 0) (bit v 0) u := by
  rw [regEffect_high (by have := chanRegs_bounds h; omega)]
  unfold effectHigh
  cases host with
  | true =>
    have hch : ch < 16 := h
    rw [chctlReg_host, if_neg (by omega), if_pos (by omega), Nat.add_sub_cancel_left, Nat.mul_div_cancel_left ch (by decide)]
  | false =>
    have hch : ch < 128 := h
    rw [chctlReg_field, if_neg (by omega), if_neg (by omega), if_neg (by omega), if_neg (by omega), if_pos (by omega),
      Nat.add_sub_cancel_left, Nat.mul_div_cancel_left ch (by decide)]

/-- A write of a window's length sets nothing off. -/
theorem regEffect_chwin {host : Bool} {ch : Nat} (h : ch < chanCount host) (fs : Bool) (o : Origin) (old v : Nat) (u : State) :
    regEffect fs o (chwinReg host ch) old v u = u := by
  have hplace : 0x580240 ≤ chwinReg host ch ∧ chwinReg host ch < 0x580280 ∨ 0x800400 ≤ chwinReg host ch ∧ chwinReg host ch < 0x800600 := by
    cases host with
    | true => exact .inl (by have hch : ch < 16 := h; rw [chwinReg_host]; omega)
    | false => exact .inr (by have hch : ch < 128 := h; rw [chwinReg_field]; omega)
  rw [regEffect_high (by omega)]
  unfold effectHigh
  repeat rw [if_neg (by omega)]

/-! ## Calibration of the converters (R667 to R669) -/

section
variable {s : State} {c : Calib} (hc : s.f.meas.cal = some c)
include hc

/-- The calibration of the spare ends. -/
theorem spareCalibrated_step (hstep : c.step = 2) :
    spareCalibrated true s = { s with f.meas.cal := some { c with step := 3 } } ∧
    spareCalibrated false s = calEnd 2 0 (raise 0x119 0 (match reserveOf s 0x21 with | some i => setIsland i ⟨3, 0xFF, 0⟩ s | none => s)) := by
  simp only [spareCalibrated, calStep, hc, hstep]
  exact ⟨rfl, rfl⟩

/-- The calibrated spare takes the duty. -/
theorem converterSwap_step {sp old : Nat} (hstep : c.step = 3) (hspare : reserveOf s 0x21 = some sp)
    (hserving : servingIsland s (0x2100 + c.duty) = some old) :
    ∃ chs, converterSwap s = { handDuty (0x2100 + c.duty) old sp 6 s with
      f.meas := { (handDuty (0x2100 + c.duty) old sp 6 s).f.meas with chans := chs, cal := some { c with step := 4 } } } := by
  simp only [converterSwap, hc, hspare, hserving]
  rw [if_neg (by omega)]
  exact ⟨_, rfl⟩

/-- The freed converter's calibration ends. -/
theorem calibrationDone_step {i : Nat} {e : Island} (hstep : c.step = 4)
    (hfreed : s.f.rep.islands.find? (fun e => e.1 / 256 == 0x21 && e.2.role == 6) = some (i, e)) :
    calibrationDone true s = calEnd 0 1 (setIsland i ⟨1, 0xFF, 0⟩ s) ∧
    calibrationDone false s = calEnd 3 1 (raise 0x119 0 (setIsland i ⟨3, 0xFF, 0⟩ s)) := by
  simp only [calibrationDone, hc, hstep, hfreed]
  exact ⟨rfl, rfl⟩

end

/-- Settles O51: outputs and windows by what the channel's cluster keeps, the writes by their effect, the calibration by its step. -/
theorem measurementChannelsAndCalibration : Obligations.MeasurementChannelsAndCalibration := by
  unfold Obligations.MeasurementChannelsAndCalibration
  refine ⟨fun s ch r c xs xps hr hc hrun hlen hopen hpair => ?fieldOutput, fun s ch r c xs xps hr hc hrun hlen hopen hpair => ?hostOutput,
    fun s host ch r c hr hc hfull hsome => ?window, fun s o ch v hch hp => ?chctl, fun s ch v hch hp => ?chctlFs,
    fun s o ch v hch hp => ?chwin, fun s ch v hch hp => ?chwinFs, fun s v hp => ?calctl, fun s o ch a v c hform hp => ?remote,
    fun s c hc => ⟨fun hstep => ?spare, fun sp old hstep hspare hserving => ?swap, fun hstep i e hfreed => ?done⟩⟩
  case fieldOutput =>
    obtain ⟨m, e⟩ := filterOutput_field hr hc ⟨hrun, hlen, hopen, hpair⟩
    exact ⟨_, congrArg Host.Outcome.next e, rfl, rfl, rfl⟩
  case hostOutput =>
    obtain ⟨x, e⟩ := filterOutput_host hr hc ⟨hrun, hlen, hopen, hpair⟩
    exact ⟨_, congrArg Host.Outcome.next e, rfl, rfl, rfl⟩
  case window =>
    obtain ⟨m, e⟩ := windowClose_full hr hc hfull hsome
    cases host with
    | true =>
      rw [placeRecord_host] at e
      exact ⟨_, congrArg Host.Outcome.next e, get?_put_same .., rfl, fun _ => rfl, fun h => Bool.noConfusion h⟩
    | false =>
      obtain ⟨rg, p1, p2, ep⟩ := placeRecord_field ch (recordBytes false ch r c (c.n - 1) c.flags)
        (setMeas false { measOf s false with chans := KMap.put (measOf s false).chans ch (nextWindow s false ch r c), mains := m } s)
      rw [ep] at e
      exact ⟨_, congrArg Host.Outcome.next e, get?_put_same .., rfl, fun h => Bool.noConfusion h, fun _ => rfl⟩
  case chctl =>
    have hplace := (chanRegs_bounds (host := true) hch).1
    exact ⟨_, rfl, masterWrite_changes s o _ v.toNat (fun old => chctlEffect true ch (bit old 0) (bit v.toNat 0)) hp v.isLt
      (storesElsewhere_chan hplace) (beforeWrite_chan hplace · v.toNat) (regEffect_chctl hch false o · v.toNat)⟩
  case chctlFs =>
    have hplace := (chanRegs_bounds (host := false) hch).1
    exact ⟨_, rfl, masterWrite_changesFs s _ v.toNat (fun old => chctlEffect false ch (bit old 0) (bit v.toNat 0)) hp v.isLt
      (storesElsewhere_chan hplace) (beforeWrite_chan hplace · v.toNat) (regEffect_chctl hch true .fs · v.toNat)⟩
  case chwin =>
    have hplace := (chanRegs_bounds (host := true) hch).2
    exact ⟨_, rfl, masterWrite_stores s o _ v.toNat id hp v.isLt
      (storesElsewhere_chan hplace) (beforeWrite_chan hplace · v.toNat) (regEffect_chwin hch false o · v.toNat)⟩
  case chwinFs =>
    have hplace := (chanRegs_bounds (host := false) hch).2
    exact ⟨_, rfl, masterWrite_storesFs s _ v.toNat id hp v.isLt
      (storesElsewhere_chan hplace) (beforeWrite_chan hplace · v.toNat) (regEffect_chwin hch true .fs · v.toNat)⟩
  case calctl =>
    exact ⟨_, rfl, masterWrite_storesFs s 0x800010 v.toNat (calRequest (v.toNat % 8)) hp v.isLt rfl (fun _ _ => rfl) (fun _ _ => rfl)⟩
  case remote =>
    have hexec : exec c s = .next (masterWrite o a v.toNat s) := by
      obtain ⟨rfl, rfl⟩ | ⟨rfl, rfl⟩ | ⟨rfl, rfl⟩ := hform
      · rfl
      · rfl
      · rfl
    exact ⟨_, hexec, masterWrite_wroteRemote s o a v.toNat hp v.isLt⟩
  case spare =>
    obtain ⟨hok, hfailed⟩ := spareCalibrated_step hc hstep
    exact ⟨congrArg Host.Outcome.next hok, congrArg Host.Outcome.next hfailed⟩
  case swap =>
    obtain ⟨chs, e⟩ := converterSwap_step hc hstep hspare hserving
    exact ⟨_, congrArg Host.Outcome.next e, rfl, rfl, rfl⟩
  case done =>
    obtain ⟨hok, hfailed⟩ := calibrationDone_step hc hstep hfreed
    exact ⟨congrArg Host.Outcome.next hok, congrArg Host.Outcome.next hfailed⟩

/-! ## Host sense calibration (R670) -/

/-- A host sense calibration ends with no other request written meanwhile. -/
theorem hsnsCalEnd_last {s : State} (hlast : s.h.meas.calAgain = []) (err done : Nat) : ∃ rg a1 a2, hsnsCalEnd err done s =
    { s with regs := rg, h.arb := a1, f.arb := a2, h.meas := { s.h.meas with cal := none, calErr := err, calReq := [], calAgain := [] } } := by
  let u : State := { s with h.meas := { s.h.meas with cal := none, calErr := err, calReq := [], calAgain := [] } }
  have hleave : ∃ a1 a2, (if holdsLeave u false 6 0 then giveLeave false 6 0 u else u) = { u with h.arb := a1, f.arb := a2 } := by
    split
    · exact giveLeave_shape false 6 0 u
    · exact ⟨u.h.arb, u.f.arb, rfl⟩
  obtain ⟨a1, a2, eleave⟩ := hleave
  have hcounted : ∃ rg, (if done = 0 then { u with h.arb := a1, f.arb := a2 } else bump { u with h.arb := a1, f.arb := a2 } 0x580008 16 16 done) =
      { u with h.arb := a1, f.arb := a2, regs := rg } := by
    split
    · exact ⟨u.regs, rfl⟩
    · obtain ⟨rg, e, _⟩ := bump_shape { u with h.arb := a1, f.arb := a2 } 0x580008 16 16 done
      exact ⟨rg, e⟩
  obtain ⟨rg, ecounted⟩ := hcounted
  refine ⟨rg, a1, a2, ?_⟩
  unfold hsnsCalEnd
  rw [hlast]
  exact (if_neg (by decide)).trans ((congrArg (fun w => if done = 0 then w else bump w 0x580008 16 16 done) eleave).trans ecounted)

/-- The channels of the host sense converter as it resumes: the samples of the gap do not exist, and the first one after it is a converter event. -/
def resumedChans (s : State) (c : Calib) : KMap MChan :=
  s.h.meas.chans.map (fun e =>
    match graphRec s true e.1 with
    | none => e
    | some r =>
      let taken := if c.step ≤ e.2.origin then 0 else ceilDiv (c.step - e.2.origin) (max 1 e.2.period)
      (e.1, { e.2 with origin := (nextCycle s true r s.time.now).1 - taken * e.2.period, evAt := taken }))

/-- Each resumed channel goes on with what it gathered. -/
theorem resumedChans_gathered (s : State) (c : Calib) :
    ∀ e ∈ resumedChans s c, ∃ e' ∈ s.h.meas.chans, e'.1 = e.1 ∧ e'.2.sum = e.2.sum ∧ e'.2.count = e.2.count := by
  unfold resumedChans
  intro e he
  obtain ⟨e', he', rfl⟩ := List.mem_map.mp he
  refine ⟨e', he', ?_⟩
  split
  · exact ⟨rfl, rfl, rfl⟩
  · exact ⟨rfl, rfl, rfl⟩

/-- The calibration under way ends, and the converter resumes. -/
theorem hsnsResume_ends {s : State} {c : Calib} (hc : s.h.meas.cal = some c) (hstep : c.step ≠ 0) (ok : Bool) :
    hsnsResume ok s = if ok then hsnsCalEnd 0 1 { s with h.meas.chans := resumedChans s c }
      else hsnsCalEnd 3 1 (raise 0x065 0 { s with h.meas.chans := resumedChans s c }) := by
  unfold hsnsResume
  rw [hc]
  exact if_neg hstep

/-! ## Touch channels (R672, R673) -/

section
variable {s : State} {t stamp : Nat} {r : Int}

/-- A reading moves its channel by the rule of R672. -/
theorem touchReading_takes (hr : (nth s.h.touch t Touch.reset).reading = some (r, stamp)) :
    touchReading t s =
      let x := touchRule s t (nth s.h.touch t Touch.reset) r stamp
      let u := { s with
        h.touch := s.h.touch.set t { x.1 with reading := none }
        h.touchEv := if x.2 = 0 then s.h.touchEv else s.h.touchEv ++ [(t, x.2, stamp)] }
      let w := if x.2 = 1 then bump u 0x580344 (8 * t) 8 1 else u
      if x.2 = 3 then raise (0x061 + t) 0 w else w := by
  unfold touchReading
  simp only [hr]
  by_cases hnone : (touchRule s t (nth s.h.touch t Touch.reset) r stamp).2 = 0
  · simp only [hnone, if_true]
  · simp only [if_neg hnone]

theorem touchStuckDue_reading (hr : (nth s.h.touch t Touch.reset).reading = some (r, stamp)) :
    touchStuckDue s t = ((touchRule s t (nth s.h.touch t Touch.reset) r stamp).2 == 3) := by
  unfold touchStuckDue
  simp only [hr]

/-- A reading that makes its channel STUCK is taken by its own event; any other reading is not. -/
theorem execTouchStuck_reading (hr : (nth s.h.touch t Touch.reset).reading = some (r, stamp)) :
    let x := touchRule s t (nth s.h.touch t Touch.reset) r stamp
    (x.2 = 3 → exec (.touchStuck t) s = .next (raise (0x061 + t) 0 { s with
      h.touch := s.h.touch.set t { x.1 with reading := none }, h.touchEv := s.h.touchEv ++ [(t, 3, stamp)] })) ∧
    (x.2 ≠ 3 → exec (.touchStuck t) s = .next s) := by
  intro x
  have hdue : touchStuckDue s t = (x.2 == 3) := touchStuckDue_reading hr
  refine ⟨fun h3 => congrArg Host.Outcome.next ((if_pos (by rw [hdue, h3]; rfl)).trans ?_),
    fun h3 => congrArg Host.Outcome.next (if_neg (by simp [hdue, h3]))⟩
  rw [touchReading_takes hr]
  have h3' : (touchRule s t (nth s.h.touch t Touch.reset) r stamp).2 = 3 := h3
  dsimp only
  rw [h3', if_neg (show ¬ (3 : Nat) = 0 by decide), if_neg (show ¬ (3 : Nat) = 1 by decide), if_pos rfl]

/-- In STANDBY a channel that touch may wake through is scanned. -/
theorem touchScan_on (hmode : s.sys.mode = .standby) (hwake : bit (reg s 0x24) 14 = true) (hen : bit (reg s (0x580304 + 0x10 * t)) 7 = true) :
    touchScan t r stamp s =
      let c := nth s.h.touch t Touch.reset
      if !(c.st == 1 || c.scanOk) then
        let n := if r ≤ c.base + touchTh s t - touchHys s t then c.scan + 1 else 0
        { s with h.touch := s.h.touch.set t (if touchDeb s t ≤ n then { c with scanOk := true, scan := 0 } else { c with scan := n }) }
      else
        let n := if c.base + touchWake s t ≤ r then c.scan + 1 else 0
        let u := { s with h.touch := s.h.touch.set t { c with scan := if 2 ≤ n then 0 else n } }
        if 2 ≤ n then wakeEvent 0x0F stamp u else u :=
  if_neg (by simp [hmode, hwake, hen])

end

/-- Settles O52: a calibration by its end, a reading by the rule of R672, a scan by the branch its channel stands in. -/
theorem hostSenseAndTouch : Obligations.HostSenseAndTouch := by
  unfold Obligations.HostSenseAndTouch
  refine ⟨fun s o hp => ?request, fun s c ok hc hstep hlast => ?ends,
    fun s t stamp r _ hr => ⟨congrArg Host.Outcome.next (touchReading_takes hr), execTouchStuck_reading hr⟩,
    fun s t stamp r _ hmode hwake hen => ?scan⟩
  case request =>
    exact ⟨_, rfl, masterWrite_stores s o 0x580004 1 hsnsCalRequest hp (by decide) rfl (fun _ _ => rfl) (fun _ _ => rfl)⟩
  case ends =>
    refine ⟨_, congrArg Host.Outcome.next (hsnsResume_ends hc hstep ok), ?_⟩
    cases ok with
    | true =>
      obtain ⟨rg, a1, a2, e⟩ := hsnsCalEnd_last (s := { s with h.meas.chans := resumedChans s c }) hlast 0 1
      rw [if_pos rfl, e]
      exact ⟨rfl, rfl, rfl, resumedChans_gathered s c⟩
    | false =>
      obtain ⟨p1, p2, er⟩ := raise_shape 0x065 0 { s with h.meas.chans := resumedChans s c }
      obtain ⟨rg, a1, a2, e⟩ := hsnsCalEnd_last (s := { s with h.flt.pend := p1, f.flt.pend := p2, h.meas.chans := resumedChans s c }) hlast 3 1
      rw [if_neg Bool.false_ne_true, er, e]
      exact ⟨rfl, rfl, rfl, resumedChans_gathered s c⟩
  case scan =>
    intro c low
    have hscan : exec (.touchWakeScan t r stamp) s = .next (touchScan t r stamp s) := rfl
    rw [hscan, touchScan_on hmode hwake hen]
    refine ⟨fun hst hok => congrArg Host.Outcome.next ?_, fun hready => ⟨fun hlow => congrArg Host.Outcome.next ?_,
      fun hhigh h0 => congrArg Host.Outcome.next ?_, fun hhigh h1 => congrArg Host.Outcome.next ?_⟩⟩
    · simp [c, low, hst, hok]
    all_goals have hawake : ¬ (!(c.st == 1 || c.scanOk)) = true := by simpa [or_iff_not_imp_left] using hready
    · simp [c, hawake, Int.not_le.mpr hlow]
    · simp [c, hawake, hhigh, h0]
    · simp [c, hawake, hhigh, h1]

end Sys2Proof.Laws
end

section
/-! Audio ports (O53): TDM frames and edges, the stamps they leave, and the IEC 60958 transmitters and receivers. -/

namespace Sys2Proof.Laws

open Sys2Proof Sys2Proof.Machine

/-! ## A port and its state (R686, R699) -/

/-- The framed audio ports of a state. -/
def ports (s : State) : List APort × List APort × List APort := (s.h.aud.tdm, s.h.aud.bpt, s.h.aud.bpr)

/-- A framed audio port has its place in the state. -/
def portThere (s : State) (i : Nat) : Prop :=
  if i < 4 then i < s.h.aud.tdm.length else if i < 6 then i - 4 < s.h.aud.bpt.length else i - 6 < s.h.aud.bpr.length

/-- A framed audio port has its place and stands at `p`. -/
def PortIs (s : State) (i : Nat) (p : APort) : Prop := portThere s i ∧ portOf s i = p

theorem PortIs.of_ports {s t : State} {i : Nat} {p : APort} (h : ports t = ports s) (hs : PortIs s i p) : PortIs t i p := by
  obtain ⟨htdm, hrest⟩ := Prod.mk.inj h
  obtain ⟨hbpt, hbpr⟩ := Prod.mk.inj hrest
  unfold PortIs portThere portOf at *
  rw [htdm, hbpt, hbpr]
  exact hs

theorem nth_set_same {α : Type} {l : List α} {i : Nat} (h : i < l.length) (x d : α) : nth (l.set i x) i d = x := by
  simp [nth, h]

/-- A port replaced stands as it was put. -/
theorem PortIs.set {s : State} {i : Nat} (h : portThere s i) (p : APort) : PortIs (setPort i p s) i p := by
  unfold PortIs portThere portOf setPort at *
  by_cases h4 : i < 4
  · simp only [if_pos h4, List.length_set] at h ⊢
    exact ⟨h, nth_set_same h _ _⟩
  · by_cases h6 : i < 6
    · simp only [if_neg h4, if_pos h6, List.length_set] at h ⊢
      exact ⟨h, nth_set_same h _ _⟩
    · simp only [if_neg h4, if_neg h6, List.length_set] at h ⊢
      exact ⟨h, nth_set_same h _ _⟩

theorem portIs_tdm {s : State} {n : Nat} (hn : n < 4) (h : n < s.h.aud.tdm.length) : PortIs s n (portOf s n) :=
  ⟨by simpa [portThere, hn] using h, rfl⟩

theorem portIs_bpr {s : State} {r : Nat} (h : r < s.h.aud.bpr.length) : PortIs s (6 + r) (portOf s (6 + r)) :=
  ⟨by simpa [portThere, Nat.not_lt.mpr (show 4 ≤ 6 + r by omega)] using h, rfl⟩

theorem ports_bump (s : State) (a lo w n : Nat) : ports (bump s a lo w n) = ports s := rfl

theorem ports_setField (s : State) (a lo w v : Nat) : ports (setField s a lo w v) = ports s := rfl

theorem ports_foldl {α : Type} {f : State → α → State} (hf : ∀ s x, ports (f s x) = ports s) (l : List α) : ∀ s, ports (l.foldl f s) = ports s := by
  induction l with
  | nil => exact fun _ => rfl
  | cons x l ih => exact fun s => (ih (f s x)).trans (hf s x)

theorem ports_forgetPort (i : Nat) (s : State) : ports (forgetPort i s) = ports s := rfl

theorem ports_keepSample (kind idx f : Nat) (v : Int) (s : State) : ports (keepSample kind idx f v s) = ports s := by
  unfold keepSample
  split <;> rfl

/-- A loss of lock also counts it in the port's converters. -/
theorem PortIs.loseLock {s : State} {i : Nat} {p : APort} (h : PortIs s i p) :
    PortIs (loseLock i s) i { p with lock := false, count := 0, b1 := none, b2 := none } := by
  obtain ⟨hthere, rfl⟩ := h
  unfold Machine.loseLock
  dsimp only
  split
  case isTrue =>
    refine .of_ports ?_ (.set hthere _)
    refine (ports_foldl ?_ _ _).trans (ports_forgetPort ..)
    exact fun _ _ => (ports_bump ..).trans rfl
  case isFalse hunlocked =>
    rw [Bool.not_eq_true] at hunlocked
    have hself : { portOf s i with lock := false } = portOf s i := by rw [← hunlocked]
    have hcleared := congrArg (fun q : APort => { q with count := 0, b1 := none, b2 := none }) hself
    exact hcleared ▸ .set hthere _

/-- A block stamp goes into the port's FIFO, and to the graph. -/
theorem PortIs.pushBlock {s : State} {i : Nat} {p : APort} (h : PortIs s i p) (b : BStamp) (first : Nat) :
    ∃ x1 x2 x3, PortIs (pushBlock i b first s) i { p with fifo := x1, b1 := x2, b2 := x3, resync := false } := by
  obtain ⟨hthere, rfl⟩ := h
  unfold Machine.pushBlock
  dsimp only
  split
  · exact ⟨_, _, _, .of_ports (ports_bump ..) (.set hthere _)⟩
  · exact ⟨_, _, _, .set hthere _⟩

/-! ## TDM (R690 to R697) -/

section
variable {s : State} {n : Nat} (hn : n < 4) (hrun : (portOf s n).run = true)
include hn hrun

theorem execTdmFrame_early (slots : List Word) (hmaster : portMaster s n = true)
    (hearly : curTick s < tickOf (frameAt s n ((portOf s n).frame + 1))) : exec (.tdmFrame n slots) s = .next s := by
  have hframe : tdmFrame n slots s = s := by
    unfold tdmFrame
    rw [if_neg (by simp [hrun]), if_pos hmaster, if_pos hearly]
  exact congrArg Host.Outcome.next ((if_pos hn).trans hframe)

/-- A master's frame whose end has come is received, stamped where it starts a block, and followed by the next. -/
theorem execTdmFrame_due (slots : List Word) (hmaster : portMaster s n = true)
    (hdue : tickOf (frameAt s n ((portOf s n).frame + 1)) ≤ curTick s) : exec (.tdmFrame n slots) s = .next (
      let k := (portOf s n).frame
      let u := tdmReceive n k slots s
      let w := if bit (reg u (portBase n)) 3 && k % blockLen u n == 0 then pushBlock n ⟨frameAt u n k, k / blockLen u n, false⟩ k u else u
      if (portOf s n).stopReq then portStop n w else setPort n { portOf w n with frame := k + 1 } w) := by
  refine congrArg Host.Outcome.next ((if_pos hn).trans ?_)
  unfold tdmFrame
  rw [if_neg (by simp [hrun]), if_pos hmaster, if_neg (Nat.not_lt.mpr hdue)]

variable {stamp clocks before : Nat} (hslave : portMaster s n = false) (hlate : isLate s stamp = false)
  (hedge : (portOf s n).lastEdge = some before)
include hslave hlate hedge

/-- An edge at another distance than a frame's loses lock and starts the frames again. -/
theorem tdmEdge_wrong (hthere : n < s.h.aud.tdm.length) (hclocks : clocks ≠ bits (cfgOf s n 0x08) 0 12) :
    ∃ q, PortIs (tdmEdge n stamp clocks s) n q ∧ q.lock = false ∧ q.frame = 0 ∧ q.lastEdge = some stamp := by
  have hlost := ((portIs_tdm hn hthere).of_ports (ports_bump s (portBase n + 0x28) 0 16 1)).loseLock
  obtain ⟨hthere', hq⟩ := hlost
  unfold tdmEdge
  dsimp only
  rw [if_neg (by simp [hrun, hslave]), if_neg (by simp [hlate]), hedge]
  dsimp only
  rw [if_neg hclocks]
  exact ⟨_, .set hthere' _, by rw [hq], rfl, rfl⟩

/-- The first edge at a frame's distance counts toward lock. -/
theorem tdmEdge_first (hthere : n < s.h.aud.tdm.length) (hclocks : clocks = bits (cfgOf s n 0x08) 0 12) (hgood : (portOf s n).good = 0)
    (hlock : (portOf s n).lock = false) (hstamps : bit (reg s (portBase n)) 3 = false) :
    ∃ q, PortIs (tdmEdge n stamp clocks s) n q ∧ q.lock = false ∧ q.good = 1 ∧ q.frame = (portOf s n).frame + 1 ∧ q.lastEdge = some stamp := by
  unfold tdmEdge
  dsimp only
  rw [if_neg (by simp [hrun, hslave]), if_neg (by simp [hlate]), hedge]
  dsimp only
  rw [if_pos hclocks, if_neg (by simp [reg] at hstamps ⊢; simp [hstamps])]
  exact ⟨_, .set (portIs_tdm hn hthere).1 _, by simp [hlock, hgood], by simp [hgood], rfl, rfl⟩

end

/-- An edge of a port that stays unlocked leaves it as the edge has it, but for the words it sends. -/
theorem slaveEdge_unlocked {s : State} {n stamp clocks : Nat} {q : APort} (h : PortIs (tdmEdge n stamp clocks s) n q) (hlock : q.lock = false) :
    ∃ w, PortIs (slaveEdge n stamp clocks s) n { q with sent := w } := by
  obtain ⟨hthere, rfl⟩ := h
  unfold slaveEdge
  dsimp only
  split
  · rw [if_neg (by simp [hlock])]
    exact ⟨_, .set hthere _⟩
  · exact ⟨_, hthere, rfl⟩

/-! ## Stamps read, and registers written (R690, R694, R701) -/

theorem bst0_clearsNothing {n : Nat} (hn : n < 4) : (regAt (0x500030 + 0x100 * n)).map clearsNothing = some true := by
  have hall : ∀ n < 4, (regAt (0x500030 + 0x100 * n)).map clearsNothing = some true := by decide
  exact hall n hn

theorem popEffect_bst0 {n : Nat} (hn : n < 4) (s : State) : popEffect (0x500030 + 0x100 * n) s = (popBlock n s).1 := by
  unfold popEffect
  rw [if_neg (by omega), if_neg (by omega), if_pos (by omega), show (0x500030 + 0x100 * n - 0x500000) / 0x100 = n by omega]

theorem masterRead_bst0 {n : Nat} {o : Origin} (hn : n < 4) (ho : busMaster o = true) (hfs : o ≠ .fs) (s : State) :
    masterRead o (0x500030 + 0x100 * n) s = (popBlock n s).1 := by
  have hlocal : isRemote (0x500030 + 0x100 * n) = false := Bool.and_eq_false_iff.mpr (.inl (decide_eq_false (by omega)))
  rw [masterRead_pops s ho hfs hlocal (bst0_clearsNothing hn), popEffect_bst0 hn]

theorem storesElsewhere_aud {a : Nat} (hlow : 0x500000 ≤ a) (hhigh : a < 0x508000) : storesElsewhere a = false := by
  simp only [storesElsewhere, Bool.or_eq_false_iff, Bool.and_eq_false_iff, beq_eq_false_iff_ne, decide_eq_false_iff_not]
  omega

theorem regEffect_aud {a : Nat} (hlow : 0x500000 ≤ a) (hhigh : a < 0x580000) (fs : Bool) (o : Origin) (old v : Nat) (u : State) :
    regEffect fs o a old v u = effectAud a old v u := by
  unfold regEffect
  rw [if_neg (by omega), if_neg (by omega), if_neg (by omega), if_pos hhigh]

theorem regEffect_tdmctl {n : Nat} (hn : n < 4) (o : Origin) (old v : Nat) (u : State) :
    regEffect false o (0x500000 + 0x100 * n) old v u = portEnable n (bit old 0) (bit v 0) u := by
  rw [regEffect_aud (by omega) (by omega)]
  unfold effectAud
  rw [if_pos (by omega), if_pos (by omega), show (0x500000 + 0x100 * n - 0x500000) / 0x100 = n by omega]

theorem regEffect_bptctl {x : Nat} (hx : x < 2) (o : Origin) (old v : Nat) (u : State) :
    regEffect false o (0x500400 + 0x100 * x) old v u =
      let w := portEnable (4 + x) (bit old 0) (bit v 0) u
      let w := if bit v 3 then bptCommit x false w else w
      if bit v 4 then bptCommit x true w else w := by
  rw [regEffect_aud (by omega) (by omega)]
  unfold effectAud
  rw [if_neg (by omega), if_pos (by omega), show (0x500400 + 0x100 * x - 0x500400) / 0x100 = x by omega]
  exact if_pos (by omega)

/-- The word that writes one commit bit of a transmitter beside what stands in BPTCTL. -/
def commitWord (r : Nat) (user : Bool) : Nat := r % 8 + if user then 16 else 8

theorem commitWord_lt (r : Nat) (user : Bool) : commitWord r user < 2 ^ 32 := by
  unfold commitWord
  split <;> omega

theorem commitWord_bits (r : Nat) (user : Bool) :
    bit (commitWord r user) 0 = bit r 0 ∧ bit (commitWord r user) 3 = !user ∧ bit (commitWord r user) 4 = user := by
  unfold commitWord bit
  cases user with
  | false =>
    have h0 : (r % 8 + 8) / 2 ^ 0 % 2 = r / 2 ^ 0 % 2 := by omega
    have h3 : (r % 8 + 8) / 2 ^ 3 % 2 = 1 := by omega
    have h4 : (r % 8 + 8) / 2 ^ 4 % 2 = 0 := by omega
    simp only [Bool.false_eq_true, if_false, h0, h3, h4]
    exact ⟨trivial, rfl, rfl⟩
  | true =>
    have h0 : (r % 8 + 16) / 2 ^ 0 % 2 = r / 2 ^ 0 % 2 := by omega
    have h3 : (r % 8 + 16) / 2 ^ 3 % 2 = 0 := by omega
    have h4 : (r % 8 + 16) / 2 ^ 4 % 2 = 1 := by omega
    simp only [if_true, h0, h3, h4]
    exact ⟨trivial, rfl, rfl⟩

/-- A commit bit written hands over the bits it names, with EN as it stands. -/
theorem regEffect_commitWord {x : Nat} (hx : x < 2) (o : Origin) (r : Nat) (user : Bool) (old : Nat) (u : State) :
    regEffect false o (0x500400 + 0x100 * x) old (commitWord r user) u = bptCommit x user (portEnable (4 + x) (bit old 0) (bit r 0) u) := by
  obtain ⟨hen, hcs, hub⟩ := commitWord_bits r user
  rw [regEffect_bptctl hx, hen, hcs, hub]
  cases user <;> rfl

/-! ## Transmitters and receivers (R700 to R705) -/

theorem execBptFrame_due {s : State} {x : Nat} (hx : x < 2) (hrun : (portOf s (4 + x)).run = true)
    (hdue : tickOf (frameAt s (4 + x) (portOf s (4 + x)).frame) ≤ curTick s) :
    exec (.bptFrame x) s = .next (bptFrame x (outboundFrame (4 + x) (portOf s (4 + x)).frame s)) :=
  congrArg Host.Outcome.next ((if_pos hx).trans (if_pos (by simp [hrun, hdue])))

/-- Two states differ in one register only. -/
def OnlyReg (a : Nat) (s t : State) : Prop := ∃ rg, t = { s with regs := rg } ∧ ∀ b, b ≠ a → RegFile.get rg b = RegFile.get s.regs b

theorem OnlyReg.refl (a : Nat) (s : State) : OnlyReg a s s := ⟨s.regs, rfl, fun _ _ => rfl⟩

theorem OnlyReg.trans {a : Nat} {s t u : State} : OnlyReg a s t → OnlyReg a t u → OnlyReg a s u := by
  rintro ⟨_, rfl, h1⟩ ⟨rg, rfl, h2⟩
  exact ⟨rg, rfl, fun b hb => (h2 b hb).trans (h1 b hb)⟩

theorem OnlyReg.setField {a : Nat} {s t : State} (h : OnlyReg a s t) (lo w v : Nat) : OnlyReg a s (setField t a lo w v) :=
  h.trans (setReg_shape t a _)

theorem OnlyReg.ite {a : Nat} {s t u : State} {c : Prop} [Decidable c] (ht : OnlyReg a s t) (hu : OnlyReg a s u) :
    OnlyReg a s (if c then t else u) := by
  split
  · exact ht
  · exact hu

theorem OnlyReg.ports {a : Nat} {s t : State} (h : OnlyReg a s t) : ports t = ports s := by
  obtain ⟨rg, rfl, _⟩ := h
  rfl

theorem OnlyReg.reg {a b : Nat} {s t : State} (h : OnlyReg a s t) (hb : b ≠ a) : reg t b = reg s b := by
  obtain ⟨rg, rfl, hkeep⟩ := h
  exact congrArg BitVec.toNat (hkeep b hb)

/-- The status of receiver r as a block's end leaves it, before its length. -/
def blockStatus (r : Nat) (s : State) : State :=
  let i := 6 + r
  let p := portOf s i
  let b0 := (nth p.newCs 0 0).toNat
  let st := portBase i + 4
  let s := setField (setField (setField s st 1 1 (b2n (bit b0 0))) st 2 1 (b2n (bit b0 1))) st 3 1 (b2n p.vseen)
  let s := if p.newCs ≠ p.cs then setField s st 4 1 1 else s
  if p.newUb ≠ p.ub then setField s st 5 1 1 else s

theorem blockStatus_onlyReg (r : Nat) (s : State) : OnlyReg (portBase (6 + r) + 4) s (blockStatus r s) := by
  have hread := (((OnlyReg.refl (portBase (6 + r) + 4) s).setField 1 1 (b2n (bit (nth (portOf s (6 + r)).newCs 0 0).toNat 0))).setField 2 1
    (b2n (bit (nth (portOf s (6 + r)).newCs 0 0).toNat 1))).setField 3 1 (b2n (portOf s (6 + r)).vseen)
  have hcs := OnlyReg.ite (c := (portOf s (6 + r)).newCs ≠ (portOf s (6 + r)).cs) (hread.setField 4 1 1) hread
  exact .ite (hcs.setField 5 1 1) hcs

section
variable {s : State} {r : Nat}

/-- Outside the end of a block received whole, nothing is reported. -/
theorem bprBlockEnd_unlocked (h : (portOf s (6 + r)).lock = false) : bprBlockEnd r s = s := if_pos (by simp [h])

/-- A block received whole is reported: its bits stand, and its stamp is kept. -/
theorem bprBlockEnd_whole {p : APort} (h : PortIs s (6 + r) p) (hlock : p.lock = true) (hwhole : p.whole = true) (hgood : p.good = 192) :
    ∃ x1 x2 x3, PortIs (bprBlockEnd r s) (6 + r) { p with
      cs := p.newCs, ub := p.newUb, whole := false, mute := bit (reg s (portBase (6 + r))) 1 && bit (nth p.newCs 0 0).toNat 1
      fifo := x1, b1 := x2, b2 := x3, resync := false } := by
  obtain ⟨hthere, rfl⟩ := h
  have hstatus := blockStatus_onlyReg r s
  have hmute : reg (blockStatus r s) (portBase (6 + r)) = reg s (portBase (6 + r)) := hstatus.reg (by omega)
  have hset := PortIs.set (PortIs.of_ports hstatus.ports ⟨hthere, rfl⟩).1 { portOf s (6 + r) with
    cs := (portOf s (6 + r)).newCs, ub := (portOf s (6 + r)).newUb, whole := false
    mute := bit (reg s (portBase (6 + r))) 1 && bit (nth (portOf s (6 + r)).newCs 0 0).toNat 1 }
  obtain ⟨x1, x2, x3, hpushed⟩ := hset.pushBlock
    ⟨(portOf s (6 + r)).blockAt, ((portOf s (6 + r)).frame - 192) / 192, (portOf s (6 + r)).resync⟩ ((portOf s (6 + r)).frame - 192)
  refine ⟨x1, x2, x3, ?_⟩
  rw [← hmute] at hpushed ⊢
  unfold bprBlockEnd
  dsimp only
  rw [if_neg (by simp [hlock, hwhole, hgood])]
  split
  · refine .of_ports ?_ hpushed
    split
    · exact ports_setField ..
    · rfl
  · exact hpushed

/-- A block's end never asks a receiver to stop. -/
theorem bprBlockEnd_stopReq {p : APort} (h : PortIs s (6 + r) p) : ∃ q, PortIs (bprBlockEnd r s) (6 + r) q ∧ q.stopReq = p.stopReq := by
  by_cases hends : p.lock = true ∧ p.whole = true ∧ p.good = 192
  · obtain ⟨hlock, hwhole, hgood⟩ := hends
    obtain ⟨x1, x2, x3, hq⟩ := bprBlockEnd_whole h hlock hwhole hgood
    exact ⟨_, hq, rfl⟩
  · have hsame : bprBlockEnd r s = s := by
      obtain ⟨_, rfl⟩ := h
      exact if_pos (by simpa [or_iff_not_imp_left] using hends)
    exact ⟨p, by rw [hsame]; exact h, rfl⟩

/-- A frame's words are taken: lock and the block's start stand. -/
theorem bprTake_keeps {p : APort} (a b : Nat) (h : PortIs s (6 + r) p) :
    ∃ q, PortIs (bprTake r a b s) (6 + r) q ∧ q.lock = p.lock ∧ q.blockAt = p.blockAt := by
  obtain ⟨hthere, rfl⟩ := h
  unfold bprTake
  dsimp only
  exact ⟨_, .of_ports ((ports_keepSample ..).trans ((ports_keepSample ..).trans (ports_bump ..))) (.set hthere _), rfl, rfl⟩

variable {stamp a b : Nat} {pre : Bool} (hrun : (portOf s (6 + r)).run = true) (hlate : isLate s stamp = false)
  (hstay : (portOf s (6 + r)).stopReq = false)
include hrun hlate hstay

/-- A preamble or code error loses lock. -/
theorem bprFrame_bad (hthere : r < s.h.aud.bpr.length) :
    ∃ q, PortIs (bprFrame r stamp pre true a b s) (6 + r) q ∧ q.lock = false ∧ q.good = 0 := by
  obtain ⟨p, hp, hstop⟩ := bprBlockEnd_stopReq (portIs_bpr hthere)
  obtain ⟨hthere', hq⟩ := (hp.of_ports (ports_bump (bprBlockEnd r s) (portBase (6 + r) + 8) 16 16 1)).loseLock
  obtain ⟨_, rfl⟩ := hp
  unfold bprFrame
  dsimp only
  rw [if_neg (by simp [hrun]), if_neg (by simp [hlate]), if_neg (by simp [hstop, hstay]), if_pos (by simp)]
  exact ⟨_, .set hthere' _, by rw [hq], rfl⟩

variable (hlock : (portOf s (6 + r)).lock = false)
include hlock

/-- The second block's preamble gives lock. -/
theorem bprFrame_locks (hthere : r < s.h.aud.bpr.length) (h : (portOf s (6 + r)).lastEdge.isSome = true ∧ (portOf s (6 + r)).good = 192) :
    ∃ q, PortIs (bprFrame r stamp true false a b s) (6 + r) q ∧ q.lock = true ∧ q.good = 1 ∧ q.frame = 1 ∧ q.blockAt = stamp := by
  obtain ⟨q, ⟨hthere', hq⟩, hqlock, hqat⟩ := bprTake_keeps a b (PortIs.set (portIs_bpr hthere).1 { portOf s (6 + r) with
    lock := true, good := 0, frame := 0, blockAt := stamp, whole := true, vseen := false, lastEdge := some stamp })
  unfold bprFrame
  dsimp only
  rw [if_neg (by simp [hrun]), if_neg (by simp [hlate]), bprBlockEnd_unlocked hlock, if_neg (by simp [hstay]), if_neg (by simp [hlock]),
    if_neg (by simp [hlock]), if_pos rfl, if_pos h]
  exact ⟨_, .set hthere' _, by rw [hq, hqlock], rfl, rfl, by rw [hq, hqat]⟩

/-- Any other preamble starts the count of a block's frames. -/
theorem bprFrame_counts (h : ¬ ((portOf s (6 + r)).lastEdge.isSome = true ∧ (portOf s (6 + r)).good = 192)) :
    bprFrame r stamp true false a b s = setPort (6 + r) { portOf s (6 + r) with lastEdge := some stamp, good := 1 } s := by
  unfold bprFrame
  dsimp only
  rw [if_neg (by simp [hrun]), if_neg (by simp [hlate]), bprBlockEnd_unlocked hlock, if_neg (by simp [hstay]), if_neg (by simp [hlock]),
    if_neg (by simp [hlock]), if_pos rfl, if_neg h]

end

/-- Settles O53: each event by the state of its port, each write by its effect. -/
theorem audioPortsKeepTheirFrames : Obligations.AudioPortsKeepTheirFrames := by
  unfold Obligations.AudioPortsKeepTheirFrames
  refine ⟨fun s n slots hn hrun hmaster => ⟨execTdmFrame_early hn hrun slots hmaster, execTdmFrame_due hn hrun slots hmaster⟩,
    fun s n stamp clocks before hn hrun hslave hlate hedge hclocks hthere => ?wrongEdge,
    fun s n stamp clocks before hn hrun hslave hlate hedge hclocks hgood hlock hstamps hthere => ?firstEdge,
    fun s o n hn ho hfs => congrArg Host.Outcome.next (masterRead_bst0 hn ho hfs s), fun s o n v hn hp => ?tdmctl,
    fun s o x user hx hp => ?commit, fun s x hx hrun hdue => execBptFrame_due hx hrun hdue,
    fun s r hr hlock hwhole hgood hthere => ?blockEnd, fun s r stamp pre bad a b hr hrun hlate hthere => ?frame⟩
  case wrongEdge =>
    obtain ⟨q, hq, hlock, hframe, hlast⟩ := tdmEdge_wrong hn hrun hslave hlate hedge hthere hclocks
    obtain ⟨w, _, hw⟩ := slaveEdge_unlocked hq hlock
    exact ⟨_, congrArg Host.Outcome.next (if_pos hn), by rw [hw]; exact hlock, by rw [hw]; exact hframe, by rw [hw]; exact hlast⟩
  case firstEdge =>
    rw [← bit_testBit] at hstamps
    obtain ⟨q, hq, hunlocked, hone, hframe, hlast⟩ := tdmEdge_first hn hrun hslave hlate hedge hthere hclocks hgood hlock hstamps
    obtain ⟨w, _, hw⟩ := slaveEdge_unlocked hq hunlocked
    exact ⟨_, congrArg Host.Outcome.next (if_pos hn), by rw [hw]; exact hunlocked, by rw [hw]; exact hone, by rw [hw]; exact hframe,
      by rw [hw]; exact hlast⟩
  case tdmctl =>
    exact ⟨_, rfl, masterWrite_changes s o _ v.toNat (fun old => portEnable n (bit old 0) (bit v.toNat 0)) hp v.isLt
      (storesElsewhere_aud (by omega) (by omega)) (beforeWrite_below (by omega) · v.toNat) (regEffect_tdmctl hn o · v.toNat)⟩
  case commit =>
    have hwritten := masterWrite_changes s o _ (commitWord (reg s (0x500400 + 0x100 * x)) user)
      (fun old u => bptCommit x user (portEnable (4 + x) (bit old 0) (bit (reg s (0x500400 + 0x100 * x)) 0) u)) hp (commitWord_lt _ _)
      (storesElsewhere_aud (by omega) (by omega)) (beforeWrite_below (by omega) · _) (regEffect_commitWord hx o _ user)
    cases user with
    | false => exact ⟨_, rfl, hwritten⟩
    | true => exact ⟨_, rfl, hwritten⟩
  case blockEnd =>
    obtain ⟨x1, x2, x3, _, hq⟩ := bprBlockEnd_whole (portIs_bpr hthere) hlock hwhole hgood
    exact ⟨_, congrArg Host.Outcome.next (if_pos hr), by rw [hq], by rw [hq], by rw [hq], by rw [hq]⟩
  case frame =>
    refine ⟨fun hbad hstay => ?_, fun hbad hlock hstay hpre hlast hgood => ?_, fun hbad hlock hstay hpre hcounts => ?_⟩
    all_goals subst hbad
    · obtain ⟨q, ⟨_, hq⟩, hlock, hgood⟩ := bprFrame_bad (pre := pre) (a := a) (b := b) hrun hlate hstay hthere
      exact ⟨_, congrArg Host.Outcome.next (if_pos hr), by rw [hq, hlock], by rw [hq, hgood]⟩
    · subst hpre
      obtain ⟨q, ⟨_, hq⟩, hlocked, hone, hframe, hat⟩ := bprFrame_locks (a := a) (b := b) hrun hlate hstay hlock hthere ⟨hlast, hgood⟩
      exact ⟨_, congrArg Host.Outcome.next (if_pos hr), by rw [hq, hlocked], by rw [hq, hone], by rw [hq, hframe], by rw [hq, hat]⟩
    · subst hpre
      exact congrArg Host.Outcome.next ((if_pos hr).trans (bprFrame_counts hrun hlate hstay hlock hcounts))

end Sys2Proof.Laws
end

section
/-! AAF endpoints, record gains and biquad commits (O54). -/

namespace Sys2Proof.Laws

open Sys2Proof Sys2Proof.Machine

/-! ## Talkers (R709, R710) -/

section
variable {s : State} {e : Nat}

/-- A talker with SPP sample frames gathered emits its PDU. -/
theorem talkerPdu_gathered (htalk : (epOf s e).talk = true) (hready : max 1 (fmtSpp (epFmt s e)) ≤ (epOf s e).gather.length) :
    talkerPdu e s =
      let x := epOf s e
      let spp := max 1 (fmtSpp (epFmt s e))
      let at_ := (x.nextI - x.gather.length + spp) * 1000000000 / fmtRate (epFmt s e)
      submitAt (56 + e) at_ at_ 2 3
        (talkerBody s e x (match x.gather.take spp with | p :: _ => p.1 | [] => 0)
          ((x.gather.take spp).flatMap (fun p => p.2.flatMap (fun w => (be 4 w.toNat).take (fmtBytes (epFmt s e))))))
        false 0 (bump (setEp e { x with gather := x.gather.drop spp, seqNo := (x.seqNo + 1) % 256 } s) (epReg e 0x34) 0 16 1) :=
  if_neg (by rw [htalk, decide_eq_false (Nat.not_lt.mpr hready)]; decide)

theorem talkerPdu_waits (h : (epOf s e).talk = false ∨ (epOf s e).gather.length < max 1 (fmtSpp (epFmt s e))) : talkerPdu e s = s := by
  refine if_pos ?_
  rw [Bool.or_eq_true, Bool.not_eq_true', decide_eq_true_iff]
  exact h

end

/-! ## Listeners (R711 to R713) -/

/-- What a listener does with a PDU as it is judged; all but a mismatch note its sequence number. -/
def takePdu (e : Nat) (f : Frame) (u : State) : State :=
  let note := fun (w : State) => setEp e { epOf w e with lastSeq := some (fieldLE (avtpOf f.bytes) 2 1) } w
  match judgePdu u e f.bytes ((tickOf f.pres + 1) * 8) with
  | .mismatch => bump u (epReg e 0x38) 0 16 1
  | .late => note (bump u (epReg e 0x3C) 0 16 1)
  | .order => note (bump u (epReg e 0x40) 16 16 1)
  | .ovf => note (bump u (epReg e 0x3C) 16 16 1)
  | .taken fr gap =>
    let w := bump (if gap then bump u (epReg e 0x38) 16 16 1 else u) (epReg e 0x34) 16 16 1
    note (setEp e { epOf w e with queue := (epOf w e).queue ++ fr } w)

theorem execAafListenerTake_head {s u : State} {e : Nat} {f : Frame} (he : e < 8) (h : takeHead s (56 + e) = some (f, u)) :
    exec (.aafListenerTake e) s = .next (takePdu e f u) := by
  refine congrArg Host.Outcome.next ((if_pos he).trans ?_)
  unfold listenerTake
  rw [h]
  rfl

/-- A listener left without a sample frame for two periods falls silent. -/
theorem listenerUnder_due {s : State} {e t : Nat} {w : List Word} {r : List (Nat × List Word)} (hshown : (epOf s e).shown = (t, w) :: r)
    (hsound : (epOf s e).silent = false) (hlisten : bit (reg s (epReg e 0)) 1 = true)
    (hdue : t * fmtRate (epFmt s e) + 2000000000 ≤ s.time.now * fmtRate (epFmt s e)) :
    listenerUnder e s = setEp e { epOf s e with silent := true, shown := [] } (bump s (epReg e 0x40) 0 16 1) := by
  unfold listenerUnder
  dsimp only
  rw [hshown]
  exact if_neg (by simp [hsound, hlisten, hdue])

/-! ## Record gains (R729) -/

theorem beforeWrite_gain {r : Nat} (hr : r < 1024) (old v : Nat) (u : State) :
    beforeWrite (0x502000 + 4 * r) old v u = setGain r (v % 2 ^ 16) u := by
  unfold beforeWrite
  rw [if_pos (by omega), show (0x502000 + 4 * r - 0x502000) / 4 = r by omega]

/-- A gain register sets nothing off beside the ramp from the gain in force. -/
theorem regEffect_gain {r : Nat} (hr : r < 1024) (fs : Bool) (o : Origin) (old v : Nat) (u : State) :
    regEffect fs o (0x502000 + 4 * r) old v u = u := by
  rw [regEffect_aud (by omega) (by omega)]
  unfold effectAud
  repeat rw [if_neg (by omega)]

theorem masterWrite_gain {s : State} {o : Origin} {r v : Nat} (hr : r < 1024) (hp : passes s o (0x502000 + 4 * r) v) (hv : v < 2 ^ 32) :
    wrote s (fun u => stored false o (0x502000 + 4 * r) v (setGain r (v % 2 ^ 16) u)) (masterWrite o (0x502000 + 4 * r) v s) := by
  refine masterWrite_wrote s o _ v _ hp hv fun d u hd => ?_
  rw [regEffect_gain hr]
  unfold written stored
  dsimp only
  rw [storesElsewhere_aud (by omega) (by omega), if_neg Bool.false_ne_true, beforeWrite_gain hr, hd]

/-! ## Biquad commits (R735) -/

/-- The sections of the processing chains and of the analysers. -/
def bqSection (key : Nat) : Prop := key < 128 ∨ 0x1000 ≤ key ∧ key < 0x1080

theorem bqReg_range {key : Nat} (h : bqSection key) : 0x503000 ≤ bqReg key + 0x14 ∧ bqReg key + 0x14 < 0x508000 := by
  unfold bqSection at h
  unfold bqReg
  split <;> omega

/-- COMMIT is no coefficient: nothing is kept before its write. -/
theorem beforeWrite_bqCommit {key : Nat} (h : bqSection key) (old v : Nat) (u : State) : beforeWrite (bqReg key + 0x14) old v u = u := by
  have hoff : (bqReg key + 0x14) % 0x20 = 0x14 := by
    unfold bqReg
    split <;> omega
  obtain ⟨hlow, hhigh⟩ := bqReg_range h
  unfold beforeWrite
  rw [if_neg (by omega), if_neg (by omega), if_neg (by omega)]

theorem effectAud_bqCommit_chain {key : Nat} (h : key < 128) (old : Nat) (u : State) :
    effectAud (bqReg key + 0x14) old 1 u = bqCommit key u := by
  have ha : bqReg key + 0x14 = 0x503014 + 0x100 * (key / 8) + 0x20 * (key % 8) := by
    unfold bqReg
    rw [if_pos (by omega)]
    omega
  have hkey : bqKey ((bqReg key + 0x14 - 0x503000) / 0x100) ((bqReg key + 0x14 - 0x503000) % 0x100 / 0x20) = key := by
    unfold bqKey
    omega
  have hcommit : (bqReg key + 0x14) % 0x20 = 0x14 ∧ bit 1 0 = true := ⟨by omega, rfl⟩
  unfold effectAud
  iterate 11 rw [if_neg (by omega)]
  rw [if_pos (by omega), if_pos hcommit, hkey]

theorem effectAud_bqCommit_analyser {key : Nat} (hlow : 0x1000 ≤ key) (hhigh : key < 0x1080) (old : Nat) (u : State) :
    effectAud (bqReg key + 0x14) old 1 u = bqCommit key u := by
  have ha : bqReg key + 0x14 = 0x504054 + 0x400 * ((key - 0x1000) / 16) + 0x40 * ((key - 0x1000) % 16 / 2) + 0x20 * (key % 2) := by
    unfold bqReg
    rw [if_neg (by omega)]
    omega
  have hkey : baKey ((bqReg key + 0x14 - 0x504000) / 0x400) (((bqReg key + 0x14 - 0x504000) % 0x400 - 0x40) / 0x40)
      ((bqReg key + 0x14 - 0x504000) % 0x400 % 0x40 / 0x20) = key := by
    unfold baKey
    omega
  have hcommit : (bqReg key + 0x14 - 0x504000) % 0x400 % 0x20 = 0x14 ∧ bit 1 0 = true ∧ 0x40 ≤ (bqReg key + 0x14 - 0x504000) % 0x400 :=
    ⟨by omega, rfl, by omega⟩
  unfold effectAud
  iterate 11 rw [if_neg (by omega)]
  rw [if_neg (by omega), if_pos (by omega)]
  dsimp only
  rw [if_neg (by omega), if_pos hcommit, hkey]

theorem regEffect_bqCommit {key : Nat} (h : bqSection key) (o : Origin) (old : Nat) (u : State) :
    regEffect false o (bqReg key + 0x14) old 1 u = bqCommit key u := by
  obtain ⟨hlow, hhigh⟩ := bqReg_range h
  rw [regEffect_aud (by omega) (by omega)]
  obtain hchain | ⟨hlow, hhigh⟩ := h
  · exact effectAud_bqCommit_chain hchain old u
  · exact effectAud_bqCommit_analyser hlow hhigh old u

/-- Settles O54: a talker and a listener by the branch they stand in, the writes by their effect. -/
theorem aafEndpointsAndCoefficients : Obligations.AafEndpointsAndCoefficients := by
  unfold Obligations.AafEndpointsAndCoefficients
  refine ⟨fun s e he htalk hready => congrArg Host.Outcome.next ((if_pos he).trans (talkerPdu_gathered htalk hready)),
    fun s e he h => congrArg Host.Outcome.next ((if_pos he).trans (talkerPdu_waits h)), fun s u e f he h => ?take,
    fun s e t w r he hshown hsound hlisten hdue => ?underrun, fun s o r v hr hp => ⟨_, rfl, masterWrite_gain hr hp v.isLt⟩,
    fun s o key hkey hp => ?commit⟩
  case take =>
    intro note
    rw [execAafListenerTake_head he h, takePdu]
    generalize judgePdu u e f.bytes ((tickOf f.pres + 1) * 8) = judged
    cases judged <;> rfl
  case underrun =>
    rw [← bit_testBit] at hlisten
    exact congrArg Host.Outcome.next ((if_pos he).trans (listenerUnder_due hshown hsound hlisten hdue))
  case commit =>
    obtain ⟨hlow, hhigh⟩ := bqReg_range hkey
    exact ⟨_, rfl, masterWrite_stores s o _ 1 (bqCommit key) hp (by decide) (storesElsewhere_aud (by omega) hhigh)
      (beforeWrite_bqCommit hkey · 1) (regEffect_bqCommit hkey o)⟩

end Sys2Proof.Laws
end

section
/-! Audio outputs, inputs, detection, the limiter, the analysers and calibration (O55). -/

namespace Sys2Proof.Laws

open Sys2Proof Sys2Proof.Machine

/-! ## Output nodes (R738, R749) -/

section
variable {s : State} {n : Nat}

theorem outPrecharged_due (hst : (outOf s n).st = 2) (hdue : (outOf s n).at_ ≤ s.time.now) :
    outPrecharged n s = setOut n { outOf s n with st := 3, u := ⟨0, 4096, nextGraph s⟩ } s := if_pos ⟨hst, hdue⟩

theorem outRamped_due (hst : (outOf s n).st = 4) (hdue : (outOf s n).u.i0 + 256 ≤ s.h.aud.gi) : outRamped n s = outDischarge n s :=
  if_pos ⟨hst, hdue⟩

/-- A node discharged is off; only the speaker holds a leave. -/
theorem outDischarged_due (hst : (outOf s n).st = 5) (hdue : (outOf s n).at_ ≤ s.time.now) (honce : (outOf s n).again = false) :
    outDischarged n s = if n = 0 then giveLeave false 5 0 (setOut n { outOf s n with st := 0 } s) else setOut n { outOf s n with st := 0 } s := by
  unfold outDischarged
  dsimp only
  rw [if_pos ⟨hst, hdue⟩, if_neg (by simp [honce])]

/-- The state with VSPK noted as lost, where it is the speaker's fault. -/
def vspkNoted (n : Nat) (vspk : Bool) (s : State) : State := if vspk ∧ n = 0 then { s with sys.vspkOk := false } else s

theorem vspkNoted_h (n : Nat) (vspk : Bool) (s : State) : (vspkNoted n vspk s).h = s.h := by
  unfold vspkNoted
  split <;> rfl

theorem outOf_congr {s t : State} (h : t.h.aud = s.h.aud) (n : Nat) : outOf t n = outOf s n := by
  unfold outOf
  rw [h]

theorem setOut_cal (n : Nat) (o : AOut) (s : State) : (setOut n o s).h.aud.cal = s.h.aud.cal := by
  unfold setOut
  split <;> rfl

theorem dropLeave_aud (field : Bool) (k i : Nat) (s : State) : (dropLeave field k i s).h.aud = s.h.aud := by
  obtain ⟨a1, a2, e⟩ := dropLeave_shape field k i s
  rw [e]

theorem giveLeave_aud (field : Bool) (k i : Nat) (s : State) : (giveLeave field k i s).h.aud = s.h.aud := by
  obtain ⟨a1, a2, e⟩ := giveLeave_shape field k i s
  rw [e]

theorem raise_aud (src detail : Nat) (s : State) : (raise src detail s).h.aud = s.h.aud := by
  obtain ⟨p1, p2, e⟩ := raise_shape src detail s
  rw [e]

/-- A fault with VSPK noted and no calibration under way stops its node, where it is on, and raises its source. -/
theorem outFault_noted (hcal : s.h.aud.cal = none) :
    outFault n false s =
      if (outOf s n).st = 0 then s
      else raise (0x66 + n) 0 (setOut n { outOf s n with st := 6, cause := true, again := false, u := ⟨0, 0, 0⟩ }
        (if n = 0 ∧ (outOf s n).st = 1 then dropLeave false 5 0 s else s)) := by
  have hdropped : (if n = 0 ∧ (outOf s n).st = 1 then dropLeave false 5 0 s else s).h.aud.cal = none := by
    split
    · rw [dropLeave_aud, hcal]
    · exact hcal
  have hnoted : ¬ (false = true ∧ n = 0) := fun h => Bool.noConfusion h.1
  unfold outFault
  dsimp only
  rw [if_neg hnoted]
  split
  · rfl
  · rw [raise_aud, setOut_cal, hdropped]

theorem outFault_noCal (vspk : Bool) (hcal : s.h.aud.cal = none) :
    outFault n vspk s =
      let w := vspkNoted n vspk s
      if (outOf s n).st = 0 then w
      else raise (0x66 + n) 0 (setOut n { outOf s n with st := 6, cause := true, again := false, u := ⟨0, 0, 0⟩ }
        (if n = 0 ∧ (outOf s n).st = 1 then dropLeave false 5 0 w else w)) := by
  have hout : outOf (vspkNoted n vspk s) n = outOf s n := outOf_congr (by rw [vspkNoted_h]) n
  have hnoted : outFault n vspk s = outFault n false (vspkNoted n vspk s) := by
    unfold outFault vspkNoted
    rw [if_neg (c := false = true ∧ n = 0) (by simp)]
  rw [hnoted, outFault_noted (by rw [vspkNoted_h, hcal]), hout]

/-- A node of the line outputs put stands as it was put. -/
theorem outOf_setOut_dac (hn : n ≠ 0) (hthere : n - 1 < s.h.aud.dac.length) (o : AOut) : outOf (setOut n o s) n = o := by
  unfold outOf setOut
  rw [if_neg hn, if_neg hn]
  exact nth_set_same hthere _ _

/-- A line output whose fault has cleared goes off where its EN is 0, and waits for EN otherwise. -/
theorem causeCleared_dac (hn : n ≠ 0) (hthere : n - 1 < s.h.aud.dac.length) (hst : (outOf s n).st = 6) :
    let t := causeCleared n false s
    (outOf t n).cause = false ∧ (outOf t n).st = if bit (reg s (outReg n)) 0 then 6 else 0 := by
  have hreg : reg (setOut n { outOf s n with cause := false } s) (outReg n) = reg s (outReg n) :=
    congrArg (fun rg => (RegFile.get rg (outReg n)).toNat) (setOut_regs ..)
  have hlen : (setOut n { outOf s n with cause := false } s).h.aud.dac.length = s.h.aud.dac.length := by
    unfold setOut
    rw [if_neg hn]
    exact List.length_set
  have hnoted : ¬ (false = true ∧ n = 0) := fun h => Bool.noConfusion h.1
  unfold causeCleared
  dsimp only at hreg ⊢
  rw [if_neg hnoted, hreg]
  cases hen : bit (reg s (outReg n)) 0 with
  | false =>
    rw [if_pos ⟨hst, rfl⟩, if_neg hn, outOf_setOut_dac hn (by rw [hlen]; exact hthere)]
    exact ⟨rfl, rfl⟩
  | true =>
    rw [if_neg (fun h => Bool.noConfusion h.2), outOf_setOut_dac hn hthere]
    exact ⟨rfl, hst⟩

end

/-! ## The limiter (R739, R740) -/

theorem limiterBlock_open {s : State} (h : s.h.aud.limCnt = 0 ∨ s.h.aud.gi % 48 ≠ 0) : limiterBlock s = s := if_pos h

/-- The coil's temperature model after a block. -/
def coilAfter (s : State) : Int :=
  s.h.aud.limTc + rdiv (rdiv ((s.h.aud.limE : Int) * (reg s 0x500E80 : Int)) (48 * 2 ^ 30) * (fieldOf s 0x500E84 0 16 : Int) -
    (s.h.aud.limTc - s.h.aud.limTm)) ((max 1 (reg s 0x500E88) : Nat) : Int)

theorem raise_where_aud (c : Prop) [Decidable c] (src detail : Nat) (s : State) : (if c then raise src detail s else s).h.aud = s.h.aud := by
  split
  · exact raise_aud ..
  · rfl

/-- A block's end starts the sums anew, moves the temperature and, above the rise allowed, lowers the gain. -/
theorem limiterBlock_end {s : State} (hsome : s.h.aud.limCnt ≠ 0) (hend : s.h.aud.gi % 48 = 0) :
    ∃ m g, (limiterBlock s).h.aud = { s.h.aud with limTc := coilAfter s, limTm := m, limG := g, limE := 0, limCnt := 0 } ∧
      ((reg s 0x500E90 : Int) ≤ coilAfter s → g = max (fieldOf s 0x500E94 16 16) (s.h.aud.limG - fieldOf s 0x500E98 0 16)) := by
  unfold limiterBlock
  dsimp only
  rw [if_neg (not_or.mpr ⟨hsome, not_not.mpr hend⟩)]
  exact ⟨_, _, raise_where_aud .., fun h => if_pos h⟩

/-! ## Inputs and detection (R737, R741, R742) -/

theorem inputSettled_at {s : State} {key since : Nat} (h : KMap.get? s.h.aud.inAt key = some since) :
    (since + 6000000 ≤ s.time.now → inputSettled key s = { s with h.aud.inAt := KMap.del s.h.aud.inAt key }) ∧
    (s.time.now < since + 6000000 → inputSettled key s = s) := by
  unfold inputSettled
  rw [h]
  exact ⟨fun hdue => if_pos hdue, fun hearly => if_neg (Nat.not_le.mpr hearly)⟩

section
variable {s : State} {n cls k : Nat} (hn : n < 4) (hbias : bit (reg s (0x500D00 + 0x10 * n)) 8 = true) (hall : s.h.aud.mic.length = 4)
  (hcls : cls < 8) (hmic : nth s.h.aud.mic n (0, 0) = (cls, k))
include hn hbias hall hcls hmic

/-- A further sample of the same class that is not the third reports nothing. -/
theorem micSample_counts (hk : k < 2 ∨ 2 < k) : micSample n cls s = { s with h.aud.mic := s.h.aud.mic.set n (cls, min 4 (k + 1)) } := by
  unfold micSample
  dsimp only
  rw [if_neg (by simp [hbias]; omega), if_pos hall, hmic, Nat.mod_eq_of_lt hcls]
  dsimp only
  rw [if_pos rfl, if_neg (by omega)]

/-- The third sample of a class in a row reports it. -/
theorem micSample_third (hk : k = 2) : micSample n cls s =
    let w := { s with h.aud.mic := s.h.aud.mic.set n (cls, 3), h.aud.det := KMap.put s.h.aud.det (3 + n) cls }
    if cls = 0 then w else raise (0x6C + n) 0 w := by
  subst hk
  unfold micSample
  dsimp only
  rw [if_neg (by simp [hbias]; omega), if_pos hall, hmic, Nat.mod_eq_of_lt hcls]
  dsimp only
  rw [if_pos rfl]
  exact if_pos rfl

end

theorem detectDone_due {s : State} {n cls r d : Nat} (h : KMap.get? s.h.aud.detBusy n = some d) (hdue : d ≤ s.time.now) :
    detectDone n cls r s =
      let w := { s with h.aud.detBusy := KMap.del s.h.aud.detBusy n, h.aud.det := KMap.put s.h.aud.det n (cls % 8),
                        h.aud.spkRes := if n = 0 then min r 0xFFFF else s.h.aud.spkRes }
      if cls % 8 = 0 then w else raise (0x69 + n) 0 w := by
  unfold detectDone
  rw [h]
  dsimp only
  rw [if_neg (Nat.not_lt.mpr hdue)]
  by_cases hn : n = 0
  · simp only [if_pos hn]
  · simp only [if_neg hn]

/-! ## Analysers and calibration (R745 to R747) -/

theorem bandClose_full {s : State} {a : Nat} {b : Band} (hb : s.h.aud.bands[a]? = some b) (hrun : b.run = true) (hsome : b.cnt ≠ 0)
    (hfull : b.win ≤ b.cnt) : bandClose a s = { s with
      h.aud.bandRec := KMap.put s.h.aud.bandRec a (bandRecord s a b (s.h.aud.gi - 1))
      h.aud.bandOut := s.h.aud.bandOut ++ [(tickOf (tau (s.h.aud.gi - 1)), bandRecord s a b (s.h.aud.gi - 1))]
      h.aud.bands := s.h.aud.bands.set a { b with cnt := 0, wseq := (b.wseq + 1) % 2 ^ 32, e := [], flags := 0 } } := by
  have hnth : nth s.h.aud.bands a ⟨false, 0, 0, 0, 0, [], 0, 0⟩ = b := by
    unfold nth
    rw [hb]
    rfl
  unfold bandClose
  dsimp only
  rw [hnth, if_neg (by simp [hrun]; omega)]

section
variable {s : State} {c : ACal} (hc : s.h.aud.cal = some c)
include hc

theorem calHeld_due (hphase : c.phase = 0) (hdue : c.at_ ≤ s.h.aud.gi) :
    calHeld s = askLeave false 6 (1 + c.node) s.time.now { s with h.aud.cal := some { c with phase := 1 } } := by
  unfold calHeld
  rw [hc]
  exact if_pos ⟨hphase, hdue⟩

/-- An unforced calibration ends with nothing to ramp back. -/
theorem audCalDone_due (hphase : c.phase = 2) (hdue : c.at_ ≤ s.time.now) (hquiet : c.forced = false) :
    audCalDone s = { giveLeave false 6 (1 + c.node) s with h.aud.cal := none, h.aud.calRes := 1 } := by
  have hgiven : (giveLeave false 6 (1 + c.node) s).h.aud.cal = some c := by rw [giveLeave_aud, hc]
  unfold audCalDone
  rw [hc]
  refine (if_pos ⟨hphase, hdue⟩).trans ?_
  unfold audCalEnd
  rw [hgiven]
  exact if_neg (by simp [hquiet])

end

/-! ## Register writes -/

/-- A write of DACCTL drives the sequence of its line output. -/
theorem regEffect_dacctl {n : Nat} (hn : n < 2) (o : Origin) (old v : Nat) (u : State) :
    regEffect false o (0x500E00 + 0x10 * n) old v u = outWrite (n + 1) (bit old 0) (bit v 0) u := by
  rw [regEffect_aud (by omega) (by omega)]
  obtain rfl | rfl : n = 0 ∨ n = 1 := by omega
  · rfl
  · rfl

/-- A write of one bit of DETCTL starts the measurement of a line output. -/
theorem regEffect_detectLine {n : Nat} (hn : n < 2) (o : Origin) (old : Nat) (u : State) :
    regEffect false o 0x500F00 old (2 * 2 ^ n) u = detectStart (n + 1) u := by
  rw [regEffect_aud (by decide) (by decide)]
  obtain rfl | rfl : n = 0 ∨ n = 1 := by omega
  · rfl
  · rfl

/-- Settles O55: each timed step by its branch, each write by its effect. -/
theorem audioNodesFollowTheirSequences : Obligations.AudioNodesFollowTheirSequences := by
  unfold Obligations.AudioNodesFollowTheirSequences
  refine ⟨fun s o v hp => ?spkctl, fun s o n v hn hp => ?dacctl,
    fun s n hn hst hdue => congrArg Host.Outcome.next ((if_pos hn).trans (outPrecharged_due hst hdue)),
    fun s n hn hst hdue => congrArg Host.Outcome.next ((if_pos hn).trans (outRamped_due hst hdue)),
    fun s n hn hst hdue honce => congrArg Host.Outcome.next ((if_pos hn).trans (outDischarged_due hst hdue honce)),
    fun s n vspk hn hcal => congrArg Host.Outcome.next ((if_pos hn).trans (outFault_noCal vspk hcal)),
    fun s n hpos hn hthere hst => ?cleared, fun s h => congrArg Host.Outcome.next (limiterBlock_open h),
    fun s hsome hend => ?limiter,
    fun s key since h => ⟨fun hdue => congrArg Host.Outcome.next ((inputSettled_at h).1 hdue),
      fun hearly => congrArg Host.Outcome.next ((inputSettled_at h).2 hearly)⟩,
    fun s n cls k hn hbias hall hcls hmic => ?mic, fun s o hp => ?detectSpeaker, fun s o n hn hp => ?detectLine,
    fun s n cls r d h hdue => congrArg Host.Outcome.next (detectDone_due h hdue),
    fun s a b hb hrun hsome hfull => congrArg Host.Outcome.next (bandClose_full hb hrun hsome hfull), fun s o v hp => ?calreq,
    fun s c hc => ⟨fun hphase hdue => congrArg Host.Outcome.next (calHeld_due hc hphase hdue),
      fun hphase hdue hquiet => congrArg Host.Outcome.next (audCalDone_due hc hphase hdue hquiet)⟩⟩
  case spkctl =>
    exact ⟨_, rfl, masterWrite_changes s o 0x500E40 v.toNat (fun old => outWrite 0 (bit old 0) (bit v.toNat 0)) hp v.isLt rfl
      (beforeWrite_below (by decide) · v.toNat) (fun _ _ => rfl)⟩
  case dacctl =>
    exact ⟨_, rfl, masterWrite_changes s o _ v.toNat (fun old => outWrite (n + 1) (bit old 0) (bit v.toNat 0)) hp v.isLt
      (storesElsewhere_aud (by omega) (by omega)) (beforeWrite_below (by omega) · v.toNat) (regEffect_dacctl hn o · v.toNat)⟩
  case cleared =>
    rw [← bit_testBit]
    exact ⟨_, congrArg Host.Outcome.next (if_pos hn), causeCleared_dac (Nat.pos_iff_ne_zero.mp hpos) hthere hst⟩
  case limiter =>
    obtain ⟨m, g, e, hgain⟩ := limiterBlock_end hsome hend
    refine ⟨_, rfl, ?_⟩
    rw [e]
    exact ⟨rfl, rfl, rfl, hgain⟩
  case mic =>
    rw [← bit_testBit] at hbias
    exact ⟨fun hk => congrArg Host.Outcome.next (micSample_counts hn hbias hall hcls hmic hk),
      fun hk => congrArg Host.Outcome.next (micSample_third hn hbias hall hcls hmic hk)⟩
  case detectSpeaker =>
    exact ⟨_, rfl, masterWrite_stores s o 0x500F00 1 (detectStart 0) hp (by decide) rfl (beforeWrite_below (by decide) · 1) (fun _ _ => rfl)⟩
  case detectLine =>
    have hword : 2 * 2 ^ n < 2 ^ 32 := by
      obtain rfl | rfl : n = 0 ∨ n = 1 := by omega
      · decide
      · decide
    have hbit : n % 2 = n := Nat.mod_eq_of_lt hn
    exact ⟨_, congrArg (fun k => Host.Outcome.next (masterWrite o 0x500F00 (2 * 2 ^ k) s)) hbit,
      masterWrite_stores s o 0x500F00 (2 * 2 ^ n) (detectStart (n + 1)) hp hword rfl (beforeWrite_below (by decide) · _) (regEffect_detectLine hn o)⟩
  case calreq =>
    exact ⟨_, rfl, masterWrite_stores s o 0x500F40 v.toNat (audCalRequest (bits v.toNat 0 3) (bit v.toNat 8)) hp v.isLt rfl
      (beforeWrite_below (by decide) · v.toNat) (fun _ _ => rfl)⟩

end Sys2Proof.Laws
end

section
/-! The shed cycle, returns to service and the ageing map (O57). -/

namespace Sys2Proof.Laws

open Sys2Proof Sys2Proof.Machine

/-! ## Visits (R814 to R820) -/

/-- The kind whose controller a die's visits and returns stand in. -/
abbrev visitKey (field : Bool) : Nat := if field then 0x20 else 0

theorem repOf_congr {s t : State} (hh : t.h.rep = s.h.rep) (hf : t.f.rep = s.f.rep) (k : Nat) : repOf t k = repOf s k := by
  unfold repOf
  rw [hh, hf]

theorem repOf_askLeave (field : Bool) (k i : Nat) (st : Stamp) (s : State) (j : Nat) : repOf (askLeave field k i st s) j = repOf s j := by
  obtain ⟨a1, a2, e⟩ := askLeave_shape field k i st s
  rw [e]
  exact repOf_congr rfl rfl j

section
variable {s : State} {field : Bool}

/-- A visit that is due starts: its duty is noted, and leave or a calibration is asked for. -/
theorem visitStart_due {d : Nat} (hon : bit (reg s 0x60004) 0 = true) (hmode : if field then s.f.state = .frun else s.sys.mode.live = true)
    (hfree : (repOf s (visitKey field)).visit = none)
    (hdue : (repOf s (visitKey field)).lastEnd + fieldOf s 0x60004 4 12 * 1000000 ≤ dieNow s field) (hnext : nextVisit s field = some d) :
    repOf (visitStart field s) (visitKey field) = { repOf s (visitKey field) with
      visit := some ⟨d / 256, d % 256, 1, 0, 0, 0⟩, shedKind := d / 256, shedDuty := d % 256, asked := none
      rotation := if (repOf s (visitKey field)).asked = some (d / 256, d % 256) then (repOf s (visitKey field)).rotation else d } := by
  have hruns : (if field then s.f.state == .frun else s.sys.mode.live) = true := by
    cases field with
    | false => exact hmode
    | true => exact beq_iff_eq.mpr hmode
  unfold visitStart
  dsimp only at hfree hdue ⊢
  rw [if_neg (by rw [hon, hruns, hfree, decide_eq_true hdue]; decide), hnext]
  dsimp only
  split
  · exact (repOf_congr rfl rfl _).trans (repOf_setRep ..)
  · exact (repOf_askLeave ..).trans (repOf_setRep ..)

variable {v : Visit} (hv : (repOf s (visitKey field)).visit = some v)
include hv

theorem shadowEnd_first (hstep : v.step = 2) (hdue : v.shadowEnd ≤ tickOf (dieNow s field)) :
    shadowEnd field s = setVisit field { v with step := 3 } s := by
  unfold shadowEnd
  dsimp only
  rw [hv]
  exact if_pos ⟨hstep, hdue⟩

theorem shadowEnd_second (hstep : v.step = 5) (hdue : v.shadowEnd ≤ tickOf (dieNow s field)) :
    shadowEnd field s = setVisit field { v with step := 6 } s := by
  unfold shadowEnd
  dsimp only
  rw [hv]
  dsimp only
  rw [if_neg (by omega)]
  exact if_pos ⟨hstep, hdue⟩

theorem visitHandover_point {old : Nat} (hstep : v.step = 3) (hpoint : handoverPoint s (v.kind * 256 + v.duty) = true)
    (hserving : servingIsland s (v.kind * 256 + v.duty) = some old) :
    visitHandover field s = setVisit field { v with step := 4, freed := old } (handDuty (v.kind * 256 + v.duty) old v.spare 6 s) := by
  unfold visitHandover
  rw [hv]
  dsimp only
  rw [if_neg (by simp [hstep, hpoint]), hserving]

/-- The self-test of a freed island ends. -/
theorem selftestDone_visit (pass : Bool) (hstep : v.step = 4) :
    selftestDone field pass s =
      if !pass then endVisit field v.kind (raise (checkSrc v.kind) v.duty (markDefective v.freed 2 s))
      else if noShadow v.kind then setVisit field { v with step := 6 } s
      else setVisit field { v with step := 5, shadowEnd := tickOf (dieNow s field) + shadowTicks s } (setIsland v.freed ⟨5, v.duty, 0⟩ s) := by
  unfold selftestDone
  dsimp only
  rw [hv]
  exact if_neg (not_not.mpr hstep)

theorem visitHandback_point (hstep : v.step = 6) (hpoint : handoverPoint s (v.kind * 256 + v.duty) = true) :
    visitHandback field s = endVisit field v.kind (handDuty (v.kind * 256 + v.duty) v.spare v.freed 1 s) := by
  unfold visitHandback
  rw [hv]
  exact if_neg (by simp [hstep, hpoint])

theorem visitDefer_due (hstep : v.step = 3 ∨ v.step = 6) (hdue : v.shadowEnd + msTicks (fieldOf s 0x60004 16 8) ≤ tickOf (dieNow s field)) :
    visitDefer field s = endVisit field v.kind (bump (setIsland (if v.step = 3 then v.spare else v.freed) ⟨1, 0xFF, 0⟩ s) 0x60020 16 8 1) := by
  unfold visitDefer
  rw [hv]
  exact if_pos ⟨hstep, hdue⟩

end

/-! ## Returns (R821 to R823) -/

section
variable {s : State} {field : Bool} {v : Visit} (hv : (repOf s (visitKey field)).ret = some v) (hstep : v.step = 6)
include hv hstep

/-- The returning island takes its duty back from the spare. -/
theorem returnComplete_back (hspare : v.spare ≠ 0) (hpoint : handoverPoint s (v.kind * 256 + v.duty) = true) :
    returnComplete field s = endReturn field v.kind 1 (handDuty (v.kind * 256 + v.duty) v.spare v.freed 1 s) := by
  unfold returnComplete
  rw [hv]
  dsimp only
  rw [if_neg (not_not.mpr hstep), if_pos hspare, if_pos hpoint]

/-- With every duty of its kind in service, a returning island without a duty stands in reserve. -/
theorem returnComplete_reserve (hspare : v.spare = 0) (hserved : ∀ d ∈ (repOf s v.kind).out, d / 256 ≠ v.kind) :
    returnComplete field s = endReturn field v.kind 1 s := by
  have hnone : (repOf s v.kind).out.filter (fun d => d / 256 == v.kind) = [] :=
    List.filter_eq_nil_iff.mpr fun d hd => by simpa using hserved d hd
  unfold returnComplete
  rw [hv]
  dsimp only
  rw [if_neg (not_not.mpr hstep), if_neg (not_not.mpr hspare), hnone]
  rfl

end

/-! ## Register writes (R810, R821) -/

theorem regEffect_shedreq {o : Origin} {v : Nat} (hgo : bit v 16 = true) (old : Nat) (u : State) :
    regEffect false o 0x60008 old v u = shedRequest (bits v 0 8) (bits v 8 8) u := by
  have heffect : regEffect false o 0x60008 old v u = if bit v 16 then shedRequest (bits v 0 8) (bits v 8 8) u else u := rfl
  rw [heffect, if_pos hgo]

theorem regEffect_retctl {o : Origin} {v : Nat} (hgo : bit v 16 = true) (old : Nat) (u : State) :
    regEffect false o 0x6000C old v u = returnStart (bits v 0 8 * 256 + bits v 8 8) u := by
  have heffect : regEffect false o 0x6000C old v u = if bit v 16 then returnStart (bits v 0 8 * 256 + bits v 8 8) u else u := rfl
  rw [heffect, if_pos hgo]

/-- Only an update message writes AGECLR (R810). -/
theorem ageclr_writer {s : State} {o : Origin} {v : Nat} (hp : passes s o 0x60044 v) : o = .updateMsg := by
  obtain ⟨d, hd⟩ := regAt_of_passes hp
  obtain ⟨hmaster, _, _, _, hstatus⟩ := hp
  by_contra hother
  have hdenied : deniedWrite s false o d 0x60044 v = true := by simp [deniedWrite, soleWriter, hother]
  simp [hostWriteStatus, hd, governed_of_busMaster o hmaster, hdenied] at hstatus

/-- Beside a write's effect, the ageing map stands. -/
theorem beside_ageing {A : List Nat} {s u : State} (h : beside A s u) : u.keeper.ageing = s.keeper.ageing := by
  obtain ⟨hu, _⟩ := h
  rw [hu]

/-- An entry of the ageing map cleared leaves every other entry. -/
theorem wrote_ageclr_others {s t : State} {o : Origin} {v : Nat}
    (h : wrote s (fun u => { stored false o 0x60044 v u with keeper.ageing := KMap.del u.keeper.ageing (bits v 0 6) }) t) :
    ∀ k, k ≠ bits v 0 6 → KMap.get? t.keeper.ageing k = KMap.get? s.keeper.ageing k := by
  obtain ⟨u, hu, ht⟩ := h
  intro k hk
  rw [ht]
  exact (get?_del_ne _ _ _ hk).trans (congrArg (KMap.get? · k) (beside_ageing hu))

/-- Settles O57: each step of a visit or return by its lemma, each write by its effect. -/
theorem visitsAndReturnsRunTheirSteps : Obligations.VisitsAndReturnsRunTheirSteps := by
  unfold Obligations.VisitsAndReturnsRunTheirSteps
  refine ⟨fun s field d hon hmode hfree hdue hnext _ _ => ?start, fun s field v hv => ⟨?shadow1, ?shadow2, ?handover, ?failed, ?unshadowed, ?shadowed,
    ?handback, ?deferred⟩, fun s o v hp => ?shedreq, fun s o v hp => ?retctl, fun s o v hp => ⟨ageclr_writer hp, ?ageclr⟩,
    fun s field v hv hstep => ⟨fun hspare hpoint => congrArg Host.Outcome.next (returnComplete_back hv hstep hspare hpoint),
      fun hspare hserved => congrArg Host.Outcome.next (returnComplete_reserve hv hstep hspare hserved)⟩⟩
  case start =>
    have hrep := visitStart_due hon hmode hfree hdue hnext
    exact ⟨_, rfl, congrArg Repair.visit hrep, congrArg Repair.asked hrep, (congrArg Repair.islands hrep).trans rfl⟩
  case shadow1 => exact fun hstep hdue => congrArg Host.Outcome.next (shadowEnd_first hv hstep hdue)
  case shadow2 => exact fun hstep hdue => congrArg Host.Outcome.next (shadowEnd_second hv hstep hdue)
  case handover => exact fun old hstep hpoint hserving => congrArg Host.Outcome.next (visitHandover_point hv hstep hpoint hserving)
  case failed => exact fun hstep => congrArg Host.Outcome.next (selftestDone_visit hv false hstep)
  case unshadowed =>
    exact fun hstep hplain => congrArg Host.Outcome.next ((selftestDone_visit hv true hstep).trans ((if_neg Bool.false_ne_true).trans (if_pos hplain)))
  case shadowed =>
    exact fun hstep hshadow => congrArg Host.Outcome.next ((selftestDone_visit hv true hstep).trans
      ((if_neg Bool.false_ne_true).trans (if_neg (by simp [hshadow]))))
  case handback => exact fun hstep hpoint => congrArg Host.Outcome.next (visitHandback_point hv hstep hpoint)
  case deferred => exact fun hstep hdue => congrArg Host.Outcome.next (visitDefer_due hv hstep hdue)
  case shedreq =>
    exact ⟨_, rfl, masterWrite_stores s o 0x60008 (forced v 16 1 1) (shedRequest (bits (forced v 16 1 1) 0 8) (bits (forced v 16 1 1) 8 8)) hp
      (putBits_lt _ _ _ _ v.isLt (by decide)) rfl (beforeWrite_below (by decide) · _) (regEffect_shedreq (bit_forced v 16))⟩
  case retctl =>
    exact ⟨_, rfl, masterWrite_stores s o 0x6000C (forced v 16 1 1) (returnStart (bits (forced v 16 1 1) 0 8 * 256 + bits (forced v 16 1 1) 8 8)) hp
      (putBits_lt _ _ _ _ v.isLt (by decide)) rfl (beforeWrite_below (by decide) · _) (regEffect_retctl (bit_forced v 16))⟩
  case ageclr =>
    have hwritten := masterWrite_stores s o 0x60044 v.toNat
      (fun u => { u with keeper.ageing := KMap.del u.keeper.ageing (bits v.toNat 0 6) }) hp v.isLt rfl (fun _ _ => rfl) (fun _ _ => rfl)
    have hcleared := wrote_congr hwritten (G' := fun u => { stored false o 0x60044 v.toNat u with keeper.ageing := KMap.del u.keeper.ageing (bits v.toNat 0 6) })
      fun u _ => by
        obtain ⟨rg, e⟩ := stored_shape false o 0x60044 v.toNat u
        rw [e]
    exact ⟨_, rfl, hcleared, wrote_ageclr_others hcleared⟩

end Sys2Proof.Laws
end

section
/-! The budget arbiters (O58): the first waiting request granted where it fits, and one past its TIMEOUT refused. -/

namespace Sys2Proof.Laws

open Sys2Proof Sys2Proof.Machine

section
variable {s : State} {field : Bool}

/-! ## A grant (R845 step 3) -/

/-- The units that a grant of a kind is charged: a shared kind is charged once. -/
def chargeOf (s : State) (field : Bool) (k : Nat) : Nat :=
  if budShared field k && (arbOf s field).held.any (fun x => x.kind == k) then 0 else budCost s field k

/-- An arbiter with a waiting request granted at a charge. -/
def grantedArb (a : Arbiter) (b : Bud) (c : Nat) : Arbiter :=
  { a with q := a.q.filter (fun x => !(x.kind == b.kind && x.inst == b.inst)), held := a.held ++ [{ b with charge := c }] }

theorem inUse_grantedArb (a : Arbiter) (b : Bud) (c : Nat) : inUse (grantedArb a b c) = inUse a + c := by
  unfold inUse grantedArb
  rw [List.foldl_append]
  rfl

theorem arbOf_setArb (a : Arbiter) (s : State) : arbOf (setArb field a s) field = a := by
  cases field <;> rfl

theorem arbOf_setReg (s : State) (a v : Nat) : arbOf (setReg s a v) field = arbOf s field := rfl

theorem arbOf_bump (s : State) (a lo w n : Nat) : arbOf (bump s a lo w n) field = arbOf s field := rfl

theorem arbOf_notePeak (s : State) : arbOf (notePeak field s) field = arbOf s field := by
  unfold notePeak
  split
  · rfl
  · split
    · exact arbOf_setReg ..
    · rfl

variable {b : Bud} {r : List Bud}
  (hfirst : sortBy (budKey s field) ((arbOf s field).q.filter (fun x => decide (tickOf x.stamp ≤ budTick s field))) = b :: r)
include hfirst

theorem budGrantOne_over (hover : budLimit s field < inUse (arbOf s field) + chargeOf s field b.kind) : budGrantOne field s = none := by
  unfold budGrantOne
  dsimp only
  rw [hfirst]
  exact if_pos hover

/-- The first request in order is granted where it fits: it is charged, and counted. -/
theorem budGrantOne_fits (hfits : inUse (arbOf s field) + chargeOf s field b.kind ≤ budLimit s field) :
    ∃ u, budGrantOne field s = some (b, u) ∧ arbOf u field = grantedArb (arbOf s field) b (chargeOf s field b.kind) := by
  let w := notePeak field (bump (setArb field (grantedArb (arbOf s field) b (chargeOf s field b.kind)) s) (budCnt field) 0 16 1)
  have hw : arbOf w field = grantedArb (arbOf s field) b (chargeOf s field b.kind) :=
    (arbOf_notePeak _).trans ((arbOf_bump ..).trans (arbOf_setArb _ s))
  let us := (dieNow w field - b.stamp) / 1000
  refine ⟨if !field && decide (reg w 0x2003C < us) then setReg w 0x2003C (min us 0xFFFFFFFF) else w, ?_, ?_⟩
  · unfold budGrantOne
    dsimp only
    rw [hfirst]
    exact if_neg (Nat.not_lt.mpr hfits)
  · split
    · exact (arbOf_setReg ..).trans hw
    · exact hw

end

/-! ## The events of an arbiter -/

section
variable {s : State} {field : Bool} (hon : arbiterOn s field = true)
include hon

theorem execBudgetGrant_none (h : budGrantOne field s = none) : exec (.budgetGrant field) s = .next s := by
  show execBudgetGrant field s = _
  unfold execBudgetGrant
  rw [if_neg (by simp [hon]), h]

theorem execBudgetGrant_some {b : Bud} {u : State} (h : budGrantOne field s = some (b, u)) :
    exec (.budgetGrant field) s = .next (if field then fieldGranted b u else hostGranted b u) := by
  show execBudgetGrant field s = _
  unfold execBudgetGrant
  rw [if_neg (by simp [hon]), h]

theorem execBudgetTimeout_none (h : budTimeoutOne field s = none) : exec (.budgetTimeout field) s = .next s := by
  show execBudgetTimeout field s = _
  unfold execBudgetTimeout
  rw [if_neg (by simp [hon]), h]

theorem execBudgetTimeout_some {b : Bud} {u : State} (h : budTimeoutOne field s = some (b, u)) :
    exec (.budgetTimeout field) s = .next (if field then fieldTimedOut b u else hostTimedOut b u) := by
  show execBudgetTimeout field s = _
  unfold execBudgetTimeout
  rw [if_neg (by simp [hon]), h]

end

/-- A request past its TIMEOUT is taken from the queue and counted (R845 step 2). -/
theorem budTimeoutOne_expired {s : State} {field : Bool} {b : Bud} (h : (arbOf s field).q.find? (budExpired s field (budTick s field)) = some b) :
    budTimeoutOne field s = some (b, bump (setArb field { arbOf s field with
      q := (arbOf s field).q.filter (fun x => !(x.kind == b.kind && x.inst == b.inst)) } s) (budCnt field) 16 16 1) := by
  unfold budTimeoutOne
  dsimp only
  rw [h]

/-- With no request waiting, an arbiter neither grants nor refuses. -/
theorem bud_idle {s : State} {field : Bool} (h : (arbOf s field).q = []) : budGrantOne field s = none ∧ budTimeoutOne field s = none := by
  unfold budGrantOne budTimeoutOne
  dsimp only
  rw [h]
  exact ⟨rfl, rfl⟩

/-- Settles O58: a grant and a refusal each by the request they concern. -/
theorem budgetArbitersGrantAndRefuse : Obligations.BudgetArbitersGrantAndRefuse := by
  unfold Obligations.BudgetArbitersGrantAndRefuse
  refine ⟨fun s field b r hon hfirst => ⟨fun hover => execBudgetGrant_none hon (budGrantOne_over hfirst hover), fun hfits => ?fits⟩,
    fun s field b hon h => execBudgetTimeout_some hon (budTimeoutOne_expired h), fun s field hon h => ?idle⟩
  case fits =>
    obtain ⟨u, hu, harb⟩ := budGrantOne_fits hfirst hfits
    have hused : inUse (arbOf u field) = inUse (arbOf s field) + chargeOf s field b.kind := by rw [harb, inUse_grantedArb]
    exact ⟨u, execBudgetGrant_some hon hu, harb, hused, hused ▸ hfits⟩
  case idle =>
    obtain ⟨hgrant, htimeout⟩ := bud_idle h
    exact ⟨execBudgetGrant_none hon hgrant, execBudgetTimeout_none hon htimeout⟩

end Sys2Proof.Laws
end

section
/-! Debug access (O59, O60): the TAP's instructions, tokens and sessions, run control, and the accesses of a session. -/

namespace Sys2Proof.Laws

open Sys2Proof Sys2Proof.Machine

/-! ## Instructions of the TAP (R859, R860) -/

section
variable {s : State}

/-- EXTEST under its grant drives the pins and asserts the hold line. -/
theorem tapExtest_granted (pins : Bytes) (hopen : s.h.dbg.open_ = true) (hgrant : bit s.h.dbg.grant 4 = true) :
    tapExtest pins s = modePins { s with h.dbg.ir := 0, h.dbg.extest := true, h.dbg.bsr := pins } :=
  if_pos (by simp [hopen, hgrant])

/-- EXTEST without its grant acts as BYPASS. -/
theorem tapExtest_ungranted (pins : Bytes) (h : ¬ (s.h.dbg.open_ = true ∧ bit s.h.dbg.grant 4 = true)) :
    tapExtest pins s = { s with h.dbg.ir := 0, h.dbg.dr := 0 } :=
  if_neg (by simpa using h)

theorem modePins_holdLine_extest (h : s.h.dbg.extest = true) : (modePins s).sys.holdLine = true := by
  simp [modePins, h]

/-- Leaving EXTEST resets the host die, where EXTEST drove the pins. -/
theorem tapLeave_driven (ir : Nat) (h : s.h.dbg.extest = true) :
    tapLeave ir s = { dropFieldDebug (hostReset causeHostCmd { s with h.dbg.extest := false }) with h.dbg.ir := ir % 32 } := if_pos h

/-- A reset is taken alike whatever the TAP's instruction register then holds, and whether or not EXTEST drove the pins before. -/
theorem resetTaken_of_extest {t : State} {cause : Nat} (ir : Nat) (h : resetTaken cause { s with h.dbg.extest := false } t) :
    resetTaken cause s { t with h.dbg.ir := ir } := h

theorem tapLeave_reset (ir : Nat) (h : s.h.dbg.extest = true) (hin : s.sys.inReset = none) : resetTaken 4 s (tapLeave ir s) := by
  rw [tapLeave_driven ir h]
  exact resetTaken_of_extest (ir % 32) (resetTaken_hostReset 4 { s with h.dbg.extest := false } hin)

/-- Outside EXTEST an instruction is loaded with what its data register captures. -/
theorem tapLoad_loaded (h : s.h.dbg.ir ≠ 0) (ir dr : Nat) : tapLoad ir dr s = { s with h.dbg.ir := ir, h.dbg.dr := dr } := by
  unfold tapLoad
  dsimp only
  rw [if_neg h]

theorem execTapBypass_loaded (h : s.h.dbg.ir ≠ 0) {c : Nat} (hfree : c ∉ [0x00, 0x01, 0x02, 0x10, 0x11, 0x12, 0x13]) (hc : c < 32) :
    exec (.tapBypass c) s = .next { s with h.dbg.ir := c, h.dbg.dr := 0 } := by
  have hcode : (if [0x00, 0x01, 0x02, 0x10, 0x11, 0x12, 0x13].contains (c % 32) then 0x1F else c % 32) = c := by
    rw [Nat.mod_eq_of_lt hc, if_neg (by simpa using hfree)]
  show Host.Outcome.next (tapLoad _ 0 s) = _
  rw [hcode, tapLoad_loaded h]

/-! ## DMI (R859, R861, R868) -/

section
variable (addr op data : Nat) (h : s.h.dbg.ir ≠ 0)
include h

theorem dmiRun_busy (hbusy : dbgBusy s = true) :
    dmiRun addr op data s = { s with h.dbg.ir := 0x11, h.dbg.dr := dmiAnswer addr data 3 } :=
  (if_pos hbusy).trans (tapLoad_loaded h ..)

variable (hfree : dbgBusy s = false)
include hfree

theorem dmiRun_closed (hclosed : s.h.dbg.open_ = false) :
    dmiRun addr op data s = { s with h.dbg.ir := 0x11, h.dbg.dr := dmiAnswer addr data 2 } :=
  (if_neg (by simp [hfree])).trans ((if_pos (by simp [hclosed])).trans (tapLoad_loaded h ..))

variable (hopen : s.h.dbg.open_ = true) (hreg : addr % 128 = 4) (hmp : bit addr 8 = false)
include hopen hreg hmp

/-- A write of data0 of the MP's module. -/
theorem dmiRun_writeData :
    dmiRun addr 2 data s = { s with h.dbg.datMp := data, h.dbg.ir := 0x11, h.dbg.dr := dmiAnswer addr data 0 } := by
  unfold dmiRun
  dsimp only
  rw [if_neg (by simp [hfree]), if_neg (by simp [hopen]), if_neg (by decide), if_pos rfl, hreg, hmp]
  exact tapLoad_loaded (s := { s with h.dbg.datMp := data }) h _ _

theorem dmiRun_readData :
    dmiRun addr 1 data s = { s with h.dbg.ir := 0x11, h.dbg.dr := dmiAnswer addr s.h.dbg.datMp 0 } := by
  unfold dmiRun
  dsimp only
  rw [if_neg (by simp [hfree]), if_neg (by simp [hopen]), if_pos rfl, hreg, hmp]
  exact tapLoad_loaded h _ _

end

/-! ## Tokens and sessions (R863 to R866) -/

/-- A session that is open ends: harts resume, buffers and DEBUG windows are cleared, and a challenge is drawn. -/
theorem endSession_open (hopen : s.h.dbg.open_ = true) : ∃ fr g ch, endSession s = { s with
    free := fr, h.sp.gens := g, h.dbg := { s.h.dbg with
      open_ := false, grant := 0, until_ := 0, haltMp := false, haltFs := false, progMp := List.replicate 8 0, progFs := List.replicate 8 0, chal := ch }
    h.port.windows := KMap.del s.h.port.windows 4, f.windows := KMap.del s.f.windows 4 } := by
  obtain ⟨fr, g, ch, e⟩ := newChallenge_shape { s with
    h.dbg.open_ := false, h.dbg.grant := 0, h.dbg.until_ := 0, h.dbg.haltMp := false, h.dbg.haltFs := false,
    h.dbg.progMp := List.replicate 8 0, h.dbg.progFs := List.replicate 8 0,
    h.port.windows := KMap.del s.h.port.windows 4, f.windows := KMap.del s.f.windows 4 }
  exact ⟨fr, g, ch, (if_neg (by simp [hopen])).trans e⟩

theorem nextId_assignOne (s : State) (j : SpJob) : (assignOne s j).h.sp.nextId = s.h.sp.nextId := by
  unfold assignOne
  split
  · rfl
  · dsimp only
    split
    · rfl
    · repeat' split
      all_goals rfl

theorem nextId_assignJobs (s : State) : (assignJobs s).h.sp.nextId = s.h.sp.nextId :=
  List.foldlRecOn _ assignOne (motive := fun t => t.h.sp.nextId = s.h.sp.nextId) rfl fun t ht j _ => (nextId_assignOne t j).trans ht

/-- A job placed takes the next number and leaves the debug state. -/
theorem placeJob_keeps (j : SpJob) (s : State) : (placeJob j s).h.dbg = s.h.dbg ∧ (placeJob j s).h.sp.nextId = s.h.sp.nextId + 1 := by
  obtain ⟨sp, arb, rg, e⟩ := spOnly_assignJobs { s with h.sp.nextId := s.h.sp.nextId + 1, h.sp.jobs := s.h.sp.jobs ++ [j] }
  refine ⟨?_, nextId_assignJobs _⟩
  unfold placeJob
  dsimp only
  rw [e]

section
variable {token : Bytes} (hfree : dbgBusy s = false)
include hfree

theorem tokenUpdate_end (hzero : padTo 256 token = List.replicate 256 0) : tokenUpdate token s = endSession s := by
  unfold tokenUpdate
  dsimp only
  rw [if_neg (by simp [hfree]), if_pos hzero]

variable (hsome : padTo 256 token ≠ List.replicate 256 0)
include hsome

/-- While a check is under way, or the block after a failed one, a token is not taken. -/
theorem tokenUpdate_blocked (h : s.h.dbg.token.isSome = true ∨ s.h.dbg.blockEnd.isSome = true) : tokenUpdate token s = s := by
  unfold tokenUpdate
  dsimp only
  rw [if_neg (by simp [hfree]), if_neg hsome, if_pos h]

/-- A token taken starts its check. -/
theorem tokenUpdate_starts (htoken : s.h.dbg.token = none) (hblock : s.h.dbg.blockEnd = none) :
    (tokenUpdate token s).h.dbg.token = some (padTo 256 token) ∧ (tokenUpdate token s).h.dbg.tokTick = curTick s ∧
    (tokenUpdate token s).h.sp.nextId = s.h.sp.nextId + 1 := by
  unfold tokenUpdate
  dsimp only
  rw [if_neg (by simp [hfree]), if_neg hsome, if_neg (by simp [htoken, hblock])]
  obtain ⟨hdbg, hid⟩ := placeJob_keeps ⟨s.h.sp.nextId, 6, s.time.now, 0, 0, 0, 0, 0, [], [],
    if (tokenEarly { s with h.dbg.token := some (padTo 256 token), h.dbg.tokTick := curTick s } (padTo 256 token)).isNone then 1 else 0,
    if (tokenEarly { s with h.dbg.token := some (padTo 256 token), h.dbg.tokTick := curTick s } (padTo 256 token)).isNone then 1 else 0,
    none, 0, 0, s.time.now, 1⟩ { s with h.dbg.token := some (padTo 256 token), h.dbg.tokTick := curTick s }
  exact ⟨congrArg Dbg.token hdbg, congrArg Dbg.tokTick hdbg, hid⟩

end

end

/-- Settles O59: each instruction by what it loads, and a token by what it starts. -/
theorem tapInstructionsLoadTheirRegisters : Obligations.TapInstructionsLoadTheirRegisters := by
  unfold Obligations.TapInstructionsLoadTheirRegisters
  refine ⟨fun s pins hopen hgrant => ?driven, fun s pins h => ?bypassed, fun s ir hir hext hin _ _ => ?left, fun s h => ⟨?idcode, ?sample, ?dtmcs,
    ?chal, ?bypass, fun c hfree hc => execTapBypass_loaded h hfree hc⟩, fun s addr op data h => ⟨?busy, ?closed, ?write, ?read⟩,
    fun s token h hfree => ⟨?ended, ?blocked, ?starts⟩⟩
  case driven =>
    rw [← bit_testBit] at hgrant
    refine ⟨_, congrArg Host.Outcome.next (tapExtest_granted pins hopen hgrant), rfl, rfl, rfl, modePins_holdLine_extest rfl, rfl, rfl⟩
  case bypassed =>
    rw [← bit_testBit] at h
    exact congrArg Host.Outcome.next (tapExtest_ungranted pins h)
  case left =>
    exact ⟨_, congrArg Host.Outcome.next (if_neg hir), by rw [tapLeave_driven ir hext], tapLeave_reset ir hext hin⟩
  case idcode => exact congrArg Host.Outcome.next (tapLoad_loaded h ..)
  case sample =>
    intro a b
    have hloaded : exec (.tapSamplePreload a b) s = .next { tapLoad 2 (leNat a) s with h.dbg.bsr := b } := rfl
    rw [hloaded, tapLoad_loaded h]
  case dtmcs => exact congrArg Host.Outcome.next (tapLoad_loaded h ..)
  case chal => exact congrArg Host.Outcome.next (tapLoad_loaded h ..)
  case bypass => exact execTapBypass_loaded h (by decide) (by decide)
  case busy => exact fun hbusy => congrArg Host.Outcome.next (dmiRun_busy addr op data h hbusy)
  case closed => exact fun hfree hclosed => congrArg Host.Outcome.next (dmiRun_closed addr op data h hfree hclosed)
  case write =>
    rintro hfree hopen rfl hreg hmp
    exact congrArg Host.Outcome.next (dmiRun_writeData addr data h hfree hopen hreg hmp)
  case read =>
    rintro hfree hopen rfl hreg hmp
    exact congrArg Host.Outcome.next (dmiRun_readData addr data h hfree hopen hreg hmp)
  all_goals
    have hupdated : exec (.tapDbgtoken token) s = .next (tokenUpdate token { s with h.dbg.ir := 0x13, h.dbg.dr := 0 }) :=
      congrArg (fun u => Host.Outcome.next (tokenUpdate token u)) (tapLoad_loaded h 0x13 0)
    rw [hupdated]
  case ended => exact fun hzero => congrArg Host.Outcome.next (tokenUpdate_end hfree hzero)
  case blocked => exact fun hsome hwait => congrArg Host.Outcome.next (tokenUpdate_blocked hfree hsome hwait)
  case starts => exact fun hsome htoken hblock => ⟨_, rfl, tokenUpdate_starts hfree hsome htoken hblock⟩

/-! ## Checks and ends of a session (R864 to R866) -/

section
variable {s : State}

theorem tokenComplete_ready {j : SpJob} {tok : Bytes} (hjob : tokenJob s = some j) (htoken : s.h.dbg.token = some tok) (hleave : j.leave ≠ 1)
    (hctx : j.engine ≠ 0 → j.ctx.isSome = true) :
    tokenComplete s = tokenEnd (match tokenEarly s tok with | some c => c | none => tokenLate s tok) (endJob j 0 s).1 := by
  have hready : ¬ (j.leave = 1 ∨ (j.engine ≠ 0 ∧ j.ctx.isNone = true)) := by
    rintro (h | ⟨hengine, hnone⟩)
    · exact hleave h
    · simp [Option.isNone_iff_eq_none.mp hnone] at hctx
      exact hengine hctx
  unfold tokenComplete
  rw [hjob, htoken]
  exact if_neg hready

theorem blockEnds_at {b : Nat} (h : s.h.dbg.blockEnd = some b) :
    (b ≤ s.time.now → blockEnds s = { s with h.dbg.blockEnd := none }) ∧ (s.time.now < b → blockEnds s = s) := by
  unfold blockEnds
  rw [h]
  exact ⟨fun hdue => if_pos hdue, fun hearly => if_neg (Nat.not_le.mpr hearly)⟩

theorem sessionExpire_due (hopen : s.h.dbg.open_ = true) (hdue : s.h.dbg.until_ ≤ s.time.now) : sessionExpire s = endSession s :=
  if_pos ⟨hopen, hdue⟩

/-- A write of 1 to DBG.CTL.END ends the session. -/
theorem busWrite_dbgCtl_ends (hopen : s.h.dbg.open_ = true) (hmode : hostModeStatus s .debug = none)
    (hchecks : hostWriteStatus s .debug 0xF00004 1 0 = none) :
    (busWrite .debug 0xF00004 1 s).1.h.dbg.open_ = false ∧ (busWrite .debug 0xF00004 1 s).1.h.dbg.grant = 0 := by
  obtain ⟨d, hd⟩ := Option.isSome_iff_exists.mp (show (regAt 0xF00004).isSome = true by decide)
  obtain ⟨j, k1, k2, k3, rg, w1, w2, h1, h2, _, _, hwritten⟩ := hostWrite_shape s .debug 0xF00004 1 d hmode hchecks hd
  have hbus : busWrite .debug 0xF00004 1 s = hostWrites .debug [(0xF00004, 1)] s := rfl
  have hstored := written_stored (fs := false) .debug d 0xF00004 1 (withJournal j k1 k2 k3 rg s) hd rfl rfl
  obtain ⟨rg', hregs⟩ := stored_shape false .debug 0xF00004 1 (withJournal j k1 k2 k3 rg s)
  have heffect (old : Nat) (u : State) : regEffect false .debug 0xF00004 old 1 u = endSession u := rfl
  obtain ⟨fr, g, ch, hend⟩ := endSession_open (s := { withJournal j k1 k2 k3 rg s with regs := rg' }) hopen
  rw [hbus, hwritten, heffect, hstored, hregs, hend]
  exact ⟨rfl, rfl⟩

theorem execDbgCtlEnd_open (h : sessionOpen s = true) : exec .dbgCtlEnd s = .next (busWrite .debug 0xF00004 1 s).1 :=
  congrArg Host.Outcome.next (if_pos h)

theorem execDbgCtlEnd_closed (h : sessionOpen s = false) : exec .dbgCtlEnd s = .next (recordRefusal false .debug 0xF00004 0x08 s) :=
  congrArg Host.Outcome.next (if_neg (by simp [h]))

theorem open_of_sessionOpen (h : sessionOpen s = true) : s.h.dbg.open_ = true := by
  unfold sessionOpen at h
  exact (Bool.and_eq_true _ _ ▸ h).1

/-! ## Run control and accesses in a session (R867 to R880) -/

theorem inSession_runs (hfree : dbgBusy s = false) (hopen : s.h.dbg.open_ = true) (run : State → State) : inSession run s = run s :=
  if_neg (by simp [hfree, hopen])

theorem runGrant_open (hopen : s.h.dbg.open_ = true) (fs : Bool) : runGrant s fs = bit s.h.dbg.grant (b2n fs) := by
  unfold runGrant
  rw [hopen, Bool.true_and]

section
variable {fs : Bool} (hgrant : runGrant s fs = true)
include hgrant

theorem dmHalt_granted (hthere : hartThere s fs = true) : dmHalt fs s =
    if fs then { s with h.dbg.haltFs := true, h.dbg.lrFs := false } else { s with h.dbg.haltMp := true, h.dbg.lrMp := false } :=
  (if_neg (by simp [hgrant])).trans (if_neg (by simp [hthere]))

theorem dmResume_granted : dmResume fs s = if fs then { s with h.dbg.haltFs := false } else { s with h.dbg.haltMp := false } :=
  if_neg (by simp [hgrant])

theorem dmNdmreset_granted (hthere : hartThere s fs = true) : dmNdmreset fs s = hartStart fs s :=
  (if_neg (by simp [hgrant])).trans (if_neg (by simp [hthere]))

theorem dmStep_granted : dmStep fs s = if halted s fs then retireOne fs s else s := by
  unfold dmStep
  rw [if_neg (by simp [hgrant])]
  cases halted s fs <;> rfl

end

/-- Without its grant, a request of run control answers cmderr 4. -/
theorem runControl_ungranted {fs : Bool} (h : runGrant s fs = false) :
    dmHalt fs s = setCmderr fs 4 s ∧ dmResume fs s = setCmderr fs 4 s ∧ dmNdmreset fs s = setCmderr fs 4 s ∧ dmStep fs s = setCmderr fs 4 s := by
  have hrefused : (!runGrant s fs) = true := by rw [h]; rfl
  exact ⟨if_pos hrefused, if_pos hrefused, if_pos hrefused, if_pos hrefused⟩

section
variable {fs : Bool} {ops : List (Nat × Option Nat)} (herr : (if fs then s.h.dbg.cmdFs else s.h.dbg.cmdMp) = 0)
include herr

theorem abstractRun_halted (hgrant : runGrant s fs = true) (hhalted : halted s fs = true) : abstractRun fs ops s = ops.foldl (debugAccess fs) s :=
  (if_neg (not_not.mpr herr)).trans (if_neg (by simp [hgrant, hhalted]))

theorem abstractRun_running (hrunning : halted s fs = false) : abstractRun fs ops s = setCmderr fs 4 s :=
  (if_neg (not_not.mpr herr)).trans (if_pos (by simp [hrunning]))

end

section
variable {a : Nat}

theorem sbaRead_ungranted (fs : Bool) (h : bit s.h.dbg.grant 2 = false) : sbaRead fs a s = setSberror fs 7 s := if_pos (by simp [h])

/-- A read of the MP's module is a peek of the host die's registers. -/
theorem sbaRead_host (hgrant : bit s.h.dbg.grant 2 = true) (hreg : (regAt a).isSome = true) (hlocal : isRemote a = false) :
    sbaRead false a s = { s with h.dbg.sbdMp := peekAt false .debug s a } := by
  unfold sbaRead
  rw [if_neg (by simp [hgrant]), if_neg (by simp [Option.isSome_iff_ne_none.mp hreg]), if_neg (by simp [hlocal])]

/-- A read of the FS's module crosses the link. -/
theorem sbaRead_field (hgrant : bit s.h.dbg.grant 2 = true) (hreg : (regAt a).isSome = true) (hreach : fsReaches a = true)
    (hlink : s.h.tahr.link = true) (hidle : remoteBusy s .debug = false) : sbaRead true a s = remoteSend .debug 1 [(a, 1)] 1 s := by
  unfold sbaRead
  rw [if_neg (by simp [hgrant]), if_neg (by simp [Option.isSome_iff_ne_none.mp hreg, hreach]), if_pos (.inl rfl), if_neg (by simp [hlink]),
    if_neg (by simp [hidle])]
  rfl

variable {v : Nat}

theorem sbaWrite_ungranted (fs : Bool) (h : sessionOpen s = false ∨ bit s.h.dbg.grant 3 = false ∨ runGrant s fs = false) :
    sbaWrite fs a v s = setSberror fs 7 (recordRefusal false .debug a 0x08 s) :=
  if_pos (by simpa using h)

theorem sbaWrite_host (hopen : sessionOpen s = true) (hgrant : bit s.h.dbg.grant 3 = true) (hrun : runGrant s false = true) (w : Word) :
    sbaWrite false a w.toNat s = if (busWrite .debug a w s).2 = 0 ∨ (busWrite .debug a w s).2 = 0x0F then (busWrite .debug a w s).1
      else setSberror false 7 (busWrite .debug a w s).1 := by
  unfold sbaWrite
  rw [if_neg (by simp [hopen, hgrant, hrun]), if_neg Bool.false_ne_true, BitVec.ofNat_toNat, BitVec.setWidth_eq]

theorem sbaWrite_field (hopen : sessionOpen s = true) (hgrant : bit s.h.dbg.grant 3 = true) (hrun : runGrant s true = true)
    (hchecks : sbaFsStatus s a v = none) (hlink : s.h.tahr.link = true) (hidle : remoteBusy s .debug = false) :
    sbaWrite true a v s = remoteSend .debug 2 [(a, v)] 1 (windowAfter s .debug a v s) := by
  unfold sbaWrite
  rw [if_neg (by simp [hopen, hgrant, hrun]), if_pos rfl, hchecks]
  exact (if_neg (by simp [hlink])).trans (if_neg (by simp [hidle]))

end

end

/-- Settles O60: a check and the ends of a session by their lemmas, each request and access by its grant. -/
theorem sessionsGrantDebugAccess : Obligations.SessionsGrantDebugAccess := by
  unfold Obligations.SessionsGrantDebugAccess
  refine ⟨fun s j tok hjob htoken hleave hctx => congrArg Host.Outcome.next (tokenComplete_ready hjob htoken hleave hctx),
    fun s b h => ⟨fun hdue => congrArg Host.Outcome.next ((blockEnds_at h).1 hdue), fun hearly => congrArg Host.Outcome.next ((blockEnds_at h).2 hearly)⟩,
    fun s hopen hdue => ?expiry, fun s hopen hmode hchecks => ?ctlEnd, fun s h => execDbgCtlEnd_closed h, fun s fs hfree hopen => ?control,
    fun s fs ops hfree hopen herr => ?abstract, fun s a hfree hopen => ?read, fun s a v hfree hopen => ?write⟩
  case expiry =>
    obtain ⟨fr, g, ch, e⟩ := endSession_open hopen
    exact ⟨_, congrArg Host.Outcome.next ((sessionExpire_due hopen hdue).trans e), rfl, rfl, rfl, rfl, rfl, rfl, rfl, rfl, rfl⟩
  case ctlEnd => exact ⟨_, execDbgCtlEnd_open hopen, busWrite_dbgCtl_ends (open_of_sessionOpen hopen) hmode hchecks⟩
  all_goals have hruns (run : State → State) : (.next (inSession run s) : Out) = .next (run s) :=
    congrArg Host.Outcome.next (inSession_runs hfree hopen run)
  case control =>
    rw [← bit_testBit, ← runGrant_open hopen]
    refine ⟨fun hgrant => ⟨?_, ?_, ?_, ?_, ?_, ?_, ?_⟩, fun hungranted => ?_⟩
    · rintro hthere rfl
      exact (hruns _).trans (congrArg Host.Outcome.next (dmHalt_granted hgrant hthere))
    · rintro hthere rfl
      exact (hruns _).trans (congrArg Host.Outcome.next (dmHalt_granted hgrant hthere))
    · rintro rfl
      exact (hruns _).trans (congrArg Host.Outcome.next (dmResume_granted hgrant))
    · rintro rfl
      exact (hruns _).trans (congrArg Host.Outcome.next (dmResume_granted hgrant))
    · exact fun hthere => (hruns _).trans (congrArg Host.Outcome.next (dmNdmreset_granted hgrant hthere))
    · exact fun hhalted => (hruns _).trans (congrArg Host.Outcome.next ((dmStep_granted hgrant).trans (if_pos hhalted)))
    · exact fun hrunning => (hruns _).trans (congrArg Host.Outcome.next ((dmStep_granted hgrant).trans (if_neg (by simp [hrunning]))))
    · obtain ⟨hhalt, hresume, hreset, hstep⟩ := runControl_ungranted hungranted
      exact ⟨(hruns _).trans (congrArg Host.Outcome.next hhalt), (hruns _).trans (congrArg Host.Outcome.next hresume),
        (hruns _).trans (congrArg Host.Outcome.next hreset), (hruns _).trans (congrArg Host.Outcome.next hstep)⟩
  case abstract =>
    rw [← bit_testBit, ← runGrant_open hopen]
    exact ⟨fun hgrant hhalted => (hruns _).trans (congrArg Host.Outcome.next (abstractRun_halted herr hgrant hhalted)),
      fun hrunning => (hruns _).trans (congrArg Host.Outcome.next (abstractRun_running herr hrunning))⟩
  case read =>
    rw [← bit_testBit]
    exact ⟨fun fs hungranted => (hruns _).trans (congrArg Host.Outcome.next (sbaRead_ungranted fs hungranted)),
      fun hgrant hreg hlocal => (hruns _).trans (congrArg Host.Outcome.next (sbaRead_host hgrant hreg hlocal)),
      fun hgrant hreg hreach hlink hidle => (hruns _).trans (congrArg Host.Outcome.next (sbaRead_field hgrant hreg hreach hlink hidle))⟩
  case write =>
    rw [← bit_testBit]
    exact ⟨fun fs h => (hruns _).trans (congrArg Host.Outcome.next (sbaWrite_ungranted fs h)),
      fun hsession hgrant hrun => (hruns _).trans (congrArg Host.Outcome.next (sbaWrite_host hsession hgrant hrun v)),
      fun hsession hgrant hrun hchecks hlink hidle =>
        (hruns _).trans (congrArg Host.Outcome.next (sbaWrite_field hsession hgrant hrun hchecks hlink hidle))⟩

end Sys2Proof.Laws
end
